-- ==== Sys2Proof/Word.lean ====
section
/-! DEFINITION. The word types of the SK-416: link bytes, media words, time-base counters, sector data. -/

namespace Sys2Proof

/-- A byte of the station link (R205). -/
abbrev Byte := BitVec 8

/-- A 16-bit word of the minicomputer's format (R49). -/
abbrev Word := BitVec 16

/-- A reading of the rotation timer (µs) or of the uptime counter (ms): 32 bits, wrapping (R1). -/
abbrev Timer := BitVec 32

/-- The 256 data words of one sector (R49). -/
abbrev SectorData := { words : List Word // words.length = 256 }

end Sys2Proof
end

