-- ==== Sys2Proof/Syntax.lean ====
section
/-! DEFINITION. The commands: one constructor for each row of spec/opcode_table.json, in the table's order.
The table gives no operands; an operand here is what the event's rule says comes from outside the block.
A row that takes a station request has none: its operands are the payload bytes of the request in progress
(R171, R209; log entry 4). -/

namespace Sys2Proof

/-- A command: one indivisible event at the bridge (spec/95). -/
inductive Instr where
  /-- Power-on, or assertion and release of the reset line (R46). -/
  | powerOnReset
  /-- The index pulse now on the index line, whose leading edge came `asserted` µs ago: whether it qualifies at this
  moment is the Index Monitor's to say (R3, R17, R18; DESIGN CHOICE, log entry 6). -/
  | indexQualified (asserted : Nat)
  | startupWindowExpiry
  | closedWindowExpiry
  | openWindowExpiry
  | resyncLimitExpiry
  /-- Seek complete; `current` says whether it answers the operation now in flight or one already
  abandoned (R27; log entry 8). -/
  | seekComplete (current : Bool)
  | seekError
  | seekTimeoutExpiry
  | recalibrateTimeoutExpiry
  | settleWaitEnd
  | restEnd
  | quietExpiry
  /-- The drive fault line takes the level `line` (R37, R39; log entry 9). -/
  | driveFaultAsserted (line : Bool)
  /-- Another master holds the drive's unit select line at a level, or lets it go (R20; log entry 9). -/
  | contentionSeen (held : Option Bool)
  /-- An address mark whose end the rotation timer read as `markTime`, and the flux transitions of the header behind
  it (R51, R54; log entry 7): those in the sixteen cells of each of its four words, each placed in eighths of a bit
  cell from the first cell of its word, and those just outside the header, placed from its first cell. -/
  | header (markTime : Timer) (cylinder head sector check : List (Fin 128)) (outside : List Int)
  /-- The flux transitions of the data field behind a header, read to its last bit: those in the cells of its 256 data
  words, those in the cells of its check word, and those just outside the field (R54, R56; log entry 7). -/
  | copySeal (data : List (Fin 32768)) (check : List (Fin 128)) (outside : List Int)
  | batchCompletion
  /-- The cooldown expiry of the job on track `cylinder`/`head` (R106; log entry 29). -/
  | cooldownExpiry (cylinder head : Nat)
  | holdExpiry
  | emulatedIndex
  | sectorPulse
  /-- The cylinder strobe, with a cylinder 0..1023 (R145). -/
  | seek (cylinder : BitVec 10)
  /-- The head select, with a head 0..15 (R145). -/
  | head (number : BitVec 4)
  | recalibrate
  | read
  | write
  /-- The 256 data words of the WRITE under way have arrived (R161). -/
  | writeDataComplete (data : SectorData)
  | faultClear
  | transferStart
  /-- The first byte of a request transfer, other than 00h (R171). -/
  | requestCodeByte (code : Byte)
  /-- The rest of the frame under receipt: its declared length, its payload and its check byte (R171). -/
  | frameComplete (length : Word) (payload : List Byte) (check : Byte)
  | selectRise
  | fetchFirstByte
  | responseReleased
  | unknownRequest
  | status
  | getEvents
  | getSnapshot
  | getStats
  | clearStats
  | listEntries
  | getEntry
  | markExported
  | readSector
  | listFrames
  | queueTrack
  | retryTrack
  | cancelJob
  | listJobs
  | listOverlay
  | readOverlay
  | dropOverlay
  | setGeometry
  | setRotation
  | setRead
  | setVote
  | setLadderStep
  | setLadderShape
  | setDrive
  | setPort
  | getSettings
  | clearFence
  | restDrive
  | bypassOn
  | bypassOff
  | softReset
  | attentionPulseEnd
  | attentionGapEnd
  | frameError
  /-- The controller's unit select line takes the level `active` (R145). -/
  | unitSelect (active : Bool)
deriving DecidableEq, Repr

end Sys2Proof
end

