-- ==== Sys2Proof/Config.lean ====
section
/-! DEFINITION. The sizes and fixed times the spec gives the part. No rule leaves a written value open,
so there is no free value here. -/

namespace Sys2Proof.Config

/-- Slots of the Capture Store (R61). -/
def captureSlots : Nat := 96

/-- Frame slots of the Track Store (R113). -/
def frameSlots : Nat := 8

/-- Frames that STATION-origin jobs may hold (R93, R113). -/
def stationFrames : Nat := 6

/-- Jobs of the Job Queue (R93). -/
def jobSlots : Nat := 16

/-- Entries of the Recovery Table (R130). -/
def tableEntries : Nat := 512

/-- The last sequence number the Recovery Table issues (R132). -/
def lastSequence : Nat := 4294967295

/-- Entries of the Write Overlay (R163). -/
def overlayEntries : Nat := 64

/-- Records of the Event Queue (R197). -/
def eventRecords : Nat := 32

/-- Copies a sector needs before it can be voted (R71). -/
def voteCopies : Nat := 3

/-- Request payload bytes the Station Link keeps (R171). -/
def keptPayload : Nat := 8

/-- Width of an attention pulse, in µs (R200). -/
def pulseWidth : Nat := 20

/-- Inactive time between two attention pulses, in µs (R200). -/
def pulseGap : Nat := 2

/-- Top of the model's two counts of the index line, in µs: every interval is far shorter (R1; log entry 6). -/
def lineTop : Nat := 2147483648

/-- Eighths of a bit cell, and of the window placed on it (R54). -/
def cellEighths : Nat := 8

/-- Most entry summaries, and most event records, of one response (R182, R180). -/
def listMost : Nat := 8

/-- Microseconds of one millisecond: the model's relation of the two time bases.
DESIGN CHOICE (log entry 1), unsafe: the spec gives each counter's unit and says nothing of their phase. -/
def microsPerMilli : Nat := 1000

end Sys2Proof.Config
end

