-- ==== Sys2Proof/Machine/State.lean ====
section
/-! DEFINITION. The state of the SK-416, block by block, as plain data, and the state right after reset. -/

namespace Sys2Proof.Machine

/-! ### Addresses and expiries -/

/-- A track address, cylinder/head (spec/00, Addresses). -/
structure Track where
  cyl : Nat
  head : Nat
deriving DecidableEq, Repr

/-- A sector address, cylinder/head/sector (spec/00, Addresses). -/
structure SectorAddr where
  track : Track
  sector : Nat
deriving DecidableEq, Repr

/-- An expiry: the counter's value when it was scheduled and its length in that counter's unit (R1). -/
structure Expiry where
  start : Timer
  length : Nat
deriving DecidableEq, Repr

/-- 256 data words and the check word that goes with them (R49). -/
structure SectorWords where
  data : SectorData
  check : Word
deriving DecidableEq, Repr

/-! ### Time bases, input lines, geometry -/

/-- The two time bases (R1). `subMs` counts the microseconds of the current millisecond (log entry 1). -/
structure Clock where
  rotationTimer : Timer
  uptime : Timer
  subMs : Nat
deriving DecidableEq, Repr

/-- The levels of the input lines that a rule reads as levels (R20, R39, R43, R145). `selectHeld` is the level at
which another master holds the drive's unit select line, `none` while the line is at the level the Drive Sequencer
drives (R20; log entry 9). -/
structure Pins where
  driveFault : Bool
  selectHeld : Option Bool
  unitSelect : Bool
deriving DecidableEq, Repr

/-- The geometry settings C, H and S (R190). -/
structure Geometry where
  cylinders : Nat
  heads : Nat
  sectors : Nat
deriving DecidableEq, Repr

/-! ### Index Monitor -/

/-- The window state (R5 to R9). -/
inductive Window where
  | idle
  | startup
  | closed
  | opened
  | resync
deriving DecidableEq, Repr

/-- The spindle state, derived from the window state and the latch (R12). -/
inductive Spindle where
  | stopped
  | starting
  | running
  | unstable
deriving DecidableEq, Repr

/-- The six rotation settings (R2): P_nom, the tolerance, U, V, N and the index minimum width. -/
structure RotationSettings where
  pNom : Nat
  tol : Nat
  startup : Nat
  limit : Nat
  shift : Nat
  width : Nat
deriving DecidableEq, Repr

/-- What qualification needs to know of the index line, in µs that stop at a top (R3, R17, R18; the model's own
record, log entry 6): the time since a pulse then asserted was last restarted, the time since the last index was taken,
and, within the microsecond of an accepted SET_ROTATION or SOFT_RESET, the minimum width that stood before it. -/
structure IndexLine where
  since : Nat
  taken : Nat
  restarted : Option Nat
deriving DecidableEq, Repr

/-- The Index Monitor's state (spec/01). -/
structure Ixm where
  window : Window
  reference : Option Timer
  expiry : Option Expiry
  violations : Nat
  latched : Bool
  average : Int
  rot : RotationSettings
  line : IndexLine
deriving DecidableEq, Repr

/-! ### Drive Sequencer -/

/-- The sequencer state (spec/02, state table). -/
inductive DsqState where
  | offline
  | recalibrating
  | idle
  | seeking
  | settling
  | reading
  | voting
  | resting
  | fenced
  | detached
deriving DecidableEq, Repr

/-- The cause of a fence (R37). -/
inductive FenceCause where
  | seek
  | recal
  | driveFault
  | contention
deriving DecidableEq, Repr

/-- The real drive position, when it is known (R22). -/
structure Position where
  cyl : Nat
  head : Nat
  offset : Int
deriving DecidableEq, Repr

/-- The kind of a grant (R26). -/
inductive GrantKind where
  | demandFetch
  | prefetch
  | jobPass
deriving DecidableEq, Repr

/-- How far a grant has come: bringing the heads to the track, its pass in flight, or its vote batch running
(R26, R31). -/
inductive GrantPhase where
  | approach
  | inPass
  | voting
deriving DecidableEq, Repr

/-- What the end of a recalibrate does with the grant (R24, R34, R35). -/
inductive AfterRecal where
  /-- the grant is taken up again from R27 -/
  | retake
  /-- the grant ends without a pass, since the seek fault fell while the spindle was UNSTABLE (R24) -/
  | finish
  /-- the grant's retries are exhausted and its pass is treated as counted (R35) -/
  | counted
deriving DecidableEq, Repr

/-- A grant of the drive (R26, R103). -/
structure Grant where
  kind : GrantKind
  track : Track
  offset : Int
  shift : Int
  step : Nat
  openSet : List Nat
  passNo : Nat
  fill : Bool
  retries : Nat
  phase : GrantPhase
  /-- a pass of the grant has begun in this or an earlier attempt (R26; log entry 12) -/
  begun : Bool
  after : AfterRecal
deriving DecidableEq, Repr

/-- The six drive settings (R19). -/
structure DriveSettings where
  seekTimeout : Nat
  settle : Nat
  retries : Nat
  fenceLimit : Nat
  quietPeriod : Nat
  prefetch : Bool
deriving DecidableEq, Repr

/-- The Drive Sequencer's state (spec/02). `lastPosition` is the position as last established, `none` while none has been
since power-on: what a fence reports as the position last known (R22, R38, R202; log entry 44). -/
structure Dsq where
  state : DsqState
  position : Option Position
  lastPosition : Option Position
  grant : Option Grant
  seekTarget : Option Nat
  faults : Nat
  fence : Option FenceCause
  expiry : Option Expiry
  quiet : Option Expiry
  bypass : Bool
  set : DriveSettings
deriving DecidableEq, Repr

/-! ### Read Channel -/

/-- The pass context (R50), with the values fixed for the pass (R55). -/
structure PassContext where
  track : Track
  openSet : List Nat
  reference : Timer
  average : Int
  shift : Int
  step : Nat
  passNo : Nat
  headerOffset : Nat
  slipLimit : Nat
  sectors : Nat
deriving DecidableEq, Repr

/-- The copy under assembly (R53): its sector, its header's check word, arrival time, deviation and the
marginal count so far. The header's three words are the pass's track and this sector. -/
structure Assembly where
  sector : Nat
  headerCheck : Word
  arrival : Nat
  deviation : Int
  marginal : Nat
deriving DecidableEq, Repr

/-- The Read Channel's state (spec/03). -/
structure Rdc where
  pass : Option PassContext
  shift : Int
  assembly : Option Assembly
  lastDeviation : Int
  headerOffset : Nat
  slipLimit : Nat
deriving DecidableEq, Repr

/-! ### Capture Store and Vote Engine -/

/-- A sealed copy (R57). -/
structure SealedCopy where
  addr : SectorAddr
  passNo : Nat
  step : Nat
  words : SectorWords
  marginal : Nat
  deviation : Int
  weight : Nat
  good : Bool
deriving DecidableEq, Repr

/-- A sector's copy list in capture order, oldest first, with its fresh mark (R61). -/
structure CopyList where
  addr : SectorAddr
  copies : List SealedCopy
  fresh : Bool
deriving DecidableEq, Repr

/-- The Capture Store's state (R61). The slots in use are the copies of all lists together. -/
structure Cps where
  lists : List CopyList
deriving DecidableEq, Repr

/-- A member of a vote batch, with the copies taken (R71). -/
structure Member where
  sector : Nat
  copies : List SealedCopy
deriving DecidableEq, Repr

/-- A running vote batch (R71). -/
structure Batch where
  track : Track
  passNo : Nat
  step : Nat
  minMargin : Nat
  members : List Member
deriving DecidableEq, Repr

/-- The Vote Engine's state (spec/04). -/
structure Vte where
  batch : Option Batch
  copyLimit : Nat
  minMargin : Nat
deriving DecidableEq, Repr

/-! ### Job Queue -/

/-- Who caused a job (spec/00, Terms). -/
inductive Origin where
  | machine
  | station
  | prefetch
deriving DecidableEq, Repr

/-- The state of a job (R94). -/
inductive JobState where
  | queued
  | active
  | cooling
deriving DecidableEq, Repr

/-- A vote that left its sector open (R80). -/
inductive LastVote where
  | weak
  | failedCheck
deriving DecidableEq, Repr

/-- The tallies of one sector (R92, R96). -/
structure Tally where
  sector : Nat
  captured : Nat
  badHeaders : Nat
  lastVote : Option LastVote
deriving DecidableEq, Repr

/-- A job record (R92). Its open set is the sectors of `tallies`. -/
structure Job where
  track : Track
  origin : Origin
  state : JobState
  holdsFrame : Bool
  tallies : List Tally
  step : Nat
  first : Nat
  fill : Bool
  done : Nat
  cycle : Nat
  counter : Nat
  cooldown : Option Expiry
  starved : Bool
deriving DecidableEq, Repr

/-- A step record of the Retry Ladder (R88). -/
structure LadderStep where
  offset : Int
  shift : Int
  passes : Nat
deriving DecidableEq, Repr

/-- The fetch tallies and the starved mark (R96). -/
structure FetchTallies where
  tallies : List Tally
  starved : Bool
deriving DecidableEq, Repr

/-- The Job Queue's state (spec/05). -/
structure Jbq where
  jobs : List Job
  ladder : List LadderStep
  length : Nat
  repeats : Nat
  cooldown : Nat
  fetch : Option FetchTallies
deriving DecidableEq, Repr

/-! ### Track Store -/

/-- A sector record of a frame (R113): its state, and the data and best weight it holds. -/
inductive SectorRec where
  | empty
  | opened (words : SectorWords) (weight : Nat)
  | good (words : SectorWords)
  | recovered (words : SectorWords)
  | failed (best : Option (SectorWords × Nat))
deriving DecidableEq, Repr

/-- A frame (R113). -/
structure Frame where
  track : Track
  sectors : List SectorRec
  exportPending : Bool
deriving DecidableEq, Repr

/-- The Track Store's state: the frames held, least recently used first (R113). -/
structure Tks where
  frames : List Frame
  exportHold : Bool
deriving DecidableEq, Repr

/-! ### Recovery Table -/

/-- The state of an entry (R130). -/
inductive EntryState where
  | opened
  | recovered
  | incomplete
deriving DecidableEq, Repr

/-- Why a sector FAILED (R131). -/
inductive FailReason where
  | noHeader
  | fewCopies
  | weak
  | check
  | cancelled
  | evicted
  | queueFull
deriving DecidableEq, Repr

/-- The result of an outcome with the fields it fixes (R131). -/
inductive OutcomeResult where
  | pending
  | retryGood (copies step passNo : Nat)
  | voted (copies margin step passNo : Nat)
  | failed (copies : Nat) (reason : FailReason)
deriving DecidableEq, Repr

/-- An outcome (R131). -/
structure OutcomeRec where
  sector : Nat
  result : OutcomeResult
deriving DecidableEq, Repr

/-- An entry of the Recovery Table (R130). State `incomplete` is the spec's PARTIAL. -/
structure Entry where
  seqNo : Nat
  track : Track
  state : EntryState
  origin : Origin
  runs : Nat
  passes : Nat
  successStep : Option Nat
  exported : Bool
  imageDropped : Bool
  starved : Bool
  outcomes : List OutcomeRec
deriving DecidableEq, Repr

/-- The Recovery Table's state (spec/07). -/
structure Rct where
  entries : List Entry
  nextSequence : Nat
  peakPasses : Nat
  peakMargin : Option Nat
  peakDeviation : Nat
  peakViolations : Nat
deriving DecidableEq, Repr

/-! ### Machine Port and Write Overlay -/

/-- The port state (spec/08, state table). -/
inductive PortState where
  | notReady
  | seeking
  | ready
  | seekError
  | fault
  | detached
deriving DecidableEq, Repr

/-- The emulated rotation (R150, R151): the time of its last index, P_nom and S as read at it, and the sector
whose passing is under way. -/
structure EmuRotation where
  indexAt : Timer
  period : Nat
  sectors : Nat
  passing : Nat
deriving DecidableEq, Repr

/-- What the port sends for answers 1 to 3 of a READ (R160). -/
structure ReadAnswer where
  addr : SectorAddr
  headerCheck : Word
  words : SectorWords
deriving DecidableEq, Repr

/-- The READ or WRITE under way in the passing (R151). A READ with `none` sends no address mark (R159). -/
inductive Activity where
  | none
  | reading (answer : Option ReadAnswer)
  | writing (addr : SectorAddr)
deriving DecidableEq, Repr

/-- The Machine Port's state (spec/08). `attnPulse` is the attention mode: true for PULSE. -/
structure Mcp where
  state : PortState
  track : Track
  hold : Option Expiry
  emu : EmuRotation
  gateTaken : Bool
  activity : Activity
  holdLimit : Nat
  attnPulse : Bool
deriving DecidableEq, Repr

/-- An overlay entry (R163). -/
structure OverlayEntry where
  addr : SectorAddr
  data : SectorData
  writes : Nat
deriving DecidableEq, Repr

/-- The Write Overlay's state (R163). -/
structure Ovl where
  entries : List OverlayEntry
deriving DecidableEq, Repr

/-! ### Station Link -/

/-- The transfer state (R169, R174, R175; log entry 25). -/
inductive Transfer where
  /-- select is high -/
  | none
  /-- select has fallen and the first byte has not arrived -/
  | started
  /-- select fell before the release of the reset line: ignored to its end (R178) -/
  | ignored
  /-- a request transfer -/
  | request
  /-- a request transfer whose frame was discarded at its code byte (R174) -/
  | discarded
  /-- a fetch transfer; `held` while it shifts out the held response -/
  | fetch (held : Bool)
deriving DecidableEq, Repr

/-- The frame under receipt: its bytes so far and its running frame check (R171, R172). -/
structure Receipt where
  bytes : List Byte
  check : Byte
deriving DecidableEq, Repr

/-- The request in progress: code, declared length, the payload bytes kept, the check computed and the check
received (R171, R173). -/
structure Request where
  code : Byte
  length : Nat
  payload : List Byte
  computed : Byte
  received : Byte
deriving DecidableEq, Repr

/-- The result codes (R176). -/
inductive ResultCode where
  | ok
  | none
  | frameError
  | unknownRequest
  | badLength
  | range
  | notFound
  | state
  | full
deriving DecidableEq, Repr

/-- A response: its result and its payload, which begins with the request code (R176). -/
structure Response where
  result : ResultCode
  payload : List Byte
deriving DecidableEq, Repr

/-- The Station Link's state (spec/09). -/
structure Stl where
  transfer : Transfer
  receipt : Option Receipt
  request : Option Request
  response : Option Response
  shiftedOut : Nat
  collision : Bool
  statusByte : Byte
  shifting : List Byte
deriving DecidableEq, Repr

/-! ### Event Queue -/

/-- The thirteen event kinds (R196). -/
inductive EventKind where
  | spindleUnstable
  | spindleStopped
  | driveFenced
  | trackRecovered
  | trackPartial
  | imageDropped
  | tableFull
  | queueFull
  | overlayFull
  | spindleRunning
  | jobClean
  | fenceCleared
  | resetDone
deriving DecidableEq, Repr

/-- An event record (R195). Its class is fixed by its kind. -/
structure EventRec where
  seqNo : BitVec 16
  kind : EventKind
  track : Option Track
  detail : Nat
deriving DecidableEq, Repr

/-- The cause of a snapshot (R202). -/
inductive SnapCause where
  | unstable
  | fence (cause : FenceCause)
deriving DecidableEq, Repr

/-- The fault snapshot record (R202). -/
structure Snapshot where
  cause : SnapCause
  seqNo : BitVec 16
  uptime : Timer
  dsqState : DsqState
  position : Option Position
  job : Option (Track × Nat)
  average : Int
  violations : Nat
  faults : Nat
  lastDeviation : Int
deriving DecidableEq, Repr

/-- The attention pulse (R200). `owed` counts the pulses still to be driven after this pulse, or after the
pulse this gap is followed by (log entry 18). -/
inductive Pulse where
  | none
  | high (since : Timer) (owed : Nat)
  | gap (since : Timer) (owed : Nat)
deriving DecidableEq, Repr

/-- The Event Queue's state (spec/10). -/
structure Evq where
  records : List EventRec
  counter : BitVec 16
  overrun : Bool
  line : Bool
  pulse : Pulse
  snapshot : Option Snapshot
deriving DecidableEq, Repr

/-! ### The whole machine -/

/-- The state of the SK-416, and the commands that wait, first in, first out. -/
structure State where
  clock : Clock
  pins : Pins
  geom : Geometry
  ixm : Ixm
  dsq : Dsq
  rdc : Rdc
  cps : Cps
  vte : Vte
  jbq : Jbq
  tks : Tks
  rct : Rct
  mcp : Mcp
  ovl : Ovl
  stl : Stl
  evq : Evq
  pending : List Instr
deriving DecidableEq, Repr

/-- The reasons a command stops with a fault: none. The spec gives the block no fault entry, and every
command of the table has an effect in every state (INVENTORY.md, Faults). -/
inductive Fault
deriving DecidableEq, Repr

/-- The reasons a command has no meaning. -/
inductive Refusal where
  /-- Raised by an arm of Machine/Dispatch.lean for a command not modelled yet; no arm is such. Safe: the
  model stops where the hardware goes on. -/
  | notModelled (mnemonic : String)
deriving DecidableEq, Repr

/-- The defaults of the twelve ladder records (R88). -/
def State.resetLadder : List LadderStep :=
  [⟨0, 0, 2⟩, ⟨0, -1, 1⟩, ⟨0, 1, 1⟩, ⟨-1, 0, 2⟩, ⟨1, 0, 2⟩, ⟨-2, -1, 1⟩, ⟨2, 1, 1⟩, ⟨0, 0, 3⟩,
    ⟨0, 0, 1⟩, ⟨0, 0, 1⟩, ⟨0, 0, 1⟩, ⟨0, 0, 1⟩]

/-- The machine right after power-on or the release of the reset line, with every input line inactive,
no other master on the select line and no index taken yet (log entries 6, 10): R1, R18, R46, R60, R69, R87, R112, R129, R144, R167, R168, R178, R190, R204. -/
def State.reset : State where
  clock := ⟨0, 0, 0⟩
  pins := ⟨false, none, false⟩
  geom := ⟨400, 5, 20⟩
  ixm := ⟨.idle, none, none, 0, false, 16667, ⟨16667, 20, 3, 3, 2, 4⟩, ⟨0, Config.lineTop, none⟩⟩
  dsq := ⟨.offline, none, none, none, none, 0, none, none, none, false, ⟨100, 15, 3, 6, 60, false⟩⟩
  rdc := ⟨none, 0, none, 0, 120, 150⟩
  cps := ⟨[]⟩
  vte := ⟨none, 5, 4⟩
  jbq := ⟨[], State.resetLadder, 8, 1, 5000, none⟩
  tks := ⟨[], true⟩
  rct := ⟨[], 1, 0, none, 0, 0⟩
  mcp := ⟨.notReady, ⟨0, 0⟩, none, ⟨0, 16667, 20, 0⟩, false, .none, 800, false⟩
  ovl := ⟨[]⟩
  stl := ⟨.none, none, none, none, 0, false, 0, []⟩
  evq := ⟨[], 0, false, false, .none, none⟩
  pending := []

end Sys2Proof.Machine
end

