-- ==== Sys2Proof/Machine/Operands.lean ====
section
/-! DEFINITION. Operands and encodings: clamping, the two check functions, the fields of request payloads, and
the byte layouts of responses and records (R49, R172, R177, R205 to R212). -/

namespace Sys2Proof.Machine

/-! ### Clamping (R177) -/

/-- The value `x`, or the nearer limit of `lo..hi` (R177). -/
def clampNat (lo hi x : Nat) : Nat :=
  if x < lo then lo else if hi < x then hi else x

/-- The signed value `x`, or the nearer limit of `lo..hi` (R177). -/
def clampInt (lo hi x : Int) : Int :=
  if x < lo then lo else if hi < x then hi else x

/-! ### The check functions -/

/-- The bits of a word or byte, most significant first (R49, R172). -/
def bitsOf {n : Nat} (w : BitVec n) : List Bool :=
  (List.range n).map fun i => w.getMsbD i

/-- One bit of a check register: the bit and the register's top bit are exclusive-ored, the register is shifted,
and the polynomial is taken in if that gave 1 (R49, R172). -/
def checkBit {n : Nat} (poly register : BitVec n) (bit : Bool) : BitVec n :=
  if register.msb != bit then (register <<< 1) ^^^ poly else register <<< 1

/-- The sector check over a sequence of words (R49). -/
def check16 (ws : List Word) : Word :=
  (ws.flatMap bitsOf).foldl (checkBit 0x8005) 0

/-- The frame check taken on from the register `register` over further bytes (R172). -/
def check8From (register : Byte) (bs : List Byte) : Byte :=
  (bs.flatMap bitsOf).foldl (checkBit 0x07) register

/-- The frame check over the bytes of a frame (R172). -/
def check8 (bs : List Byte) : Byte :=
  check8From 0 bs

/-- The header's check word for a sector address (R49, R160). -/
def headerCheck (a : SectorAddr) : Word :=
  check16 [BitVec.ofNat 16 a.track.cyl, BitVec.ofNat 16 a.track.head, BitVec.ofNat 16 a.sector]

/-- Data words with the check word computed over them (R49, R159). -/
def withCheck (d : SectorData) : SectorWords :=
  ⟨d, check16 d.val⟩

/-! ### Fields of a request payload (R205, R209) -/

/-- The one-byte field at `i`. -/
def byteAt (p : List Byte) (i : Nat) : Nat :=
  (p.getD i 0).toNat

/-- The two-byte field at `i`, most significant byte first. -/
def pairAt (p : List Byte) (i : Nat) : Nat :=
  256 * byteAt p i + byteAt p (i + 1)

/-- The four-byte field at `i`. -/
def quadAt (p : List Byte) (i : Nat) : Nat :=
  65536 * pairAt p i + pairAt p (i + 2)

/-- The signed one-byte field at `i`. -/
def signedAt (p : List Byte) (i : Nat) : Int :=
  (p.getD i 0).toInt

/-- A two-valued field: any byte but 0 is on (R177). -/
def flagAt (p : List Byte) (i : Nat) : Bool :=
  p.getD i 0 != 0

/-- The track address at the start of a payload. -/
def trackOf (p : List Byte) : Track :=
  ⟨pairAt p 0, byteAt p 2⟩

/-- The sector address at the start of a payload. -/
def sectorOf (p : List Byte) : SectorAddr :=
  ⟨trackOf p, byteAt p 3⟩

/-! ### Fields of a response (R205) -/

/-- A one-byte field. -/
def u8 (n : Nat) : List Byte :=
  [BitVec.ofNat 8 n]

/-- A two-byte field, most significant byte first. -/
def u16 (n : Nat) : List Byte :=
  [BitVec.ofNat 8 (n / 256), BitVec.ofNat 8 n]

/-- A four-byte field, most significant byte first. -/
def u32 (n : Nat) : List Byte :=
  u16 (n / 65536) ++ u16 n

/-- A signed one-byte field, in two's complement. -/
def i8 (x : Int) : List Byte :=
  [BitVec.ofInt 8 x]

/-- A signed two-byte field, in two's complement. -/
def i16 (x : Int) : List Byte :=
  u16 (BitVec.ofInt 16 x).toNat

/-- A flag as bit `i` of a flags byte or bit set, whose bits that no rule names are sent 0: R208, R211 and R212 do not
say what they are (DESIGN CHOICE, log entry 53). -/
def flagBit (b : Bool) (i : Nat) : Nat :=
  if b then 2 ^ i else 0

/-- A track address (R205). -/
def trackBytes (t : Track) : List Byte :=
  u16 t.cyl ++ u8 t.head

/-- A sector address (R205). -/
def sectorBytes (a : SectorAddr) : List Byte :=
  trackBytes a.track ++ u8 a.sector

/-- A track address that may be absent (R205). -/
def optTrackBytes : Option Track → List Byte
  | some t => trackBytes t
  | none => u16 0xFFFF ++ u8 0

/-- A drive position that may be unknown (R205). -/
def positionBytes : Option Position → List Byte
  | some p => u16 p.cyl ++ u8 p.head ++ i8 p.offset
  | none => u16 0xFFFF ++ u8 0 ++ u8 0

/-- A one-byte field whose absence is marked FFh (R205). -/
def optByte (o : Option Nat) : List Byte :=
  u8 (o.getD 255)

/-- A media word, high byte first. -/
def wordBytes (w : Word) : List Byte :=
  u16 w.toNat

/-- Sector data: 256 words and the check word, 514 bytes (R205). -/
def dataBytes (w : SectorWords) : List Byte :=
  w.data.val.flatMap wordBytes ++ wordBytes w.check

/-! ### Enumerated values (R207, R208) -/

/-- The byte of a result code (R207). -/
def resultByte : ResultCode → Nat
  | .ok => 0
  | .none => 1
  | .frameError => 2
  | .unknownRequest => 3
  | .badLength => 4
  | .range => 5
  | .notFound => 6
  | .state => 7
  | .full => 8

/-- The value of a spindle state (R208). -/
def spindleByte : Spindle → Nat
  | .stopped => 0
  | .starting => 1
  | .running => 2
  | .unstable => 3

/-- The value of a DSQ state (R208). -/
def dsqByte : DsqState → Nat
  | .offline => 0
  | .recalibrating => 1
  | .idle => 2
  | .seeking => 3
  | .settling => 4
  | .reading => 5
  | .voting => 6
  | .resting => 7
  | .fenced => 8
  | .detached => 9

/-- The value of a port state (R208). -/
def portByte : PortState → Nat
  | .notReady => 0
  | .seeking => 1
  | .ready => 2
  | .seekError => 3
  | .fault => 4
  | .detached => 5

/-- The value of a fence cause (R208). -/
def causeByte : FenceCause → Nat
  | .seek => 1
  | .recal => 2
  | .driveFault => 3
  | .contention => 4

/-- The value of a fence cause, 0 for none (R208). -/
def optCauseByte : Option FenceCause → Nat
  | some c => causeByte c
  | none => 0

/-- The value of a snapshot cause (R208). -/
def snapCauseByte : SnapCause → Nat
  | .fence c => causeByte c
  | .unstable => 5

/-- The value of an origin (R208). -/
def originByte : Origin → Nat
  | .machine => 0
  | .station => 1
  | .prefetch => 2

/-- The value of a job state (R208). -/
def jobStateByte : JobState → Nat
  | .queued => 0
  | .active => 1
  | .cooling => 2

/-- The value of a last vote outcome (R208). -/
def lastVoteByte : Option LastVote → Nat
  | none => 0
  | some .weak => 1
  | some .failedCheck => 2

/-- The value of an entry state (R208). -/
def entryStateByte : EntryState → Nat
  | .opened => 0
  | .recovered => 1
  | .incomplete => 2

/-- The value of a failure reason (R208). -/
def reasonByte : FailReason → Nat
  | .noHeader => 1
  | .fewCopies => 2
  | .weak => 3
  | .check => 4
  | .cancelled => 5
  | .evicted => 6
  | .queueFull => 7

/-- The value of a sector state (R208). -/
def sectorStateByte : SectorRec → Nat
  | .empty => 0
  | .opened _ _ => 1
  | .good _ => 2
  | .recovered _ => 3
  | .failed _ => 4

/-- The value of an event kind (R208). -/
def kindByte : EventKind → Nat
  | .spindleUnstable => 0x01
  | .spindleStopped => 0x02
  | .driveFenced => 0x03
  | .trackRecovered => 0x10
  | .trackPartial => 0x11
  | .imageDropped => 0x12
  | .tableFull => 0x13
  | .queueFull => 0x14
  | .overlayFull => 0x15
  | .spindleRunning => 0x20
  | .jobClean => 0x21
  | .fenceCleared => 0x22
  | .resetDone => 0x23

/-- The class of an event kind (R196). -/
def eventClass : EventKind → Nat
  | .spindleUnstable | .spindleStopped | .driveFenced => 2
  | .trackRecovered | .trackPartial | .imageDropped | .tableFull | .queueFull | .overlayFull => 1
  | .spindleRunning | .jobClean | .fenceCleared | .resetDone => 0

/-! ### Frames, request codes and lengths -/

/-- The bytes of a response frame (R175, R207). -/
def responseFrame (r : Response) : List Byte :=
  let body := u8 (resultByte r.result) ++ u16 r.payload.length ++ r.payload
  body ++ [check8 body]

/-- What a fetch shifts out when no response is held (R175, R206). -/
def noneResponse : Response :=
  ⟨.none, [0]⟩

/-- The request codes with the payload length each calls for (R209). -/
def requestTable : List (Byte × Nat) :=
  [(0x01, 0), (0x02, 1), (0x03, 0), (0x04, 0), (0x05, 0), (0x10, 4), (0x11, 3), (0x12, 3), (0x13, 4), (0x14, 0),
    (0x20, 4), (0x21, 3), (0x22, 3), (0x23, 0), (0x30, 0), (0x31, 4), (0x32, 4), (0x40, 4), (0x41, 7), (0x42, 4),
    (0x43, 2), (0x44, 4), (0x45, 4), (0x46, 8), (0x47, 4), (0x48, 0), (0x50, 0), (0x51, 2), (0x52, 1), (0x5F, 0)]

/-- The payload length a request code calls for, if the code is in the request set (R209). -/
def requestLength (code : Byte) : Option Nat :=
  (requestTable.find? fun r => r.1 == code).map Prod.snd

/-! ### Settings blocks (R210) -/

/-- The geometry block. -/
def geometryBytes (g : Geometry) : List Byte :=
  u16 g.cylinders ++ u8 g.heads ++ u8 g.sectors

/-- The rotation block. -/
def rotationBytes (r : RotationSettings) : List Byte :=
  u16 r.pNom ++ u8 r.tol ++ u8 r.startup ++ u8 r.limit ++ u8 r.shift ++ u8 r.width

/-- The read block. -/
def readBytes (headerOffset slipLimit : Nat) : List Byte :=
  u16 headerOffset ++ u16 slipLimit

/-- The vote block. -/
def voteBytes (copyLimit minMargin : Nat) : List Byte :=
  u8 copyLimit ++ u8 minMargin

/-- A step record. -/
def ladderBytes (r : LadderStep) : List Byte :=
  i8 r.offset ++ i8 r.shift ++ u8 r.passes

/-- The shape block. -/
def shapeBytes (length repeats cooldown : Nat) : List Byte :=
  u8 length ++ u8 repeats ++ u16 cooldown

/-- The drive block. Prefetch on is sent as 01h (R177, R210; DESIGN CHOICE, log entry 45). -/
def driveBytes (d : DriveSettings) : List Byte :=
  u16 d.seekTimeout ++ u8 d.settle ++ u8 d.retries ++ u8 d.fenceLimit ++ u16 d.quietPeriod ++
    u8 (flagBit d.prefetch 0)

/-- The port block. Export hold on and the attention mode PULSE are sent as 01h (R177, R210; DESIGN CHOICE, log
entry 45). -/
def portBytes (holdLimit : Nat) (exportHold attnPulse : Bool) : List Byte :=
  u16 holdLimit ++ u8 (flagBit exportHold 0) ++ u8 (flagBit attnPulse 0)

/-! ### Records (R212) -/

/-- An event record. -/
def eventBytes (e : EventRec) : List Byte :=
  u16 e.seqNo.toNat ++ u8 (kindByte e.kind) ++ u8 (eventClass e.kind) ++ optTrackBytes e.track ++ u16 e.detail

/-- A snapshot record. -/
def snapshotBytes (x : Snapshot) : List Byte :=
  u8 (snapCauseByte x.cause) ++ u16 x.seqNo.toNat ++ u32 x.uptime.toNat ++ u8 (dsqByte x.dsqState) ++
    positionBytes x.position ++ optTrackBytes (x.job.map Prod.fst) ++ optByte (x.job.map Prod.snd) ++
    u16 x.average.toNat ++ u8 x.violations ++ u8 x.faults ++ i16 x.lastDeviation

/-- An entry head; bits 3 to 7 of its flags are 0 (R212; log entry 53). -/
def entryHeadBytes (e : Entry) : List Byte :=
  u32 e.seqNo ++ trackBytes e.track ++ u8 (entryStateByte e.state) ++ u8 (originByte e.origin) ++ u8 e.runs ++
    u16 e.passes ++ u8 (flagBit e.exported 0 + flagBit e.imageDropped 1 + flagBit e.starved 2)

/-- The number of outcomes of an entry whose result satisfies `p`. -/
def countOutcomes (p : OutcomeResult → Bool) (e : Entry) : Nat :=
  e.outcomes.countP fun o => p o.result

/-- Whether an outcome is PENDING (R131). -/
def OutcomeResult.isPending : OutcomeResult → Bool
  | .pending => true
  | _ => false

/-- Whether an outcome is RETRY_GOOD (R131). -/
def OutcomeResult.isRetryGood : OutcomeResult → Bool
  | .retryGood _ _ _ => true
  | _ => false

/-- Whether an outcome is VOTED (R131). -/
def OutcomeResult.isVoted : OutcomeResult → Bool
  | .voted _ _ _ _ => true
  | _ => false

/-- Whether an outcome is FAILED (R131). -/
def OutcomeResult.isFailed : OutcomeResult → Bool
  | .failed _ _ => true
  | _ => false

/-- An entry summary. -/
def summaryBytes (e : Entry) : List Byte :=
  entryHeadBytes e ++ u8 (countOutcomes OutcomeResult.isPending e) ++ u8 (countOutcomes OutcomeResult.isRetryGood e) ++
    u8 (countOutcomes OutcomeResult.isVoted e) ++ u8 (countOutcomes OutcomeResult.isFailed e)

/-- An outcome; `live` is the copies its sector holds now, the n of a PENDING outcome (R131, R212). -/
def outcomeBytes (live : Nat) (o : OutcomeRec) : List Byte :=
  match o.result with
  | .pending => u8 o.sector ++ u8 0 ++ u8 live ++ u8 255 ++ u8 255 ++ u16 0 ++ u8 0
  | .retryGood n step p => u8 o.sector ++ u8 1 ++ u8 n ++ u8 255 ++ u8 step ++ u16 p ++ u8 0
  | .voted n m step p => u8 o.sector ++ u8 2 ++ u8 n ++ u8 m ++ u8 step ++ u16 p ++ u8 0
  | .failed n r => u8 o.sector ++ u8 3 ++ u8 n ++ u8 255 ++ u8 255 ++ u16 0 ++ u8 (reasonByte r)

/-- A tally as LIST_JOBS reports it. -/
def tallyBytes (t : Tally) : List Byte :=
  u8 t.sector ++ u8 t.captured ++ u8 t.badHeaders ++ u8 (lastVoteByte t.lastVote)

/-- An overlay record. -/
def overlayBytes (e : OverlayEntry) : List Byte :=
  sectorBytes e.addr ++ u8 e.writes

end Sys2Proof.Machine
end

