-- ==== Sys2Proof/Machine/Ops.lean ====
section
/-! DEFINITION. The named operations over State that every block uses: one update for each block, expiries and
elapsed time (R1), and the lookups of the keyed collections. -/

namespace Sys2Proof.Machine

/-! ### One update for each block -/

/-- Change the `clock` part of the state. -/
def State.updClock (s : State) (f : Clock → Clock) : State :=
  { s with clock := f s.clock }

/-- Change the `pins` part of the state. -/
def State.updPins (s : State) (f : Pins → Pins) : State :=
  { s with pins := f s.pins }

/-- Change the `geom` part of the state. -/
def State.updGeom (s : State) (f : Geometry → Geometry) : State :=
  { s with geom := f s.geom }

/-- Change the `ixm` part of the state. -/
def State.updIxm (s : State) (f : Ixm → Ixm) : State :=
  { s with ixm := f s.ixm }

/-- Change the `dsq` part of the state. -/
def State.updDsq (s : State) (f : Dsq → Dsq) : State :=
  { s with dsq := f s.dsq }

/-- Change the `rdc` part of the state. -/
def State.updRdc (s : State) (f : Rdc → Rdc) : State :=
  { s with rdc := f s.rdc }

/-- Change the `cps` part of the state. -/
def State.updCps (s : State) (f : Cps → Cps) : State :=
  { s with cps := f s.cps }

/-- Change the `vte` part of the state. -/
def State.updVte (s : State) (f : Vte → Vte) : State :=
  { s with vte := f s.vte }

/-- Change the `jbq` part of the state. -/
def State.updJbq (s : State) (f : Jbq → Jbq) : State :=
  { s with jbq := f s.jbq }

/-- Change the `tks` part of the state. -/
def State.updTks (s : State) (f : Tks → Tks) : State :=
  { s with tks := f s.tks }

/-- Change the `rct` part of the state. -/
def State.updRct (s : State) (f : Rct → Rct) : State :=
  { s with rct := f s.rct }

/-- Change the `mcp` part of the state. -/
def State.updMcp (s : State) (f : Mcp → Mcp) : State :=
  { s with mcp := f s.mcp }

/-- Change the `ovl` part of the state. -/
def State.updOvl (s : State) (f : Ovl → Ovl) : State :=
  { s with ovl := f s.ovl }

/-- Change the `stl` part of the state. -/
def State.updStl (s : State) (f : Stl → Stl) : State :=
  { s with stl := f s.stl }

/-- Change the `evq` part of the state. -/
def State.updEvq (s : State) (f : Evq → Evq) : State :=
  { s with evq := f s.evq }

/-! ### Elapsed time and expiries (R1) -/

/-- The time from `start` to `now`, modulo 2^32 (R1). -/
def elapsed (now start : Timer) : Nat :=
  (now - start).toNat

/-- Whether the expiry has fallen by `now` (R1). -/
def Expiry.due (e : Expiry) (now : Timer) : Bool :=
  decide (e.length ≤ elapsed now e.start)

/-- Whether an expiry is pending and has fallen by `now`. -/
def dueAt (e : Option Expiry) (now : Timer) : Bool :=
  match e with
  | some x => x.due now
  | none => false

/-- An expiry `length` ms from this moment on the uptime counter. -/
def uptimeExpiry (s : State) (length : Nat) : Expiry :=
  ⟨s.clock.uptime, length⟩

/-- One microsecond passes: the rotation timer counts it, and the uptime counter counts each thousandth (R1;
log entry 1). -/
def advanceClock (c : Clock) : Clock :=
  if c.subMs + 1 < Config.microsPerMilli then ⟨c.rotationTimer + 1, c.uptime, c.subMs + 1⟩
  else ⟨c.rotationTimer + 1, c.uptime + 1, 0⟩

/-! ### Saturating counts -/

/-- One more, saturating at `top`. -/
def bump (top n : Nat) : Nat :=
  min top (n + 1)

/-! ### Lookups of the keyed collections -/

/-- The job on a track (R93: at most one). -/
def jobOf (t : Track) (s : State) : Option Job :=
  s.jbq.jobs.find? fun j => j.track == t

/-- The frame of a track (R113: at most one). -/
def frameOf (t : Track) (s : State) : Option Frame :=
  s.tks.frames.find? fun f => f.track == t

/-- The entry of a track (R130: at most one). -/
def entryOf (t : Track) (s : State) : Option Entry :=
  s.rct.entries.find? fun e => e.track == t

/-- The overlay entry of a sector address (R163: at most one). -/
def overlayOf (a : SectorAddr) (s : State) : Option OverlayEntry :=
  s.ovl.entries.find? fun e => e.addr == a

/-- The copy list of a sector address, if it has copies held (R61). -/
def copyListOf (a : SectorAddr) (c : Cps) : Option CopyList :=
  c.lists.find? fun l => l.addr == a

/-- The copies held of a sector (R61). -/
def copiesOf (a : SectorAddr) (c : Cps) : List SealedCopy :=
  ((copyListOf a c).map CopyList.copies).getD []

/-- The number of copies a sector holds (R61, R131). -/
def copyCount (s : State) (t : Track) (sector : Nat) : Nat :=
  (copiesOf ⟨t, sector⟩ s.cps).length

/-- Change the job on a track. -/
def updJob (t : Track) (f : Job → Job) (s : State) : State :=
  s.updJbq fun q => { q with jobs := q.jobs.map fun j => if j.track = t then f j else j }

/-- Change the frame of a track. -/
def updFrame (t : Track) (f : Frame → Frame) (s : State) : State :=
  s.updTks fun k => { k with frames := k.frames.map fun x => if x.track = t then f x else x }

/-- Change the entry of a track. -/
def updEntry (t : Track) (f : Entry → Entry) (s : State) : State :=
  s.updRct fun r => { r with entries := r.entries.map fun e => if e.track = t then f e else e }

/-- Change the record of one sector of a frame. -/
def Frame.updSector (i : Nat) (f : SectorRec → SectorRec) (x : Frame) : Frame :=
  { x with sectors := x.sectors.modify i f }

/-- Change the outcome of one sector in an outcome list. -/
def setOutcome (i : Nat) (r : OutcomeResult) (os : List OutcomeRec) : List OutcomeRec :=
  os.map fun o => if o.sector = i then ⟨i, r⟩ else o

/-- The open set of a job (R92). -/
def Job.openSet (j : Job) : List Nat :=
  j.tallies.map Tally.sector

end Sys2Proof.Machine
end

