-- ==== Sys2Proof/Machine/Flags.lean ====
section
/-! DEFINITION. What is read off the state and held nowhere: the rotation's derived values, the spindle state,
the port's readiness and hold reasons, pins of frames, the link status byte, and the lines driven on the two
cables (R4, R12, R20, R21, R122, R145, R146, R155, R170, R199). -/

namespace Sys2Proof.Machine

/-! ### Rotation -/

/-- The tolerance T (R4). -/
def RotationSettings.slack (r : RotationSettings) : Nat :=
  r.pNom * r.tol / 1000

/-- The startup and resync limit (R4). -/
def RotationSettings.longLimit (r : RotationSettings) : Nat :=
  (r.startup + 1) * r.pNom

/-- The spindle state (R12). -/
def spindleOf (x : Ixm) : Spindle :=
  match x.window with
  | .idle => .stopped
  | .startup => .starting
  | _ => if x.latched then .unstable else .running

/-- Whether the spindle is STOPPED or STARTING (R23). -/
def spindleDown (x : Ixm) : Bool :=
  match spindleOf x with
  | .stopped | .starting => true
  | _ => false

/-! ### Frames -/

/-- A sector that is EMPTY or OPEN. -/
def SectorRec.unresolved : SectorRec → Bool
  | .empty | .opened _ _ => true
  | _ => false

/-- A sector that is GOOD. -/
def SectorRec.isGood : SectorRec → Bool
  | .good _ => true
  | _ => false

/-- A sector that is EMPTY. -/
def SectorRec.isEmpty : SectorRec → Bool
  | .empty => true
  | _ => false

/-- A sector that is RECOVERED. -/
def SectorRec.isRecovered : SectorRec → Bool
  | .recovered _ => true
  | _ => false

/-- A sector that is FAILED. -/
def SectorRec.isFailed : SectorRec → Bool
  | .failed _ => true
  | _ => false

/-- The sector numbers of a frame whose record satisfies `p`, ascending. -/
def sectorsWhere (p : SectorRec → Bool) (f : Frame) : List Nat :=
  (List.range f.sectors.length).filter fun i => (f.sectors[i]?).any p

/-- A frame none of whose sectors is EMPTY or OPEN (R152). -/
def Frame.fullyResolved (f : Frame) : Bool :=
  f.sectors.all fun r => !r.unresolved

/-- A frame all of whose sectors are EMPTY (R108, R115). -/
def Frame.allEmpty (f : Frame) : Bool :=
  f.sectors.all SectorRec.isEmpty

/-- The current-track pin (R122). -/
def currentPin (s : State) (f : Frame) : Bool :=
  f.track == s.mcp.track

/-- The job pin: a job that owns the frame exists for its track (R122). -/
def jobPin (s : State) (f : Frame) : Bool :=
  (jobOf f.track s).any Job.holdsFrame

/-- The export pin (R122). -/
def exportPin (s : State) (f : Frame) : Bool :=
  s.tks.exportHold && f.exportPending

/-- A frame that no pin holds (R122). -/
def unpinned (s : State) (f : Frame) : Bool :=
  !(currentPin s f || jobPin s f || exportPin s f)

/-- The frames held by STATION-origin jobs (R93, R125). -/
def stationFramesHeld (s : State) : Nat :=
  s.jbq.jobs.countP fun j => j.origin == .station && j.holdsFrame

/-! ### The Machine Port -/

/-- The port's readiness condition (R146). -/
def readyToServe (s : State) : Bool :=
  !spindleDown s.ixm && s.dsq.state != .fenced

/-- A track that lies in the geometry (R149). -/
def inGeometry (s : State) (t : Track) : Bool :=
  decide (t.cyl < s.geom.cylinders) && decide (t.head < s.geom.heads)

/-- Whether the frame of the current track is fully resolved (R152, R153). -/
def currentResolved (s : State) : Bool :=
  (frameOf s.mcp.track s).any Frame.fullyResolved

/-- A fetch of the track is in flight (R155). -/
def fetchInFlight (s : State) (t : Track) : Bool :=
  s.dsq.grant.any fun g => g.track == t && g.kind != .jobPass

/-- A fill of the track is in flight: a job's grant, as R103 has it, and not a fetch that will serve as the fill of a
frameless job (R97); DEDUCED, log entry 52. -/
def fillInFlight (s : State) (t : Track) : Bool :=
  s.dsq.grant.any fun g => g.track == t && g.kind == .jobPass && g.fill

/-- Hold reason FETCH (R155). -/
def holdFetch (s : State) : Bool :=
  (frameOf s.mcp.track s).isNone || fetchInFlight s s.mcp.track || fillInFlight s s.mcp.track

/-- Hold reason RECOVERY (R155), also while a fetch that will serve the job's fill is in flight (log entry 52). -/
def holdRecovery (s : State) : Bool :=
  (jobOf s.mcp.track s).any (fun j => !j.tallies.isEmpty) && !fillInFlight s s.mcp.track

/-- The hold reasons as a bit set, empty outside SEEKING (R155, R208); its other bits are 0 (log entry 53). -/
def holdReasons (s : State) : Nat :=
  match s.mcp.state with
  | .seeking =>
    flagBit (holdFetch s) 0 + flagBit (holdRecovery s) 1 + flagBit (decide (spindleOf s.ixm = .unstable)) 2 +
      flagBit (decide (s.dsq.state = .resting)) 3
  | _ => 0

/-! ### The link status byte (R170, R207) -/

/-- The highest class among the records queued, or none (R199). -/
def attnClass (e : Evq) : Option Nat :=
  match e.records with
  | [] => none
  | rs => some (rs.foldl (fun m r => max m (eventClass r.kind)) 0)

/-- BUSY: a frame is under receipt or in progress (R170). -/
def linkBusy (l : Stl) : Bool :=
  l.receipt.isSome || l.request.isSome

/-- The link status byte (R170, R207). -/
def statusByteOf (s : State) : Byte :=
  BitVec.ofNat 8
    (flagBit s.stl.response.isSome 7 + flagBit (linkBusy s.stl) 6 + flagBit s.stl.collision 5 +
      flagBit s.evq.overrun 4 + flagBit s.dsq.fence.isSome 3 + flagBit (attnClass s.evq).isSome 2 +
      (attnClass s.evq).getD 0)

/-- The byte `n` of the transfer under way, the first being byte 0, as the part shifts it out when it starts now: the
status byte captured, then in a request transfer the status byte afresh, and in a fetch transfer the frame and, after
its last byte, the status byte afresh (R169, R175). Outside a transfer, in one ignored to its end (R178), and before the
first byte has arrived, there is none. -/
def linkOutput (n : Nat) (s : State) : Option Byte :=
  match s.stl.transfer, n with
  | .none, _ | .ignored, _ => none
  | _, 0 => some s.stl.statusByte
  | .started, _ + 1 => none
  | .request, _ + 1 | .discarded, _ + 1 => some (statusByteOf s)
  | .fetch _, n + 1 => some ((s.stl.shifting[n]?).getD (statusByteOf s))

/-! ### Lines on the drive cable (R20, R21) -/

/-- The level of an output line: driven active, driven inactive, or released. -/
inductive Level where
  | active
  | inactive
  | released
deriving DecidableEq, Repr

/-- The direction and level of the offset lines (R20). -/
structure OffsetLines where
  forward : Bool
  reverse : Bool
  level : Nat
deriving DecidableEq, Repr

/-- A head offset as the offset lines present it (R20). -/
def offsetLines (offset : Int) : OffsetLines :=
  ⟨decide (0 < offset), decide (offset < 0), offset.natAbs⟩

/-- What stands on lines that carry a value: the value driven, the inactive level, the relay's, or, where the spec
states no value, none stated (R20; log entry 22). -/
inductive Bus (α : Type) where
  | driven (x : α)
  | inactive
  | released
  | unstated
deriving DecidableEq, Repr

/-- The outputs of the Drive Sequencer: unit select, the cylinder address with its strobe, head select with the offset
lines, restore and write gate (R20, R21). -/
structure DriveOutputs where
  unitSelect : Level
  cylinder : Bus Nat
  headAndOffset : Bus (Nat × OffsetLines)
  restore : Level
  writeGate : Level
deriving DecidableEq, Repr

/-- The level at which the Drive Sequencer drives unit select: active, inactive in FENCED, and released, `none`, in
DETACHED (R20). -/
def selectDriven : DsqState → Option Bool
  | .fenced => some false
  | .detached => none
  | _ => some true

/-- A driven level as an output line carries it. -/
def Level.ofDriven : Option Bool → Level
  | some true => .active
  | some false => .inactive
  | none => .released

/-- The cylinder address is presented, with its strobe, for a seek (R20, R27), and inactive at any other time, of which the
spec says nothing (DESIGN CHOICE, log entry 48). -/
def cylinderLines : Option Nat → Bus Nat
  | some c => .driven c
  | none => .inactive

/-- Head select and the offset lines are held at the real position; while that is unknown, outside a recalibrate, the
spec states no value (R20; log entry 22). -/
def headLines : Option Position → Bus (Nat × OffsetLines)
  | some p => .driven (p.head, offsetLines p.offset)
  | none => .unstated

/-- The outputs the Drive Sequencer drives (R20, R21, R27, R34). Restore is held active for the whole of a recalibrate
(DESIGN CHOICE, log entry 48). -/
def driveOutputs (d : Dsq) : DriveOutputs :=
  let unit := Level.ofDriven (selectDriven d.state)
  match d.state with
  | .fenced => ⟨unit, .inactive, .inactive, .inactive, .inactive⟩
  | .detached => ⟨unit, .released, .released, .released, .released⟩
  | .recalibrating => ⟨unit, .inactive, .driven (0, offsetLines 0), .active, .inactive⟩
  | _ => ⟨unit, cylinderLines d.seekTarget, headLines d.position, .inactive, .inactive⟩

/-- Contention being seen: the level on the unit select line, where another master holds it, differs from the level
driven while detection runs, which is in every state but DETACHED (R20). -/
def contentionNow (s : State) : Bool :=
  match selectDriven s.dsq.state, s.pins.selectHeld with
  | some driven, some held => held != driven
  | _, _ => false

/-! ### Lines on the machine cable (R145) -/

/-- What stands on the index and sector lines: no pulses, the emulated rotation's, or the relay's (R145, R150). -/
inductive PulseLines where
  | none
  | emulated
  | released
deriving DecidableEq, Repr

/-- What stands on the read data line: nothing, the answer to the READ under way, or the relay's (R145, R160). -/
inductive ReadLine where
  | none
  | answer (a : ReadAnswer)
  | released
deriving DecidableEq, Repr

/-- The port's outputs toward the controller (R145). -/
structure PortOutputs where
  ready : Level
  onCylinder : Level
  seekError : Level
  fault : Level
  pulses : PulseLines
  readData : ReadLine
deriving DecidableEq, Repr

/-- What the READ under way sends (R151, R160). A READ that is answered with no address mark sends nothing. -/
def sentAnswer : Activity → ReadLine
  | .reading (some a) => .answer a
  | _ => .none

/-- The port's outputs by its state and the unit select line (R145). -/
def portOutputs (s : State) : PortOutputs :=
  match s.mcp.state with
  | .detached => ⟨.released, .released, .released, .released, .released, .released⟩
  | st =>
    if s.pins.unitSelect then
      match st with
      | .seeking => ⟨.active, .inactive, .inactive, .inactive, .none, .none⟩
      | .ready => ⟨.active, .active, .inactive, .inactive, .emulated, sentAnswer s.mcp.activity⟩
      | .seekError => ⟨.active, .inactive, .active, .inactive, .none, .none⟩
      | .fault => ⟨.active, .active, .inactive, .active, .none, .none⟩
      | _ => ⟨.inactive, .inactive, .inactive, .inactive, .none, .none⟩
    else ⟨.inactive, .inactive, .inactive, .inactive, .none, .none⟩

end Sys2Proof.Machine
end

