-- ==== Sys2Proof/Machine/Events.lean ====
section
/-! DEFINITION. The Event Queue: offering events, the attention line and its pulses, latching the snapshot
(spec/10), and the meanings of ATTENTION_PULSE_END and ATTENTION_GAP_END. -/

namespace Sys2Proof.Machine

/-- The pulse of a record queued in PULSE mode (R200). During a gap, and at the very moment the pulse in progress
began, the record's pulse is owed, so that each record gives a distinct pulse (log entry 18). -/
def pulseForRecord (now : Timer) : Pulse → Pulse
  | .none => .high now 0
  | .high since owed => if since = now then .high since (owed + 1) else .gap now owed
  | .gap since owed => .gap since (owed + 1)

/-- Whether the attention line is active in PULSE mode (R200). -/
def Pulse.active : Pulse → Bool
  | .high _ _ => true
  | _ => false

/-- The attention line's part in a record being queued (R200). -/
def attentionForRecord (pulseMode : Bool) (now : Timer) (e : Evq) : Evq :=
  if pulseMode then
    { e with pulse := pulseForRecord now e.pulse, line := (pulseForRecord now e.pulse).active }
  else { e with line := true }

/-- An event is offered: it takes the counter's value as its sequence; it is queued while fewer than 32 records
are held, and discarded with OVERRUN otherwise (R195, R197). -/
def enqueue (k : EventKind) (t : Option Track) (detail : Nat) (pulseMode : Bool) (now : Timer) (e : Evq) : Evq :=
  if e.records.length < Config.eventRecords then
    attentionForRecord pulseMode now
      { e with records := e.records ++ [⟨e.counter, k, t, detail⟩], counter := e.counter + 1 }
  else { e with counter := e.counter + 1, overrun := true }

/-- A block offers an event (R195). -/
def offer (k : EventKind) (t : Option Track) (detail : Nat) (s : State) : State :=
  s.updEvq (enqueue k t detail s.mcp.attnPulse s.clock.rotationTimer)

/-- The snapshot latch takes a record when it is free (R201). -/
def latchSnapshot (x : Snapshot) (e : Evq) : Evq :=
  if e.snapshot.isSome then e else { e with snapshot := some x }

/-- A block offers DRIVE_FENCED or SPINDLE_UNSTABLE, which latches the snapshot (R201, R202). -/
def offerLatching (k : EventKind) (detail : Nat) (x : Snapshot) (s : State) : State :=
  (offer k none detail s).updEvq (latchSnapshot { x with seqNo := s.evq.counter })

/-- The job track and step of the snapshot: the grant's, when the drive is granted to a job pass (R202). -/
def grantedJob (d : Dsq) : Option (Track × Nat) :=
  match d.grant with
  | some g => if g.kind = .jobPass then some (g.track, g.step) else none
  | none => none

/-- The position last known: the position as it stands, or, while it is unknown, as it was last established; unknown only
where none has been since power-on (R38, R202; DEDUCED, log entry 44). -/
def lastKnown (d : Dsq) : Option Position :=
  d.position.or d.lastPosition

/-- A snapshot of the state as it stands, with the position its cause reports (R202); its sequence is filled in when the
event is offered. -/
def snapshotOf (cause : SnapCause) (position : Option Position) (s : State) : Snapshot :=
  ⟨cause, 0, s.clock.uptime, s.dsq.state, position, grantedJob s.dsq, s.ixm.average, s.ixm.violations,
    s.dsq.faults, s.rdc.lastDeviation⟩

/-- The attention mode is stored (R200). A change to LEVEL ends a pulse and drives the queue's level; a change
to PULSE leaves the line inactive until the next record. -/
def setAttentionMode (old new : Bool) (e : Evq) : Evq :=
  if old = new then e
  else if new then { e with line := false, pulse := .none }
  else { e with line := !e.records.isEmpty, pulse := .none }

/-- The oldest `n` records are removed; OVERRUN is cleared; in LEVEL mode the line follows the queue
(R198, R200). -/
def drainEvents (n : Nat) (pulseMode : Bool) (e : Evq) : Evq :=
  { e with
    records := e.records.drop n
    overrun := false
    line := if pulseMode then e.line else !(e.records.drop n).isEmpty }

/-- A pulse ends: a pulse still owed follows after the gap (R200). -/
def endPulse (now : Timer) (e : Evq) : Evq :=
  match e.pulse with
  | .high _ 0 => { e with line := false, pulse := .none }
  | .high _ (owed + 1) => { e with line := false, pulse := .gap now owed }
  | _ => e

/-- A gap ends: the next pulse is driven (R200). -/
def endGap (now : Timer) (e : Evq) : Evq :=
  match e.pulse with
  | .gap _ owed => { e with line := true, pulse := .high now owed }
  | _ => e

/-- Whether a pulse's 20 µs have passed (R200). -/
def pulseDue (now : Timer) (e : Evq) : Bool :=
  match e.pulse with
  | .high since _ => decide (Config.pulseWidth ≤ elapsed now since)
  | _ => false

/-- Whether a gap's 2 µs have passed (R200). -/
def gapDue (now : Timer) (e : Evq) : Bool :=
  match e.pulse with
  | .gap since _ => decide (Config.pulseGap ≤ elapsed now since)
  | _ => false

/-- ATTENTION_PULSE_END (R200). -/
def execAttentionPulseEnd (s : State) : Host.Outcome State Fault Refusal :=
  .next (if pulseDue s.clock.rotationTimer s.evq then s.updEvq (endPulse s.clock.rotationTimer) else s)

/-- ATTENTION_GAP_END (R200). -/
def execAttentionGapEnd (s : State) : Host.Outcome State Fault Refusal :=
  .next (if gapDue s.clock.rotationTimer s.evq then s.updEvq (endGap s.clock.rotationTimer) else s)

end Sys2Proof.Machine
end

