-- ==== Sys2Proof/Machine/Recovery.lean ====
section
/-! DEFINITION. The Recovery Table: entries created, reopened, recorded and closed, and the statistics peaks
(spec/07). -/

namespace Sys2Proof.Machine

/-! ### Peaks (R141) -/

/-- A job's total passes reaches the peak. -/
def reportPasses (n : Nat) (s : State) : State :=
  s.updRct fun r => { r with peakPasses := max r.peakPasses n }

/-- An accepted margin reaches the peak of the least. -/
def reportMargin (m : Nat) (s : State) : State :=
  s.updRct fun r => { r with peakMargin := some (match r.peakMargin with | some p => min p m | none => m) }

/-- The deviation of a copy that entered a slot reaches the peak (R68). -/
def reportDeviation (d : Nat) (s : State) : State :=
  s.updRct fun r => { r with peakDeviation := max r.peakDeviation (min 65535 d) }

/-- The violation count after a bad event reaches the peak (R10). -/
def reportViolations (n : Nat) (s : State) : State :=
  s.updRct fun r => { r with peakViolations := max r.peakViolations n }

/-- The peaks return to their cleared values (R142). -/
def clearPeaks (r : Rct) : Rct :=
  { r with peakPasses := 0, peakMargin := none, peakDeviation := 0, peakViolations := 0 }

/-! ### Creating an entry (R132 to R134) -/

/-- A closed entry that the station has exported (R134). -/
def Entry.removable (e : Entry) : Bool :=
  e.exported && e.state != .opened

/-- The entries with room for one more: as they stand while fewer than 512, or without the removable entry of
lowest sequence; none when there is no such entry, or the sequence counter is spent (R132, R134). -/
def entriesWithRoom (r : Rct) : Option (List Entry) :=
  if Config.lastSequence < r.nextSequence then none
  else if r.entries.length < Config.tableEntries then some r.entries
  else if r.entries.any Entry.removable then some (r.entries.eraseP Entry.removable)
  else none

/-- A new entry is needed: it takes the next sequence and joins the end, or TABLE_FULL is queued (R133, R134). -/
def createEntry (t : Track) (origin : Origin) (state : EntryState) (passes : Nat) (starved : Bool)
    (outcomes : List OutcomeRec) (s : State) : State :=
  match entriesWithRoom s.rct with
  | some es =>
    s.updRct fun r =>
      { r with
        entries := es ++ [⟨r.nextSequence, t, state, origin, 1, passes, none, false, false, starved, outcomes⟩]
        nextSequence := r.nextSequence + 1 }
  | none => offer .tableFull (some t) outcomes.length s

/-- A PENDING outcome for each sector listed. -/
def pendingOutcomes (sectors : List Nat) : List OutcomeRec :=
  sectors.map fun i => ⟨i, .pending⟩

/-- A FAILED outcome with reason QUEUE_FULL for each sector listed, its n fixed at the copies held (R133). -/
def queueFullOutcomes (held : Nat → Nat) (sectors : List Nat) : List OutcomeRec :=
  sectors.map fun i => ⟨i, .failed (held i) .queueFull⟩

/-! ### Reopening an entry (R135) -/

/-- The part of a reopening that every way shares. -/
def Entry.reopen (origin : Origin) (e : Entry) : Entry :=
  { e with state := .opened, runs := bump 255 e.runs, exported := false, origin := origin }

/-- Each FAILED outcome becomes PENDING (R135). -/
def reviveFailed (os : List OutcomeRec) : List OutcomeRec :=
  os.map fun o => if o.result.isFailed then ⟨o.sector, .pending⟩ else o

/-- A PENDING outcome is put in its place by sector order (R135). -/
def insertPending (i : Nat) : List OutcomeRec → List OutcomeRec
  | [] => [⟨i, .pending⟩]
  | o :: os => if i < o.sector then ⟨i, .pending⟩ :: o :: os else if i = o.sector then o :: os
    else o :: insertPending i os

/-- A STATION job over a kept frame reopens the entry: FAILED outcomes become PENDING, and FAILED sectors of
the frame without an outcome gain one (R135). -/
def reopenKept (failed : List Nat) (e : Entry) : Entry :=
  { e.reopen .station with outcomes := failed.foldl (fun os i => insertPending i os) (reviveFailed e.outcomes) }

/-- A STATION job without a frame reopens the entry (R135). -/
def reopenFrameless (e : Entry) : Entry :=
  { e.reopen .station with outcomes := reviveFailed e.outcomes }

/-- A fetch's end reopens the entry, rebuilding its list: the fetch's pass counts, and the starved flag is set
with the fetch's starved mark (R135). -/
def reopenFetched (origin : Origin) (starved : Bool) (outcomes : List OutcomeRec) (e : Entry) : Entry :=
  { e.reopen origin with
    passes := bump 65535 e.passes, starved := e.starved || starved, outcomes := outcomes }

/-! ### Recording a run (R136, R137) -/

/-- A counted pass (R137). -/
def Entry.countPass (e : Entry) : Entry :=
  if e.state = .opened then { e with passes := bump 65535 e.passes } else e

/-- A resolution is recorded: the outcome, the success step, and the exported flag cleared (R137, R140). -/
def Entry.resolve (i : Nat) (r : OutcomeResult) (step : Nat) (e : Entry) : Entry :=
  if e.state = .opened then
    { e with outcomes := setOutcome i r e.outcomes, successStep := some step, exported := false }
  else e

/-- The STARVED flag of the job is set (R137). -/
def Entry.setStarved (e : Entry) : Entry :=
  if e.state = .opened then { e with starved := true } else e

/-- The job's origin has changed (R137). -/
def Entry.setOrigin (o : Origin) (e : Entry) : Entry :=
  if e.state = .opened then { e with origin := o } else e

/-- A refill that left sectors not GOOD: the list is rebuilt (R136). -/
def Entry.refillOpen (sectors : List Nat) (e : Entry) : Entry :=
  { e with outcomes := pendingOutcomes sectors }

/-- A refill that left every sector GOOD: each PENDING outcome becomes RETRY_GOOD, and the success step becomes
0 (R136). A RETRY_GOOD outcome so recorded clears the exported flag (R140; log entry 15). -/
def Entry.refillGood (e : Entry) : Entry :=
  { e with
    outcomes := e.outcomes.map fun o => if o.result.isPending then ⟨o.sector, .retryGood 0 0 1⟩ else o
    successStep := some 0
    exported := e.exported && !e.outcomes.any fun o => o.result.isPending }

/-! ### Closing an entry (R138) -/

/-- The outcomes of an entry whose job ends: those that fall with it are FAILED with their reason, n fixed at the copies
held before the ending event. -/
def failOpen (falls : OutcomeRec → Bool) (reason : Nat → FailReason) (held : Nat → Nat) (os : List OutcomeRec) :
    List OutcomeRec :=
  os.map fun o => if falls o then ⟨o.sector, .failed (held o.sector) (reason o.sector)⟩ else o

/-- The entry as its job's end leaves it (R138). -/
def Entry.close (falls : OutcomeRec → Bool) (reason : Nat → FailReason) (held : Nat → Nat) (forcePartial : Bool)
    (e : Entry) : Entry :=
  let os := failOpen falls reason held e.outcomes
  { e with
    outcomes := os
    state := if forcePartial || os.any (fun o => o.result.isFailed) then .incomplete else .recovered }

/-- The event of a closing (R138). -/
def closingEvent (e : Entry) (s : State) : State :=
  match e.state with
  | .recovered => offer .trackRecovered (some e.track) e.outcomes.length s
  | _ => offer .trackPartial (some e.track) (countOutcomes OutcomeResult.isFailed e) s

/-- The job of an OPEN entry ends: the entry closes, and the closing is queued unless `quiet` (R138, R112). A
track without an OPEN entry closes none (R108). -/
def closeEntry (t : Track) (falls : OutcomeRec → Bool) (reason : Nat → FailReason) (held : Nat → Nat)
    (forcePartial quiet : Bool) (s : State) : State :=
  match entryOf t s with
  | some e =>
    if e.state = .opened then
      let s' := updEntry t (Entry.close falls reason held forcePartial) s
      if quiet then s' else closingEvent (e.close falls reason held forcePartial) s'
    else s
  | none => s

end Sys2Proof.Machine
end

