-- ==== Sys2Proof/Machine/Capture.lean ====
section
/-! DEFINITION. The Capture Store: storing, replacing, freeing and trimming copies (R61 to R69). -/

namespace Sys2Proof.Machine

/-- The slots in use: the copies of all lists together (R61). -/
def slotsInUse (c : Cps) : Nat :=
  (c.lists.map fun l => l.copies.length).sum

/-- The lesser weight of the copies held, the earliest among equals, is what a removal takes: the copies without
it (R64, R67). -/
def dropLightest (cs : List SealedCopy) : List SealedCopy :=
  match (cs.map SealedCopy.weight).min? with
  | some w => cs.eraseP fun c => c.weight == w
  | none => cs

/-- Whether a new copy is strictly heavier than the lightest held (R64). -/
def heavierThanLightest (c : SealedCopy) (cs : List SealedCopy) : Bool :=
  match (cs.map SealedCopy.weight).min? with
  | some w => decide (w < c.weight)
  | none => false

/-- The lists with a sector's list replaced. -/
def setCopies (a : SectorAddr) (f : CopyList → CopyList) (c : Cps) : Cps :=
  ⟨c.lists.map fun l => if l.addr = a then f l else l⟩

/-- A copy joins the end of its sector's list, created if there was none, and sets the fresh mark (R62, R63). -/
def appendCopy (x : SealedCopy) (c : Cps) : Cps :=
  if (copyListOf x.addr c).isSome then
    setCopies x.addr (fun l => { l with copies := l.copies ++ [x], fresh := true }) c
  else ⟨c.lists ++ [⟨x.addr, [x], true⟩]⟩

/-- A copy takes the slot of the lightest copy held and joins the end of the list (R64). -/
def replaceLightest (x : SealedCopy) (c : Cps) : Cps :=
  setCopies x.addr (fun l => { l with copies := dropLightest l.copies ++ [x], fresh := true }) c

/-- What becomes of a check-bad copy offered (R62 to R64). -/
inductive Placing where
  | stored
  | replaced
  | noSlot
  | tooLight
deriving DecidableEq, Repr

/-- How a check-bad copy offered is placed (R63, R64). -/
def placingOf (limit : Nat) (x : SealedCopy) (c : Cps) : Placing :=
  if (copiesOf x.addr c).length < limit then
    if slotsInUse c < Config.captureSlots then .stored else .noSlot
  else if heavierThanLightest x (copiesOf x.addr c) then .replaced
  else .tooLight

/-- The Capture Store after a check-bad copy is placed (R63, R64). -/
def placeCopy (limit : Nat) (x : SealedCopy) (c : Cps) : Cps :=
  match placingOf limit x c with
  | .stored => appendCopy x c
  | .replaced => replaceLightest x c
  | _ => c

/-- All copies of a sector are freed, with its list and mark (R65). -/
def freeSector (a : SectorAddr) (c : Cps) : Cps :=
  ⟨c.lists.filter fun l => l.addr != a⟩

/-- All copies of a track are freed, with their lists and marks (R66). -/
def freeTrack (t : Track) (c : Cps) : Cps :=
  ⟨c.lists.filter fun l => l.addr.track != t⟩

/-- A list trimmed `n` times (R67). -/
def trimBy : Nat → List SealedCopy → List SealedCopy
  | 0, cs => cs
  | n + 1, cs => trimBy n (dropLightest cs)

/-- Every list trimmed to the copy limit; fresh marks are unchanged (R67). -/
def trimLists (limit : Nat) (c : Cps) : Cps :=
  ⟨c.lists.map fun l => { l with copies := trimBy (l.copies.length - limit) l.copies }⟩

/-- The fresh mark of a sector (R61). -/
def isFresh (a : SectorAddr) (c : Cps) : Bool :=
  (copyListOf a c).any CopyList.fresh

/-- A WEAK or FAILED_CHECK delivery clears the fresh mark (R80). -/
def clearFresh (a : SectorAddr) (c : Cps) : Cps :=
  setCopies a (fun l => { l with fresh := false }) c

end Sys2Proof.Machine
end

