-- ==== Sys2Proof/Machine/Jobs.lean ====
section
/-! DEFINITION. The Job Queue: job ends, progress through the ladder, and what the end of a fetch or of a fill
makes of the queue, the frame and the Recovery Table (spec/05, R115, R119, R133, R135, R136). -/

namespace Sys2Proof.Machine

/-! ### Tallies (R92, R96, R104) -/

/-- The tallies with the one of a sector changed. -/
def updTally (i : Nat) (f : Tally → Tally) (ts : List Tally) : List Tally :=
  ts.map fun t => if t.sector = i then f t else t

/-- One copy captured is counted, saturating at 255 (R58, R104). -/
def Tally.countCopy (t : Tally) : Tally :=
  { t with captured := bump 255 t.captured }

/-- One bad header is counted, saturating at 255 (R51, R104). -/
def Tally.countBadHeader (t : Tally) : Tally :=
  { t with badHeaders := bump 255 t.badHeaders }

/-- Zero tallies for each sector listed. -/
def zeroTallies (sectors : List Nat) : List Tally :=
  sectors.map fun i => ⟨i, 0, 0, none⟩

/-- The tally a fetch kept for a sector (R96). -/
def fetchTally (ft : FetchTallies) (i : Nat) : Tally :=
  (ft.tallies.find? fun t => t.sector == i).getD ⟨i, 0, 0, none⟩

/-- A sector leaves the open set with its tallies (R92). -/
def Job.close (i : Nat) (j : Job) : Job :=
  { j with tallies := j.tallies.filter fun t => t.sector != i }

/-- The reason of a sector left open at the end of a last walk (R107). -/
def walkReason (t : Tally) : FailReason :=
  match t.lastVote with
  | some .weak => .weak
  | some .failedCheck => .check
  | none => if t.captured = 0 then .noHeader else .fewCopies

/-- Why a job ends: its last walk is spent or its open set empty, or another cause that gives every sector one
reason (R107, R109, R110, R112). -/
inductive JobEnd where
  | walk
  | cause (r : FailReason)
deriving DecidableEq, Repr

/-- The reason a job's end gives a sector (R107, R138). An open sector has a tally, so that at the end of a walk the
reason is always the tally's. -/
def endReason (k : JobEnd) (j : Job) (i : Nat) : FailReason :=
  match k with
  | .cause r => r
  | .walk => ((j.tallies.find? fun t => t.sector == i).map walkReason).getD .cancelled

/-! ### The end of a job (R108) -/

/-- An open sector becomes FAILED, keeping its best copy (R119). -/
def failRecord : SectorRec → SectorRec
  | .empty => .failed none
  | .opened w k => .failed (some (w, k))
  | r => r

/-- The sectors listed become FAILED (R119). -/
def failSectors (sectors : List Nat) (f : Frame) : Frame :=
  sectors.foldl (fun x i => x.updSector i failRecord) f

/-- A frame leaves its slot (R115). -/
def releaseFrame (t : Track) (s : State) : State :=
  s.updTks fun k => { k with frames := k.frames.filter fun f => f.track != t }

/-- A job whose fill is pending and whose frame is all EMPTY: the frame is released at the job's end (R108). -/
def releasesFrame (j : Job) (s : State) : Bool :=
  j.fill && (frameOf j.track s).any Frame.allEmpty

/-- The number of sectors of the job's frame that its end makes FAILED (R109). -/
def failedByEnd (j : Job) (s : State) : Nat :=
  if j.holdsFrame && !releasesFrame j s then
    match frameOf j.track s with
    | some f => j.openSet.countP fun i => (f.sectors[i]?).any SectorRec.unresolved
    | none => 0
  else 0

/-- Step 1 of R108: the frame's part in a job's end. -/
def endFrame (j : Job) (s : State) : State :=
  if j.holdsFrame then
    if releasesFrame j s then releaseFrame j.track s else updFrame j.track (failSectors j.openSet) s
  else s

/-- Step 2 of R108: the copies of the track are freed, by whatever path the job ends (R66). -/
def endCopies (j : Job) (s : State) : State :=
  s.updCps (freeTrack j.track)

/-- The outcomes that the end of a job makes FAILED: those of the sectors still open (R138), and while the fill is pending
the PENDING ones (R109, R136; log entry 14). A PENDING outcome of a sector that is not open stands (DEDUCED, log entry
49). -/
def fallsWith (j : Job) (o : OutcomeRec) : Bool :=
  if j.fill then o.result.isPending else j.openSet.contains o.sector

/-- A job leaves the queue; the others keep their order (R108). -/
def removeJob (t : Track) (s : State) : State :=
  s.updJbq fun q => { q with jobs := q.jobs.filter fun j => j.track != t }

/-- A job ends: the frame, the copies, the entry, the peak, the queue, in that order, as one event (R108). The
copies an outcome's n is fixed at are those held before the event (R138). -/
def endJob (k : JobEnd) (forcePartial quiet : Bool) (j : Job) (s : State) : State :=
  let s1 := endCopies j (endFrame j s)
  let s2 := closeEntry j.track (fallsWith j) (endReason k j) (copyCount s j.track) forcePartial quiet s1
  removeJob j.track (reportPasses j.counter s2)

/-! ### Progress through the ladder (R105, R106) -/

/-- The ladder record of a step; step 0 is the plain read (R88). -/
def ladderStep (q : Jbq) (step : Nat) : LadderStep :=
  if step = 0 then ⟨0, 0, 1⟩ else q.ladder.getD (step - 1) ⟨0, 0, 1⟩

/-- A job enters COOLING at step 1; a cooldown of 0 has fallen at once (R106; log entry 19). -/
def coolJob (e : Expiry) (j : Job) : Job :=
  if e.length = 0 then
    { j with state := .queued, step := 1, done := 0, cycle := j.cycle + 1, cooldown := none }
  else { j with state := .cooling, step := 1, done := 0, cooldown := some e }

/-- A walk ends: the job cools while its cycle is below R, and ends unresolved otherwise (R106). -/
def endWalk (j : Job) (s : State) : State :=
  if j.cycle < s.jbq.repeats then updJob j.track (coolJob (uptimeExpiry s s.jbq.cooldown)) s
  else endJob .walk false false j s

/-- What an advance within the ladder does with a job (R105). -/
inductive Progress where
  | walkEnds
  | stays (step done : Nat)
deriving DecidableEq, Repr

/-- Items 2 and 3 of R105. -/
def progressOf (q : Jbq) (j : Job) : Progress :=
  if j.step = 0 then
    if q.length < j.first then .walkEnds else .stays j.first 0
  else if q.length < j.step then .walkEnds
  else if (ladderStep q j.step).passes ≤ j.done + 1 then
    if j.step = q.length then .walkEnds else .stays (j.step + 1) 0
  else .stays j.step (j.done + 1)

/-- A job with an empty open set ends RECOVERED. A fill that ends so on a track without an entry queues JOB_CLEAN
(R105). -/
def endRecovered (j : Job) (s : State) : State :=
  let s1 := if j.fill && (entryOf j.track s).isNone then offer .jobClean (some j.track) 0 s else s
  endJob .walk false false j s1

/-- A job advances after a counted pass and its batch (R105). -/
def advanceJob (t : Track) (s : State) : State :=
  match jobOf t s with
  | some j =>
    if j.tallies.isEmpty then endRecovered j s
    else
      let j' := if j.step = 0 then { j with fill := false } else j
      match progressOf s.jbq j with
      | .walkEnds => endWalk j' (updJob t (fun _ => j') s)
      | .stays step done => updJob t (fun _ => { j' with state := .queued, step := step, done := done }) s
  | none => s

/-! ### The end of a fill (R133, R136) -/

/-- The Recovery Table takes the end of a job's fill: the list of its entry is rebuilt or kept, or an entry is
created for the sectors left not GOOD (R133, R136). -/
def recordRefill (j : Job) (s : State) : State :=
  match entryOf j.track s with
  | some _ =>
    if j.tallies.isEmpty then updEntry j.track Entry.refillGood s
    else updEntry j.track (Entry.refillOpen j.openSet) s
  | none =>
    if j.tallies.isEmpty then s
    else createEntry j.track j.origin .opened 1 j.starved (pendingOutcomes j.openSet) s

/-- The job on a track takes the end of its pass and batch: a fill's refill first, then the advance (R105, R136). -/
def finishJobPass (t : Track) (s : State) : State :=
  match jobOf t s with
  | some j => advanceJob t (if j.fill then recordRefill j s else s)
  | none => s

/-! ### The end of a fetch (R96 to R98) -/

/-- The origin a fetch's job takes (R96). -/
def fetchOrigin : GrantKind → Origin
  | .demandFetch => .machine
  | _ => .prefetch

/-- The fetch tallies, empty when none are held. -/
def fetchTallies (s : State) : FetchTallies :=
  s.jbq.fetch.getD ⟨[], false⟩

/-- The fetch tallies are discarded (R96). -/
def dropFetchTallies (s : State) : State :=
  s.updJbq fun q => { q with fetch := none }

/-- The job a fetch creates (R96). -/
def fetchedJob (kind : GrantKind) (t : Track) (open_ : List Nat) (ft : FetchTallies) : Job :=
  ⟨t, fetchOrigin kind, .queued, true, open_.map (fetchTally ft), 1, 1, false, 0, 0, 1, none, ft.starved⟩

/-- A job joins the end of the queue (R93). -/
def addJob (j : Job) (s : State) : State :=
  s.updJbq fun q => { q with jobs := q.jobs ++ [j] }

/-- A fetch creates a job, and the Recovery Table creates or reopens the track's entry (R96, R133, R135). -/
def createFetchedJob (kind : GrantKind) (t : Track) (open_ : List Nat) (s : State) : State :=
  let ft := fetchTallies s
  let s1 := addJob (fetchedJob kind t open_ ft) s
  match entryOf t s with
  | some _ => updEntry t (reopenFetched (fetchOrigin kind) ft.starved (pendingOutcomes open_)) s1
  | none => createEntry t (fetchOrigin kind) .opened 1 ft.starved (pendingOutcomes open_) s1

/-- A fetch serves as the fill of the frameless STATION job its track has: the job takes the frame, the tallies
and the starved mark; at the six-frame limit it takes the fetch's origin; the Recovery Table takes the refill's
pass (R97, R136, R137). -/
def serveFill (kind : GrantKind) (t : Track) (open_ : List Nat) (s : State) : State :=
  let ft := fetchTallies s
  let limited := decide (Config.stationFrames ≤ stationFramesHeld s)
  let origin (o : Origin) : Origin := if limited then fetchOrigin kind else o
  let s1 := updJob t (fun j =>
    { j with
      origin := origin j.origin, holdsFrame := true, counter := 1, tallies := open_.map (fetchTally ft)
      starved := j.starved || ft.starved }) s
  let s2 := updEntry t (fun e => ((e.setOrigin (origin e.origin)).countPass)) s1
  let s3 := if ft.starved then updEntry t Entry.setStarved s2 else s2
  finishJobPass t s3

/-- The PREFETCH-origin job latest in queue order that is not ACTIVE (R98). -/
def removablePrefetch (s : State) : Option Job :=
  s.jbq.jobs.reverse.find? fun j => j.origin == .prefetch && j.state != .active

/-- A fetch that can make no job: its sectors FAILED, its entry PARTIAL, QUEUE_FULL queued, its copies freed
(R98, R119, R133, R135). -/
def failFetch (kind : GrantKind) (t : Track) (open_ : List Nat) (s : State) : State :=
  let ft := fetchTallies s
  let os := queueFullOutcomes (copyCount s t) open_
  let s1 := updFrame t (failSectors open_) s
  let s2 := match entryOf t s with
    | some _ =>
      updEntry t (fun e => { reopenFetched (fetchOrigin kind) ft.starved os e with state := .incomplete }) s1
    | none => createEntry t (fetchOrigin kind) .incomplete 1 ft.starved os s1
  (offer .queueFull (some t) open_.length s2).updCps (freeTrack t)

/-- The end of a fetch, counted, cut short or exhausted: the sectors of its frame not GOOD decide (R96 to R98). The
entry of a job removed for room closes PARTIAL, as R98 says, also where an aborted pass has emptied the job's open set
and R138 would close it RECOVERED (DEDUCED, log entry 14). -/
def endFetch (kind : GrantKind) (t : Track) (s : State) : State :=
  let open_ := ((frameOf t s).map (sectorsWhere fun r => !r.isGood)).getD []
  dropFetchTallies <|
    if (jobOf t s).isSome then serveFill kind t open_ s
    else if open_.isEmpty then s.updCps (freeTrack t)
    else if s.jbq.jobs.length < Config.jobSlots then createFetchedJob kind t open_ s
    else
      match removablePrefetch s with
      | some j => createFetchedJob kind t open_ (endJob (.cause .cancelled) true false j s)
      | none => failFetch kind t open_ s

end Sys2Proof.Machine
end

