-- ==== Sys2Proof/Machine/Vote.lean ====
section
/-! DEFINITION. The Vote Engine: forming a batch, the weighted bit vote, delivering the outcomes (spec/04). -/

namespace Sys2Proof.Machine

/-! ### The weighted bit vote (R74 to R78) -/

/-- One vote: a copy's weight and the bit it holds at the position. -/
abbrev BitVote := Nat × Bool

/-- S1, the weights of the copies that hold 1 (R74). -/
def weightOfOnes (vs : List BitVote) : Nat :=
  (vs.map fun v => if v.2 then v.1 else 0).sum

/-- S0, the weights of the copies that hold 0 (R74). -/
def weightOfZeros (vs : List BitVote) : Nat :=
  (vs.map fun v => if v.2 then 0 else v.1).sum

/-- The voted bit; a tie takes the tie copy's bit (R74, R75). -/
def votedBit (vs : List BitVote) (tieBit : Bool) : Bool :=
  if weightOfZeros vs < weightOfOnes vs then true
  else if weightOfOnes vs < weightOfZeros vs then false
  else tieBit

/-- The bit margin |S1 - S0| (R76). -/
def bitMargin (vs : List BitVote) : Nat :=
  max (weightOfOnes vs) (weightOfZeros vs) - min (weightOfOnes vs) (weightOfZeros vs)

/-- The media word at index `i` of a copy: its 256 data words, then its check word (R74). -/
def mediaWord (c : SealedCopy) (i : Nat) : Word :=
  if i < 256 then c.words.data.val.getD i 0 else c.words.check

/-- The votes at bit `b` (most significant first) of word `i`. -/
def votesAt (cs : List SealedCopy) (i b : Nat) : List BitVote :=
  cs.map fun c => (c.weight, (mediaWord c i).getMsbD b)

/-- The tie copy: the heaviest, the earliest in capture order among equals (R75). -/
def tieCopy (cs : List SealedCopy) : Option SealedCopy :=
  match (cs.map SealedCopy.weight).max? with
  | some w => cs.find? fun c => c.weight == w
  | none => none

/-- The tie copy's bit at bit `b` of word `i` (R75). -/
def tieBit (cs : List SealedCopy) (i b : Nat) : Bool :=
  match tieCopy cs with
  | some c => (mediaWord c i).getMsbD b
  | none => false

/-- A word from its bits, most significant first. -/
def wordOfBits (bs : List Bool) : Word :=
  bs.foldl (fun w b => (w <<< 1) ||| (if b then 1 else 0)) 0

/-- The voted word at index `i` (R74, R75). -/
def votedWord (cs : List SealedCopy) (i : Nat) : Word :=
  wordOfBits ((List.range 16).map fun b => votedBit (votesAt cs i b) (tieBit cs i b))

/-- The voted sector: 256 voted data words and the voted check word (R74). -/
def votedWords (cs : List SealedCopy) : SectorWords :=
  ⟨⟨(List.range 256).map (votedWord cs), by simp⟩, votedWord cs 256⟩

/-- The total weight W (R74). -/
def totalWeight (cs : List SealedCopy) : Nat :=
  (cs.map SealedCopy.weight).sum

/-- The least bit margin of word `i`, or `m` if that is less. -/
def leastOfWord (cs : List SealedCopy) (m i : Nat) : Nat :=
  (List.range 16).foldl (fun m b => min m (bitMargin (votesAt cs i b))) m

/-- The sector margin M: the least bit margin over the 4,112 positions (R76). -/
def sectorMargin (cs : List SealedCopy) : Nat :=
  (List.range 257).foldl (leastOfWord cs) (totalWeight cs)

/-- The outcome of a member's vote (R78). -/
inductive VoteOutcome where
  | voted (words : SectorWords) (margin : Nat)
  | weak
  | failedCheck
deriving DecidableEq, Repr

/-- Whether a sector's check word is the check over its data (R49, R77). -/
def SectorWords.checkGood (w : SectorWords) : Bool :=
  check16 w.data.val == w.check

/-- The outcome of a vote over copies, under the minimum margin recorded (R77, R78). -/
def voteOutcome (minMargin : Nat) (cs : List SealedCopy) : VoteOutcome :=
  if (votedWords cs).checkGood then
    if minMargin ≤ sectorMargin cs then .voted (votedWords cs) (sectorMargin cs) else .weak
  else .failedCheck

/-! ### Forming a batch (R71) -/

/-- A sector of the open set that is a member: at least three copies held and its fresh mark set (R71). -/
def isMember (t : Track) (c : Cps) (i : Nat) : Bool :=
  decide (Config.voteCopies ≤ (copiesOf ⟨t, i⟩ c).length) && isFresh ⟨t, i⟩ c

/-- The members of the batch of a job's pass, with the copies then held; a fill's batch has none (R71). -/
def batchMembers (g : Grant) (s : State) : List Member :=
  if g.fill then []
  else
    match jobOf g.track s with
    | some j => (j.openSet.filter (isMember g.track s.cps)).map fun i => ⟨i, copiesOf ⟨g.track, i⟩ s.cps⟩
    | none => []

/-- The batch formed at the end of a job grant's pass (R71). -/
def formBatch (g : Grant) (s : State) : Batch :=
  ⟨g.track, g.passNo, g.step, s.vte.minMargin, batchMembers g s⟩

/-! ### Delivering the outcomes (R79, R80, R118) -/

/-- A VOTED sector becomes RECOVERED in its frame, which is then export-pending (R79, R118, R127). -/
def recoverSector (i : Nat) (w : SectorWords) (f : Frame) : Frame :=
  { f.updSector i (fun _ => .recovered w) with exportPending := true }

/-- A VOTED member is delivered (R79). -/
def deliverVoted (b : Batch) (m : Member) (w : SectorWords) (margin : Nat) (s : State) : State :=
  let s1 := updFrame b.track (recoverSector m.sector w) s
  let s2 := s1.updCps (freeSector ⟨b.track, m.sector⟩)
  let s3 := updEntry b.track
    (Entry.resolve m.sector (.voted m.copies.length margin b.step b.passNo) b.step) s2
  updJob b.track (Job.close m.sector) (reportMargin margin s3)

/-- A WEAK or FAILED_CHECK member is delivered (R80). -/
def deliverOpen (b : Batch) (m : Member) (v : LastVote) (s : State) : State :=
  updJob b.track (fun j => { j with tallies := updTally m.sector (fun t => { t with lastVote := some v }) j.tallies })
    (s.updCps (clearFresh ⟨b.track, m.sector⟩))

/-- An outcome is delivered for its member (R78 to R80). -/
def deliverOutcome (b : Batch) (m : Member) (s : State) : VoteOutcome → State
  | .voted w margin => deliverVoted b m w margin s
  | .weak => deliverOpen b m .weak s
  | .failedCheck => deliverOpen b m .failedCheck s

/-- A member's outcome is delivered (R78). -/
def deliverMember (b : Batch) (s : State) (m : Member) : State :=
  deliverOutcome b m s (voteOutcome b.minMargin m.copies)

/-- The members of a batch are delivered in ascending sector order (R71, R79). -/
def deliverBatch (b : Batch) (s : State) : State :=
  b.members.foldl (deliverMember b) s

end Sys2Proof.Machine
end

