-- ==== Sys2Proof/Machine/Frames.lean ====
section
/-! DEFINITION. The Track Store: claims and their source orders, retiring an image, sealed copies, reopening, and
the use order (spec/06). -/

namespace Sys2Proof.Machine

/-! ### Claim sources (R124 to R126) -/

/-- Where a claim takes its slot from. -/
inductive ClaimFrom where
  /-- a free slot -/
  | free
  /-- the frame of a track, which no job it must end pins -/
  | take (t : Track)
  /-- the frame of a track whose job the claim ends with reason EVICTED -/
  | evict (t : Track)
deriving DecidableEq, Repr

/-- The least recently used frame that satisfies `p`. -/
def lruWhere (p : Frame → Bool) (s : State) : Option Track :=
  (s.tks.frames.find? p).map Frame.track

/-- Sources 1 and 2: a free slot, or the least recently used unpinned frame (R124 to R126). -/
def plainSource (s : State) : Option ClaimFrom :=
  if s.tks.frames.length < Config.frameSlots then some .free
  else (lruWhere (unpinned s) s).map ClaimFrom.take

/-- A frame pinned by a job of the origin that is not ACTIVE (R124). -/
def evictable (s : State) (o : Origin) (f : Frame) : Bool :=
  (jobOf f.track s).any fun j => j.holdsFrame && j.origin == o && j.state != .active

/-- The sources of a demand fetch, in order (R124). -/
def demandSource (s : State) : Option ClaimFrom :=
  (plainSource s).orElse fun _ =>
    ((lruWhere (fun f => exportPin s f && !currentPin s f && !jobPin s f) s).map ClaimFrom.take).orElse fun _ =>
      ((lruWhere (evictable s .prefetch) s).map ClaimFrom.evict).orElse fun _ =>
        (lruWhere (evictable s .machine) s).map ClaimFrom.evict

/-- The sources of a job that holds no frame: none while STATION-origin jobs hold six (R125). -/
def stationSource (s : State) : Option ClaimFrom :=
  if stationFramesHeld s < Config.stationFrames then plainSource s else none

/-! ### Claiming (R114) -/

/-- A frame newly claimed: every sector EMPTY, not export-pending (R114). -/
def freshFrame (sectors : Nat) (t : Track) : Frame :=
  ⟨t, List.replicate sectors .empty, false⟩

/-- An export-pending image is lost: IMAGE_DROPPED is queued and the entry flagged (R114, R139). -/
def dropImage (f : Frame) (s : State) : State :=
  if f.exportPending then
    updEntry f.track (fun e => { e with imageDropped := true })
      (offer .imageDropped (some f.track) (f.sectors.countP SectorRec.isRecovered) s)
  else s

/-- The image of a track is retired: the job first if the source allows it, then IMAGE_DROPPED, then the image
itself (R114). -/
def retire (src : ClaimFrom) (s : State) : State :=
  match src with
  | .free => s
  | .take t =>
    match frameOf t s with
    | some f => releaseFrame t (dropImage f s)
    | none => s
  | .evict t =>
    let s1 := match jobOf t s with
      | some j => endJob (.cause .evicted) false false j s
      | none => s
    match frameOf t s1 with
    | some f => releaseFrame t (dropImage f s1)
    | none => s1

/-- A claim takes the slot for the track; the frame stands at the most recent end of the use order (R114). -/
def claim (src : ClaimFrom) (t : Track) (s : State) : State :=
  (retire src s).updTks fun k => { k with frames := k.frames ++ [freshFrame s.geom.sectors t] }

/-! ### Sealed copies (R116, R117) -/

/-- A check-bad copy at a sector's record: an EMPTY sector opens, and a lighter best copy is replaced (R116). -/
def recordBad (w : SectorWords) (weight : Nat) : SectorRec → SectorRec
  | .empty => .opened w weight
  | .opened w' k => if k < weight then .opened w weight else .opened w' k
  | r => r

/-- A check-good copy at a sector's record: GOOD in a fetch or a fill, RECOVERED otherwise (R117). -/
def recordGood (plain : Bool) (w : SectorWords) : SectorRec → SectorRec
  | .empty => if plain then .good w else .recovered w
  | .opened _ _ => if plain then .good w else .recovered w
  | r => r

/-- A check-good copy at its frame (R117, R127). -/
def Frame.sealGood (plain : Bool) (i : Nat) (w : SectorWords) (f : Frame) : Frame :=
  { f.updSector i (recordGood plain w) with exportPending := f.exportPending || !plain }

/-! ### Reopening (R120) -/

/-- A FAILED sector reopens: OPEN with its data, or EMPTY (R120). -/
def reopenRecord : SectorRec → SectorRec
  | .failed (some (w, k)) => .opened w k
  | .failed none => .empty
  | r => r

/-- A frame's FAILED sectors reopen (R120). -/
def Frame.reopen (f : Frame) : Frame :=
  { f with sectors := f.sectors.map reopenRecord }

/-! ### Use order and export (R123, R127) -/

/-- The frame of a track moves to the most recent end of the use order (R123). -/
def refreshFrame (t : Track) (s : State) : State :=
  s.updTks fun k =>
    { k with
      frames := k.frames.filter (fun f => f.track != t) ++ k.frames.filter (fun f => f.track == t) }

/-- The export-pending flag is cleared (R127). -/
def clearExport (f : Frame) : Frame :=
  { f with exportPending := false }

end Sys2Proof.Machine
end

