-- ==== Sys2Proof/Machine/Drive.lean ====
section
/-! DEFINITION. The Drive Sequencer's shared operations: arbitration and grants, bringing the heads to the track,
the ends of passes and grants, seek faults, fences (spec/02). -/

namespace Sys2Proof.Machine

/-! ### Small steps -/

/-- The sequencer enters a state. -/
def setDsqState (st : DsqState) (s : State) : State :=
  s.updDsq fun d => { d with state := st }

/-- The grant is replaced or ends. -/
def setGrant (g : Option Grant) (s : State) : State :=
  s.updDsq fun d => { d with grant := g }

/-- The pass context ends, and a copy under assembly is discarded (R50, R56). -/
def endPassContext (s : State) : State :=
  s.updRdc fun r => { r with pass := none, assembly := none }

/-- The operation in flight is over: no operation expiry, no seek (R27). -/
def clearOperation (s : State) : State :=
  s.updDsq fun d => { d with expiry := none, seekTarget := none }

/-- The position becomes known, and is the position last known from then on (R22, R38). -/
def Dsq.establish (p : Position) (d : Dsq) : Dsq :=
  { d with position := some p, lastPosition := some p }

/-- The position becomes unknown (R22). -/
def losePosition (s : State) : State :=
  s.updDsq fun d => { d with position := none }

/-- A job returns to QUEUED, keeping its step, passes done and place (R32, R33, R94). -/
def requeueJob (t : Track) (s : State) : State :=
  updJob t (fun j => { j with state := .queued }) s

/-! ### The ends of a grant (R30 to R33, R35) -/

/-- A grant ends while its pass is in flight: the pass is aborted, a fetch is cut short (R32). -/
def abortPass (g : Grant) (s : State) : State :=
  let s1 := setGrant none (endPassContext s)
  if g.kind = .jobPass then requeueJob g.track s1 else endFetch g.kind g.track s1

/-- A grant ends before its pass has begun: a fetch's frame is released (R33). A fetch whose earlier attempt had
begun its pass is cut short instead (R32; log entry 12). -/
def endUnpassed (g : Grant) (s : State) : State :=
  let s1 := setGrant none s
  if g.kind = .jobPass then requeueJob g.track s1
  else if g.begun then endFetch g.kind g.track s1
  else dropFetchTallies (releaseFrame g.track s1)

/-- Whatever the drive is doing is abandoned: the grant ends as its phase calls for, and the operation is over. A
grant whose batch is running stays until the completion (R23, R24, R31 to R33, R38, R40, R42). -/
def abandonWork (s : State) : State :=
  clearOperation <|
    match s.dsq.grant with
    | some g =>
      match g.phase with
      | .approach => endUnpassed g s
      | .inPass => abortPass g s
      | .voting => s
    | none => s

/-- The sequencer leaves a grant behind for IDLE, or for OFFLINE while the spindle is STOPPED or STARTING
(R23, R31). -/
def enterIdle (s : State) : State :=
  setDsqState (if spindleDown s.ixm then .offline else .idle) s

/-- The running batch completes: its outcomes are delivered, the job advances, the grant ends, and a sequencer in
VOTING leaves it (R31, R79, R80). -/
def completeBatch (b : Batch) (s : State) : State :=
  let s1 := (deliverBatch b s).updVte fun v => { v with batch := none }
  let s2 := setGrant none (finishJobPass b.track s1)
  if s2.dsq.state = .voting then enterIdle s2 else s2

/-- A job grant's pass is counted, or treated as counted: the pass is reported, the batch is formed, and a batch
without members completes at once (R30, R31, R35, R71, R95, R137). -/
def countJobPass (g : Grant) (s : State) : State :=
  let s1 := updJob g.track (fun j => { j with counter := bump 65535 j.counter }) s
  let s2 := updEntry g.track Entry.countPass s1
  let b := formBatch g s2
  let s3 := setDsqState .voting (setGrant (some { g with phase := .voting }) s2)
  let s4 := s3.updVte fun v => { v with batch := some b }
  if b.members.isEmpty then completeBatch b s4 else s4

/-- A grant's pass is counted, or treated as counted after exhausted retries (R30, R35). -/
def countPass (g : Grant) (s : State) : State :=
  let s1 := endPassContext s
  if g.kind = .jobPass then countJobPass g s1
  else enterIdle (endFetch g.kind g.track (setGrant none s1))

/-! ### Recalibrates, seeks and settle waits (R27, R28, R34) -/

/-- A recalibrate begins, or OFFLINE is entered while the spindle is STOPPED or STARTING (R34). -/
def beginRecalibrate (s : State) : State :=
  if spindleDown s.ixm then setDsqState .offline (losePosition (clearOperation s))
  else s.updDsq fun d =>
    { d with
      state := .recalibrating, position := none, seekTarget := none
      expiry := some (uptimeExpiry s (10 * d.set.seekTimeout)) }

/-- The settle wait is over, or was 0: READING, to wait for the opening mark; without a grant, or while the spindle
is UNSTABLE, the grant ends without a pass (R24, R28, R33). -/
def endSettle (s : State) : State :=
  match s.dsq.grant with
  | some g =>
    if spindleOf s.ixm = .unstable then enterIdle (endUnpassed g (clearOperation s))
    else setDsqState .reading (clearOperation s)
  | none => enterIdle (clearOperation s)

/-- Head select and the offset lines are driven to the grant's target, and SETTLING is entered; a settle wait of 0
ends as it begins (R22, R27, R28). -/
def beginSettle (g : Grant) (s : State) : State :=
  let s1 := s.updDsq fun d =>
    { d.establish ⟨g.track.cyl, g.track.head, g.offset⟩ with
      state := .settling, seekTarget := none, expiry := some (uptimeExpiry s d.set.settle) }
  if s.dsq.set.settle = 0 then endSettle s1 else s1

/-- A seek begins (R27). -/
def beginSeek (g : Grant) (s : State) : State :=
  s.updDsq fun d =>
    { d with
      state := .seeking, seekTarget := some g.track.cyl
      expiry := some (uptimeExpiry s d.set.seekTimeout) }

/-- The first operation the grant's target needs (R27). -/
def takeUpGrant (g : Grant) (s : State) : State :=
  match s.dsq.position with
  | none => beginRecalibrate s
  | some p =>
    if p.cyl ≠ g.track.cyl then beginSeek g s
    else if p.head ≠ g.track.head ∨ p.offset ≠ g.offset then beginSettle g s
    else setDsqState .reading (clearOperation s)

/-! ### Arbitration (R25, R26) -/

/-- A candidate for the drive. -/
inductive Candidate where
  | fetch (kind : GrantKind) (t : Track) (src : ClaimFrom)
  | job (j : Job) (src : Option ClaimFrom)
deriving DecidableEq, Repr

/-- The demand fetch: the port is holding, and the current track has no frame (R25, order 1). -/
def demandCandidate (s : State) : Option Candidate :=
  if s.mcp.state = .seeking ∧ (frameOf s.mcp.track s).isNone then
    (demandSource s).map (Candidate.fetch .demandFetch s.mcp.track)
  else none

/-- A job as a candidate, if it is eligible: QUEUED, and holding its frame or able to claim one (R25, R125). -/
def jobCandidate (s : State) (j : Job) : Option Candidate :=
  if j.state ≠ .queued then none
  else if j.holdsFrame then some (.job j none)
  else if (frameOf j.track s).isSome then none
  else (stationSource s).map fun src => .job j (some src)

/-- The earliest eligible job in queue order that satisfies `p`. -/
def firstJob (s : State) (p : Job → Bool) : Option Candidate :=
  (s.jbq.jobs.filter p).findSome? (jobCandidate s)

/-- The lowest-numbered head of the current cylinder whose track has no frame (R25, order 5). -/
def prefetchTrack (s : State) : Option Track :=
  (((List.range s.geom.heads).map fun h => (⟨s.mcp.track.cyl, h⟩ : Track)).find? fun t => (frameOf t s).isNone)

/-- The prefetch (R25, order 5; R126). -/
def prefetchCandidate (s : State) : Option Candidate :=
  if s.dsq.set.prefetch then
    (prefetchTrack s).bind fun t => (plainSource s).map (Candidate.fetch .prefetch t)
  else none

/-- The first candidate in the order of R25. -/
def candidate (s : State) : Option Candidate :=
  (demandCandidate s).orElse fun _ =>
    (firstJob s fun j => j.track == s.mcp.track).orElse fun _ =>
      (firstJob s fun j => j.origin == .station).orElse fun _ =>
        (firstJob s fun j => j.origin == .machine).orElse fun _ =>
          (prefetchCandidate s).orElse fun _ => firstJob s fun j => j.origin == .prefetch

/-- The grant of a fetch: the plain read with every sector open, as pass 1 (R26, R50). -/
def fetchGrant (kind : GrantKind) (t : Track) (sectors : Nat) : Grant :=
  ⟨kind, t, 0, 0, 0, List.range sectors, 1, false, 0, .approach, false, .retake⟩

/-- The grant of a job pass: the current step's settings as the ladder holds them, the job's open set, and the pass
number the counter plus 1 gives (R26, R95, R103). -/
def jobGrant (q : Jbq) (j : Job) : Grant :=
  ⟨.jobPass, j.track, (ladderStep q j.step).offset, (ladderStep q j.step).shift, j.step, j.openSet,
    min 65535 (j.counter + 1), j.fill, 0, .approach, false, .retake⟩

/-- A candidate's frame is claimed if it needs one, and the collections take the grant (R26, R96, R103, R114). -/
def prepareGrant (c : Candidate) (s : State) : State :=
  match c with
  | .fetch _ t src =>
    (claim src t s).updJbq fun q => { q with fetch := some ⟨zeroTallies (List.range s.geom.sectors), false⟩ }
  | .job j src =>
    let s1 := match src with
      | some x => claim x j.track s
      | none => s
    updJob j.track (fun j => { j with state := .active, holdsFrame := true }) s1

/-- The grant a candidate receives (R26). -/
def grantFor (c : Candidate) (s : State) : Grant :=
  match c with
  | .fetch kind t _ => fetchGrant kind t s.geom.sectors
  | .job j _ => jobGrant s.jbq j

/-- The drive is granted to a candidate (R25 to R27). -/
def giveGrant (c : Candidate) (s : State) : State :=
  takeUpGrant (grantFor c s) (setGrant (some (grantFor c s)) (prepareGrant c s))

/-- Arbitration: an IDLE sequencer with the spindle RUNNING and no batch running grants the drive to the first
candidate (R25, R72). -/
def arbitrate (s : State) : State :=
  if s.dsq.state = .idle ∧ spindleOf s.ixm = .running ∧ s.vte.batch = none then
    match candidate s with
    | some c => giveGrant c s
    | none => s
  else s

/-! ### Fences (R37, R38) -/

/-- A fence is raised unless one is recorded; `before` is the state when the cause arrived, for the snapshot
(R37, R38, R202). -/
def raiseFence (cause : FenceCause) (before : State) (s : State) : State :=
  if s.dsq.fence.isSome then s
  else
    let s1 := (abandonWork s).updDsq fun d => { d with fence := some cause, position := none, state := .fenced }
    offerLatching .driveFenced (causeByte cause)
      { snapshotOf (.fence cause) (lastKnown before.dsq) before with faults := s.dsq.faults } s1

/-! ### Seek faults (R35) -/

/-- What the recalibrate after a seek fault is to do with the grant (R24, R35). Retries made that stand above a Q lowered
since are exhausted, as those equal to it are (DEDUCED, log entry 47). -/
def afterFault (q : Nat) (unstable : Bool) (g : Grant) : Grant :=
  if q ≤ g.retries then { g with phase := .approach, after := .counted }
  else if unstable then { g with phase := .approach, after := .finish }
  else { g with phase := .approach, after := .retake, retries := g.retries + 1 }

/-- The grant after a seek fault that does not fence; one whose batch is running is left alone. -/
def faultGrant (s : State) : Option Grant :=
  s.dsq.grant.map fun g =>
    if g.phase = .voting then g else afterFault s.dsq.set.retries (decide (spindleOf s.ixm = .unstable)) g

/-- A seek fault: F is counted and the quiet period begins afresh; the drive is fenced at the fence limit, and
otherwise recalibrates for a retry, for the grant's end, or for its counting (R35, R36). -/
def seekFault (s : State) : State :=
  let s1 := s.updDsq fun d =>
    { d with faults := d.faults + 1, quiet := some (uptimeExpiry s (1000 * d.set.quietPeriod)) }
  if s1.dsq.set.fenceLimit ≤ s1.dsq.faults then raiseFence .seek s s1
  else beginRecalibrate (clearOperation (endPassContext (setGrant (faultGrant s1) s1)))

/-! ### Following the spindle (R23, R24) -/

/-- The spindle has become STOPPED or STARTING (R23). -/
def followDown (s : State) : State :=
  match s.dsq.state with
  | .idle => setDsqState .offline s
  | .seeking | .settling | .recalibrating => setDsqState .offline (losePosition (abandonWork s))
  | .reading => setDsqState .offline (abandonWork s)
  | _ => s

/-- The spindle has become UNSTABLE (R24). -/
def followUnstable (s : State) : State :=
  match s.dsq.state with
  | .reading => setDsqState .idle (abandonWork s)
  | _ => s

/-- The spindle has become RUNNING (R23). -/
def followRunning (s : State) : State :=
  match s.dsq.state with
  | .offline => beginRecalibrate s
  | _ => s

/-- The sequencer takes a change of the spindle state as an event (R12, R23, R24). -/
def followSpindle (old : Spindle) (s : State) : State :=
  if spindleOf s.ixm = old then s
  else
    match spindleOf s.ixm with
    | .stopped | .starting => followDown s
    | .unstable => followUnstable s
    | .running => followRunning s

/-! ### Revolution marks and late expiries (R29, R30) -/

/-- A pass begins at the mark: the Read Channel receives its context (R29, R50, R55). -/
def beginPass (g : Grant) (reference : Timer) (s : State) : State :=
  let s1 := setGrant (some { g with phase := .inPass, begun := true }) s
  s1.updRdc fun r =>
    { r with
      pass := some ⟨g.track, g.openSet, reference, s.ixm.average, g.shift, g.step, g.passNo, r.headerOffset,
        r.slipLimit, s.geom.sectors⟩
      shift := g.shift, assembly := none }

/-- The sequencer takes a revolution mark: the pass in flight ends counted, or the pass waited for begins if the
spindle is RUNNING (R29, R30). -/
def takeMark (reference : Timer) (s : State) : State :=
  match s.dsq.state, s.dsq.grant with
  | .reading, some g =>
    match g.phase with
    | .inPass => countPass g s
    | .approach => if spindleOf s.ixm = .running then beginPass g reference s else s
    | .voting => s
  | _, _ => s

/-- The sequencer takes a late-expiry notice: the pass in flight ends counted; the wait for a mark goes on
(R29, R30). -/
def takeLateExpiry (s : State) : State :=
  match s.dsq.state, s.dsq.grant with
  | .reading, some g => if g.phase = .inPass then countPass g s else s
  | _, _ => s

end Sys2Proof.Machine
end

