-- ==== Sys2Proof/Machine/Port.lean ====
section
/-! DEFINITION. The Machine Port's shared operations, holds and readiness, what the port and the arbiter do at the
end of an event, and the meanings of the machine's requests and of the emulated rotation (spec/08). -/

namespace Sys2Proof.Machine

/-! ### Holds and port states (R146 to R154) -/

/-- A READ or WRITE under way is cut off (R151). -/
def cutActivity (m : Mcp) : Mcp :=
  { m with activity := .none }

/-- The port enters a state other than READY: a hold in progress is abandoned, a SEEK_ERROR or FAULT forgotten, a
READ or WRITE under way cut off (R146, R148, R151, R156). -/
def leaveFor (st : PortState) (m : Mcp) : Mcp :=
  { m with state := st, hold := none, activity := .none }

/-- The port enters READY, any hold over (R152 to R154). -/
def enterReady (m : Mcp) : Mcp :=
  { m with state := .ready, hold := none }

/-- The end of a hold by resolution is tested (R153). -/
def testHold (s : State) : State :=
  if s.mcp.state = .seeking ∧ currentResolved s then s.updMcp enterReady else s

/-- A hold begins or restarts on the current track; outside the geometry the port enters READY instead (R152). -/
def beginHold (s : State) : State :=
  if inGeometry s s.mcp.track then
    testHold (s.updMcp fun m =>
      { m with state := .seeking, hold := some (uptimeExpiry s m.holdLimit), activity := .none })
  else s.updMcp enterReady

/-- The port starts again at 0/0 with a hold: leaving NOT_READY or DETACHED (R147, R148). -/
def startPort (s : State) : State :=
  beginHold (s.updMcp fun m => { m with track := ⟨0, 0⟩ })

/-- The port follows its readiness condition (R146, R147). -/
def followReady (s : State) : State :=
  match s.mcp.state with
  | .detached => s
  | .notReady => if readyToServe s then startPort s else s
  | _ => if readyToServe s then s else s.updMcp (leaveFor .notReady)

/-- The end of an event that may have moved the spindle, the fence, a sector or the queue: the port follows, a hold
may end by resolution, and an IDLE sequencer grants (R25, R146, R147, R153; log entry 26). -/
def afterEvent (s : State) : State :=
  arbitrate (testHold (followReady s))

/-! ### The machine cable's requests (R145, R156 to R162) -/

/-- HOLD_EXPIRY: the hold ends by expiry (R154). -/
def holdEnds (s : State) : State :=
  if s.mcp.state = .seeking ∧ dueAt s.mcp.hold s.clock.uptime then arbitrate (s.updMcp enterReady) else s

/-- HOLD_EXPIRY (R154). -/
def execHoldExpiry (s : State) : Host.Outcome State Fault Refusal :=
  .next (holdEnds s)

/-- The time after the emulated index at which the pulse of sector `i` falls (R150). -/
def sectorPulseAt (e : EmuRotation) (i : Nat) : Nat :=
  i * e.period / e.sectors

/-- Whether the emulated index has fallen (R150). -/
def emulatedIndexDue (s : State) : Bool :=
  decide (s.mcp.emu.period ≤ elapsed s.clock.rotationTimer s.mcp.emu.indexAt)

/-- Whether the next sector pulse of the revolution has fallen (R150). -/
def sectorPulseDue (s : State) : Bool :=
  decide (s.mcp.emu.passing + 1 < s.mcp.emu.sectors) &&
    decide (sectorPulseAt s.mcp.emu (s.mcp.emu.passing + 1) ≤ elapsed s.clock.rotationTimer s.mcp.emu.indexAt)

/-- A new passing begins: no gate is taken in it, and what was under way is over (R151). -/
def nextPassing (e : EmuRotation) (m : Mcp) : Mcp :=
  { m with emu := e, gateTaken := false, activity := .none }

/-- EMULATED_INDEX: the next revolution begins, reading P_nom and S (R150). -/
def execEmulatedIndex (s : State) : Host.Outcome State Fault Refusal :=
  .next <|
    if emulatedIndexDue s then
      s.updMcp (nextPassing
        ⟨s.mcp.emu.indexAt + BitVec.ofNat 32 s.mcp.emu.period, s.ixm.rot.pNom, s.geom.sectors, 0⟩)
    else s

/-- SECTOR_PULSE: the passing of the next sector begins (R150, R151). -/
def execSectorPulse (s : State) : Host.Outcome State Fault Refusal :=
  .next <|
    if sectorPulseDue s then
      s.updMcp (nextPassing { s.mcp.emu with passing := s.mcp.emu.passing + 1 })
    else s

/-- The current track changes (R149). -/
def setTrack (t : Track) (s : State) : State :=
  s.updMcp fun m => { m with track := t }

/-- Whether the port takes a SEEK or HEAD: selected, and READY or SEEKING (R145, R156, R157). -/
def takesMotion (s : State) : Bool :=
  s.pins.unitSelect && (s.mcp.state == .ready || s.mcp.state == .seeking)

/-- SEEK (R156). -/
def execSeek (cylinder : BitVec 10) (s : State) : Host.Outcome State Fault Refusal :=
  .next <|
    if takesMotion s then
      if cylinder.toNat < s.geom.cylinders then
        arbitrate (beginHold (setTrack ⟨cylinder.toNat, s.mcp.track.head⟩ s))
      else s.updMcp (leaveFor .seekError)
    else s

/-- A HEAD of another head than the current one (R157). -/
def selectHead (h : Nat) (s : State) : State :=
  let s1 := setTrack ⟨s.mcp.track.cyl, h⟩ s
  if s.geom.heads ≤ h then s1.updMcp enterReady
  else if s.mcp.state = .ready then
    if currentResolved s1 then s1 else beginHold s1
  else testHold s1

/-- HEAD (R157). -/
def execHead (number : BitVec 4) (s : State) : Host.Outcome State Fault Refusal :=
  .next <|
    if takesMotion s && number.toNat != s.mcp.track.head then arbitrate (selectHead number.toNat s) else s

/-- RECALIBRATE (R158). -/
def execRecalibrate (s : State) : Host.Outcome State Fault Refusal :=
  .next <|
    if takesMotion s || (s.pins.unitSelect && s.mcp.state == .seekError) then
      arbitrate (beginHold (setTrack ⟨0, s.mcp.track.head⟩ s))
    else s

/-- The sector address of the passing under way on the current track (R151). -/
def passingAddr (s : State) : SectorAddr :=
  ⟨s.mcp.track, s.mcp.emu.passing⟩

/-- The record of a sector in the frame of its track. -/
def sectorRecord (a : SectorAddr) (s : State) : Option SectorRec :=
  (frameOf a.track s).bind fun f => f.sectors[a.sector]?

/-- The data a sector record holds, if any (R113). -/
def SectorRec.words : SectorRec → Option SectorWords
  | .empty => none
  | .opened w _ => some w
  | .good w => some w
  | .recovered w => some w
  | .failed best => best.map Prod.fst

/-- The words answers 2 and 3 of R159 take from the frame. A head outside the geometry has no frame. -/
def frameAnswer (a : SectorAddr) (s : State) : Option SectorWords :=
  if s.geom.heads ≤ a.track.head then none else (sectorRecord a s).bind SectorRec.words

/-- The words a READ is answered with, if any (R159). -/
def readWords (a : SectorAddr) (s : State) : Option SectorWords :=
  match overlayOf a s with
  | some e => some (withCheck e.data)
  | none => frameAnswer a s

/-- What the port sends for a READ, if anything (R160). -/
def readAnswer (a : SectorAddr) (s : State) : Option ReadAnswer :=
  (readWords a s).map fun w => ⟨a, headerCheck a, w⟩

/-- Whether a gate opened now is taken: selected, READY, and the first of its passing (R145, R151). -/
def takesGate (s : State) : Bool :=
  s.pins.unitSelect && s.mcp.state == .ready && !s.mcp.gateTaken

/-- READ of the sector under way: its answer is fixed now; answers 2 and 3 refresh the frame (R159, R160, R123). -/
def takeRead (s : State) : State :=
  let a := passingAddr s
  let s1 := s.updMcp fun m => { m with gateTaken := true, activity := .reading (readAnswer a s) }
  if (overlayOf a s).isNone && (frameAnswer a s).isSome then refreshFrame a.track s1 else s1

/-- READ (R159). -/
def execRead (s : State) : Host.Outcome State Fault Refusal :=
  .next (if takesGate s then takeRead s else s)

/-- WRITE of the sector under way: FAULT at once for a head outside the geometry (R161). -/
def takeWrite (s : State) : State :=
  if s.geom.heads ≤ s.mcp.track.head then
    s.updMcp fun m => { leaveFor .fault m with gateTaken := true }
  else s.updMcp fun m => { m with gateTaken := true, activity := .writing (passingAddr s) }

/-- WRITE (R161). -/
def execWrite (s : State) : Host.Outcome State Fault Refusal :=
  .next (if takesGate s then takeWrite s else s)

/-- An overlay entry takes a WRITE of its address (R161). -/
def rewrite (data : SectorData) (e : OverlayEntry) : OverlayEntry :=
  { e with data := data, writes := bump 255 e.writes }

/-- The last data word of a WRITE of `a` has arrived: the entry is replaced or made, or the overlay is full and the
port enters FAULT (R161). -/
def storeWrite (a : SectorAddr) (data : SectorData) (s : State) : State :=
  if (overlayOf a s).isSome then
    s.updOvl fun o => { o with entries := o.entries.map fun e => if e.addr = a then rewrite data e else e }
  else if s.ovl.entries.length < Config.overlayEntries then
    s.updOvl fun o => { o with entries := o.entries ++ [⟨a, data, 1⟩] }
  else offer .overlayFull (some a.track) a.sector (s.updMcp (leaveFor .fault))

/-- WRITE_DATA_COMPLETE (R161). -/
def execWriteDataComplete (data : SectorData) (s : State) : Host.Outcome State Fault Refusal :=
  .next <|
    match s.mcp.activity with
    | .writing a =>
      if s.pins.unitSelect && s.mcp.state == .ready then storeWrite a data (s.updMcp cutActivity) else s
    | _ => s

/-- FAULT_CLEAR: a port in FAULT returns to READY (R162). -/
def execFaultClear (s : State) : Host.Outcome State Fault Refusal :=
  .next (if s.pins.unitSelect && s.mcp.state == .fault then s.updMcp enterReady else s)

/-- UNIT_SELECT: the line takes its level; while it is inactive the port takes nothing and drives nothing, so what
was under way is over (R145; log entry 11). -/
def execUnitSelect (active : Bool) (s : State) : Host.Outcome State Fault Refusal :=
  .next <|
    let s1 := s.updPins fun p => { p with unitSelect := active }
    if active then s1 else s1.updMcp cutActivity

end Sys2Proof.Machine
end

