-- ==== Sys2Proof/Machine/Rotation.lean ====
section
/-! DEFINITION. The Index Monitor: windows, good and bad events, the latch, the rotation average, and the meanings
of INDEX_QUALIFIED and of the four window expiries (spec/01). -/

namespace Sys2Proof.Machine

/-! ### Settings -/

/-- A rotation settings block with each value clamped to its range (R2, R17). -/
def clampRotation (r : RotationSettings) : RotationSettings :=
  ⟨clampNat 8000 50000 r.pNom, clampNat 1 100 r.tol, clampNat 0 7 r.startup, clampNat 1 7 r.limit,
    clampNat 0 6 r.shift, clampNat 1 255 r.width⟩

/-- A pulse begun and not yet qualified starts afresh (R17, R18). For the rest of this microsecond the width `width`
that stood before is still the one asked for, so that an index which falls together with the request may be taken
after it (R17; log entry 6). -/
def IndexLine.restart (width : Nat) (l : IndexLine) : IndexLine :=
  { l with restarted := some (l.restarted.getD width) }

/-- The monitor in IDLE with the count and latch clear, A at P_nom of the settings `r`, and a pulse in progress
restarted (R17, R18). -/
def restartMonitor (r : RotationSettings) (x : Ixm) : Ixm :=
  ⟨.idle, none, none, 0, false, r.pNom, r, x.line.restart x.rot.width⟩

/-! ### Window states (R4 to R9) -/

/-- The monitor enters CLOSED with the index as its reference (R6 to R9). -/
def enterClosed (now : Timer) (x : Ixm) : Ixm :=
  { x with
    window := .closed, reference := some now
    expiry := some ⟨now, x.rot.pNom - x.rot.slack⟩ }

/-- The monitor enters STARTUP (R5). -/
def enterStartup (now : Timer) (x : Ixm) : Ixm :=
  { x with window := .startup, reference := some now, expiry := some ⟨now, x.rot.longLimit⟩ }

/-- The monitor enters OPEN: its expiry is measured from the unchanged reference (R4, R7). -/
def enterOpen (x : Ixm) : Ixm :=
  { x with
    window := .opened
    expiry := x.reference.map fun r => ⟨r, x.rot.pNom + x.rot.slack⟩ }

/-- The monitor enters RESYNC (R8). -/
def enterResync (now : Timer) (x : Ixm) : Ixm :=
  { x with window := .resync, expiry := some ⟨now, x.rot.longLimit⟩ }

/-- The monitor enters IDLE, which clears the latch and keeps the count (R11). -/
def enterIdleWindow (x : Ixm) : Ixm :=
  { x with window := .idle, reference := none, expiry := none, latched := false }

/-! ### Good and bad events (R10, R11, R13) -/

/-- The rotation average after a good interval (R13). -/
def averageAfter (a x : Int) (shift : Nat) : Int :=
  a + (x - a).tdiv (2 ^ shift)

/-- A bad event's count, stopping at 7 (R10). -/
def countBad (x : Ixm) : Ixm :=
  { x with violations := bump 7 x.violations }

/-- Whether a bad event latches UNSTABLE, tested on the monitor as the event leaves it (R10). -/
def latches (x : Ixm) : Bool :=
  (x.window == .closed || x.window == .resync) && decide (x.rot.limit ≤ x.violations) && !x.latched

/-- A bad event has moved the monitor to `x`: the count is reported to the peak, and UNSTABLE may latch, queuing
SPINDLE_UNSTABLE and latching the snapshot before the Drive Sequencer acts (R10, R11, R202). -/
def badEvent (x : Ixm) (s : State) : State :=
  let s1 := reportViolations x.violations (s.updIxm fun _ => { x with latched := x.latched || latches x })
  if latches x then offerLatching .spindleUnstable x.violations (snapshotOf .unstable s1.dsq.position s1) s1 else s1

/-- A good event: A is updated with the interval, the count falls, the latch clears at 0 (R8, R10, R11, R13). -/
def goodIndex (now : Timer) (x : Ixm) : Ixm :=
  let interval : Int := (elapsed now (x.reference.getD now) : Nat)
  let y := enterClosed now { x with average := averageAfter x.average interval x.rot.shift, violations := x.violations - 1 }
  { y with latched := y.latched && y.violations != 0 }

/-- A good event at the machine; leaving UNSTABLE queues SPINDLE_RUNNING with detail 0 (R11, R12). -/
def goodEvent (now : Timer) (s : State) : State :=
  let s1 := s.updIxm (goodIndex now)
  if s.ixm.latched && !s1.ixm.latched then offer .spindleRunning none s1.ixm.violations s1 else s1

/-! ### Qualification (R3, R17, R18) -/

/-- Whether a pulse asserted for `asserted` µs qualifies now: it began after the last index was taken, and, counted from
its leading edge or from a later restart, it has stayed asserted for exactly the minimum width (R3, R17, R18; log
entry 6). -/
def IndexLine.qualifies (width asserted : Nat) (l : IndexLine) : Bool :=
  decide (asserted < l.taken) && decide (min asserted l.since = l.restarted.getD width)

/-- An index is taken: its pulse is no event again (R3). -/
def markTaken (x : Ixm) : Ixm :=
  { x with line := { x.line with taken := 0 } }

/-- The index line's record after one more microsecond (R17, R18; log entry 6). -/
def IndexLine.tick (l : IndexLine) : IndexLine :=
  ⟨if l.restarted.isSome then 1 else bump Config.lineTop l.since, bump Config.lineTop l.taken, none⟩

/-! ### INDEX_QUALIFIED (R3, R5 to R9) -/

/-- The monitor's part of a qualified index. -/
def monitorIndex (now : Timer) (s : State) : State :=
  match s.ixm.window with
  | .idle => s.updIxm (enterStartup now)
  | .startup => offer .spindleRunning none s.ixm.violations (s.updIxm (enterClosed now))
  | .closed => badEvent (enterClosed now (countBad s.ixm)) s
  | .opened => goodEvent now s
  | .resync => s.updIxm (enterClosed now)

/-- Whether an index in the window state is a revolution mark (R15). -/
def givesMark : Window → Bool
  | .closed | .opened | .resync => true
  | _ => false

/-- A qualified index, its index time now: the monitor first, then the Drive Sequencer takes the spindle change and the
mark as parts of the one event (R3, R15). -/
def qualifiedIndex (s : State) : State :=
  let now := s.clock.rotationTimer
  let s1 := followSpindle (spindleOf s.ixm) (monitorIndex now (s.updIxm markTaken))
  afterEvent (if givesMark s.ixm.window then takeMark now s1 else s1)

/-- INDEX_QUALIFIED: a pulse that does not qualify at this moment is no event (R3). -/
def execIndexQualified (asserted : Nat) (s : State) : Host.Outcome State Fault Refusal :=
  .next (if s.ixm.line.qualifies s.ixm.rot.width asserted then qualifiedIndex s else s)

/-! ### The window expiries -/

/-- Whether the pending expiry of the window state has fallen (R1, R4). -/
def windowDue (w : Window) (s : State) : Bool :=
  s.ixm.window == w && dueAt s.ixm.expiry s.clock.rotationTimer

/-- STARTUP_WINDOW_EXPIRY: a bad event that enters IDLE and does not latch (R6, R10). -/
def execStartupWindowExpiry (s : State) : Host.Outcome State Fault Refusal :=
  .next <|
    if windowDue .startup s then
      afterEvent (followSpindle (spindleOf s.ixm) (badEvent (enterIdleWindow (countBad s.ixm)) s))
    else s

/-- CLOSED_WINDOW_EXPIRY: the monitor enters OPEN (R7). -/
def execClosedWindowExpiry (s : State) : Host.Outcome State Fault Refusal :=
  .next (if windowDue .closed s then s.updIxm enterOpen else s)

/-- OPEN_WINDOW_EXPIRY: a bad event that enters RESYNC, with a late-expiry notice (R8, R15). -/
def execOpenWindowExpiry (s : State) : Host.Outcome State Fault Refusal :=
  .next <|
    if windowDue .opened s then
      let s1 := badEvent (enterResync s.clock.rotationTimer (countBad s.ixm)) s
      afterEvent (takeLateExpiry (followSpindle (spindleOf s.ixm) s1))
    else s

/-- RESYNC_LIMIT_EXPIRY: the monitor enters IDLE and SPINDLE_STOPPED is queued (R9, R11, R12). -/
def execResyncLimitExpiry (s : State) : Host.Outcome State Fault Refusal :=
  .next <|
    if windowDue .resync s then
      let s1 := offer .spindleStopped none s.ixm.violations (s.updIxm enterIdleWindow)
      afterEvent (followSpindle (spindleOf s.ixm) s1)
    else s

end Sys2Proof.Machine
end

