-- ==== Sys2Proof/Machine/ReadChannel.lean ====
section
/-! DEFINITION. The Read Channel: expected times, bad headers, copies begun and sealed, and the meanings of HEADER
and COPY_SEAL (spec/03). -/

namespace Sys2Proof.Machine

/-! ### The bit window (R54) -/

/-- The eighth, counted from the field's first, of the window grid in which a transition at place `x` falls under a
window shift. -/
def inWindow (shift x : Int) : Int :=
  x - shift

/-- The cell into whose window a transition is sorted (R54). -/
def cellOf (shift x : Int) : Int :=
  inWindow shift x / Config.cellEighths

/-- Whether a transition falls in the first or the last eighth of its window (R54). -/
def isMarginal (shift x : Int) : Bool :=
  inWindow shift x % Config.cellEighths == 0 || inWindow shift x % Config.cellEighths == Config.cellEighths - 1

/-- The cells of a field whose windows hold a transition. -/
def cellsWithFlux (shift : Int) (flux : List Int) : List Int :=
  flux.map (cellOf shift)

/-- The word at index `k` of a field: a cell whose window holds a transition reads 1 (DESIGN CHOICE, log entry 7). -/
def wordFromCells (cells : List Int) (k : Nat) : Word :=
  wordOfBits ((List.range 16).map fun b => cells.contains ((16 * k + b : Nat) : Int))

/-- The marginal transitions among the first `cells` cells of a field (R54). -/
def marginalsIn (cells : Nat) (shift : Int) (flux : List Int) : Nat :=
  flux.countP fun x => decide (0 ≤ cellOf shift x) && decide (cellOf shift x < cells) && isMarginal shift x

/-- Transitions placed from the first cell of a part that begins `words` words into its field, placed from the
field's first cell. -/
def placedAt {n : Nat} (words : Nat) (xs : List (Fin n)) : List Int :=
  xs.map fun x => ((128 * words + x.val : Nat) : Int)

/-- The transitions of a header (R51, R54). -/
def headerFlux (cylinder head sector check : List (Fin 128)) (outside : List Int) : List Int :=
  placedAt 0 cylinder ++ placedAt 1 head ++ placedAt 2 sector ++ placedAt 3 check ++ outside

/-- The transitions of a data field (R54, R56). -/
def dataFlux (data : List (Fin 32768)) (check : List (Fin 128)) (outside : List Int) : List Int :=
  placedAt 0 data ++ placedAt 256 check ++ outside

/-- A header as the bit window reads it: its four words and the marginal transitions among them (R54). -/
structure HeaderRead where
  cylinder : Word
  head : Word
  sector : Word
  check : Word
  marginal : Nat
deriving DecidableEq, Repr

/-- The header read from transitions under a window shift (R51, R54). -/
def readHeader (shift : Int) (flux : List Int) : HeaderRead :=
  let cells := cellsWithFlux shift flux
  ⟨wordFromCells cells 0, wordFromCells cells 1, wordFromCells cells 2, wordFromCells cells 3,
    marginalsIn 64 shift flux⟩

/-- The data field read from transitions under a window shift (R54, R56). -/
def readData (shift : Int) (flux : List Int) : SectorWords :=
  let cells := cellsWithFlux shift flux
  ⟨⟨(List.range 256).map (wordFromCells cells), by simp⟩, wordFromCells cells 256⟩

/-- The marginal transitions of a data field (R54). -/
def dataMarginals (shift : Int) (flux : List Int) : Nat :=
  marginalsIn 4112 shift flux

/-! ### Header timing (R51, R55) -/

/-- The expected time of a sector's header after the reference index (R55). -/
def expectedTime (p : PassContext) (i : Nat) : Int :=
  p.headerOffset + ((i : Int) * p.average) / p.sectors

/-- The distance of an arrival time from a sector's expected time. -/
def timeDistance (p : PassContext) (arrival i : Nat) : Nat :=
  ((arrival : Int) - expectedTime p i).natAbs

/-- The sector whose expected time lies nearest, the lower-numbered of two equally near (R51). -/
def nearestSector (p : PassContext) (arrival : Nat) : Nat :=
  (List.range p.sectors).foldl
    (fun best i => if timeDistance p arrival i < timeDistance p arrival best then i else best) 0

/-- A deviation, held within -32768..32767 (R55). -/
def deviationOf (p : PassContext) (arrival i : Nat) : Int :=
  clampInt (-32768) 32767 ((arrival : Int) - expectedTime p i)

/-- A copy is slipped when its deviation exceeds the slip limit in magnitude (R55). -/
def slipped (p : PassContext) (deviation : Int) : Bool :=
  decide (p.slipLimit < deviation.natAbs)

/-- The weight of a copy from its marginal count (R57). -/
def weightOf (isSlipped : Bool) (marginal : Nat) : Nat :=
  if isSlipped then 1 else 8 - min 7 (marginal / 4)

/-- The marginal count with further marginal transitions, stopping at 255 (R54). -/
def addMarginal (m n : Nat) : Nat :=
  min 255 (m + n)

/-! ### Tallies (R51, R58) -/

/-- Whether the grant reads plainly, as a fetch or a fill (R103, R117). -/
def plainPass (d : Dsq) : Bool :=
  d.grant.any fun g => g.kind != .jobPass || g.fill

/-- Whether the grant is a fetch. -/
def fetchPass (d : Dsq) : Bool :=
  d.grant.any fun g => g.kind != .jobPass

/-- A tally of the pass is changed: the fetch's own during a fetch, the job's otherwise (R51, R58). -/
def tallyPass (t : Track) (i : Nat) (f : Tally → Tally) (s : State) : State :=
  if fetchPass s.dsq then
    s.updJbq fun q => { q with fetch := q.fetch.map fun ft => { ft with tallies := updTally i f ft.tallies } }
  else updJob t (fun j => { j with tallies := updTally i f j.tallies }) s

/-- A check-bad copy found no free slot: the fetch's starved mark, or the job's STARVED flag and its entry's
(R63, R137). -/
def markStarved (t : Track) (s : State) : State :=
  if fetchPass s.dsq then s.updJbq fun q => { q with fetch := q.fetch.map fun ft => { ft with starved := true } }
  else updEntry t Entry.setStarved (updJob t (fun j => { j with starved := true }) s)

/-! ### HEADER (R51 to R53) -/

/-- A check-bad header is counted for the nearest sector, if that is in the pass open set (R51). -/
def badHeader (p : PassContext) (arrival : Nat) (s : State) : State :=
  let i := nearestSector p arrival
  if p.openSet.contains i then tallyPass p.track i Tally.countBadHeader s else s

/-- A check-good header of an open sector of the track begins a copy, discarding an older one (R53). -/
def beginCopy (p : PassContext) (arrival i : Nat) (check : Word) (marginal : Nat) (s : State) : State :=
  s.updRdc fun r => { r with assembly := some ⟨i, check, arrival, deviationOf p arrival i, addMarginal 0 marginal⟩ }

/-- An address mark that ended before the opening mark's index time is not heard, whenever its words are read: the
pass begins decoding at that time (R50). A pass is far shorter than half the rotation timer's range, so the sign of
the difference tells. DEDUCED, log entry 51. -/
def beforeOpening (markTime reference : Timer) : Bool :=
  (markTime - reference).msb

/-- A header read in a pass: of a mark before the opening one, check-bad, of another track, ignored, or the beginning
of a copy (R50 to R53). -/
def takeHeader (p : PassContext) (markTime : Timer) (h : HeaderRead) (s : State) : State :=
  let arrival := elapsed markTime p.reference
  if beforeOpening markTime p.reference then s
  else if check16 [h.cylinder, h.head, h.sector] ≠ h.check then badHeader p arrival s
  else if h.cylinder.toNat ≠ p.track.cyl ∨ h.head.toNat ≠ p.track.head then afterEvent (seekFault s)
  else if h.sector.toNat < s.geom.sectors ∧ p.openSet.contains h.sector.toNat then
    beginCopy p arrival h.sector.toNat h.check h.marginal s
  else s

/-- HEADER: read through the bit window under the shift in force; outside a pass, read data passes unheard (R50,
R54). -/
def execHeader (markTime : Timer) (cylinder head sector check : List (Fin 128)) (outside : List Int) (s : State) :
    Host.Outcome State Fault Refusal :=
  .next <|
    match s.rdc.pass with
    | some p => takeHeader p markTime (readHeader s.rdc.shift (headerFlux cylinder head sector check outside)) s
    | none => s

/-! ### COPY_SEAL (R56 to R58) -/

/-- The copy sealed from the copy under assembly (R57). -/
def sealCopy (p : PassContext) (a : Assembly) (w : SectorWords) (marginal : Nat) : SealedCopy :=
  ⟨⟨p.track, a.sector⟩, p.passNo, p.step, w, addMarginal a.marginal marginal, a.deviation,
    weightOf (slipped p a.deviation) (addMarginal a.marginal marginal), w.checkGood⟩

/-- A sector resolved in the pass leaves the pass open set, and the grant's, so that a retry of the grant does not
seek it (R58, R121; log entry 43). -/
def closeInPass (i : Nat) (s : State) : State :=
  (s.updRdc fun r => { r with pass := r.pass.map fun p => { p with openSet := p.openSet.filter (· != i) } }).updDsq
    fun d => { d with grant := d.grant.map fun g => { g with openSet := g.openSet.filter (· != i) } }

/-- A check-good copy resolves its sector: GOOD in a fetch or a fill; RECOVERED otherwise, with the outcome
RETRY_GOOD; the sector's copies are freed and it leaves the open set (R58, R65, R104, R117, R137). -/
def deliverGood (c : SealedCopy) (s : State) : State :=
  let plain := plainPass s.dsq
  let t := c.addr.track
  let i := c.addr.sector
  let s1 := updFrame t (Frame.sealGood plain i c.words) s
  let s2 := if plain then s1
    else updEntry t (Entry.resolve i (.retryGood (copyCount s t i) c.step c.passNo) c.step) s1
  let s3 := (closeInPass i s2).updCps (freeSector c.addr)
  if fetchPass s.dsq then s3 else updJob t (Job.close i) s3

/-- A check-bad copy reaches the frame, and is then offered to the Capture Store (R58, R62 to R64, R68, R116). -/
def deliverBad (c : SealedCopy) (s : State) : State :=
  let t := c.addr.track
  let s1 := updFrame t (Frame.updSector c.addr.sector (recordBad c.words c.weight)) s
  let s2 := s1.updCps (placeCopy s.vte.copyLimit c)
  match placingOf s.vte.copyLimit c s.cps with
  | .stored | .replaced => reportDeviation c.deviation.natAbs s2
  | .noSlot => markStarved t s2
  | .tooLight => s2

/-- A sealed copy is delivered (R58). -/
def deliverCopy (c : SealedCopy) (s : State) : State :=
  let s1 := s.updRdc fun r => { r with lastDeviation := c.deviation, assembly := none }
  let s2 := tallyPass c.addr.track c.addr.sector Tally.countCopy s1
  testHold (if c.good then deliverGood c s2 else deliverBad c s2)

/-- COPY_SEAL: the data field is read through the bit window under the shift in force; without a copy under assembly
there is nothing to seal (R54, R56). -/
def execCopySeal (data : List (Fin 32768)) (check : List (Fin 128)) (outside : List Int) (s : State) :
    Host.Outcome State Fault Refusal :=
  .next <|
    match s.rdc.pass, s.rdc.assembly with
    | some p, some a =>
      let flux := dataFlux data check outside
      deliverCopy (sealCopy p a (readData s.rdc.shift flux) (dataMarginals s.rdc.shift flux)) s
    | _, _ => s

end Sys2Proof.Machine
end

