-- ==== Sys2Proof/Machine/DriveEvents.lean ====
section
/-! DEFINITION. The meanings of the drive's lines and expiries, of BATCH_COMPLETION and of COOLDOWN_EXPIRY
(R27, R28, R34 to R37, R41, R79, R106). -/

namespace Sys2Proof.Machine

/-! ### Seek complete and seek error -/

/-- The cylinder of the position becomes the cylinder sought (R22). -/
def Dsq.reachTarget (d : Dsq) : Dsq :=
  match d.position, d.seekTarget with
  | some p, some c => d.establish { p with cyl := c }
  | _, _ => d

/-- Seek complete ends a seek: the position takes the cylinder sought; then the settle wait of the grant, or the end
of a grant that may not go on (R22, R24, R27, R33). -/
def completeSeek (s : State) : State :=
  let s1 := clearOperation (s.updDsq Dsq.reachTarget)
  match s1.dsq.grant with
  | some g => if spindleOf s1.ixm = .unstable then enterIdle (endUnpassed g s1) else beginSettle g s1
  | none => enterIdle s1

/-- The end of a recalibrate made for a grant (R24, R34, R35). -/
def resumeGrant (g : Grant) (s : State) : State :=
  match g.after with
  | .counted => countPass g s
  | .finish => enterIdle (endUnpassed g s)
  | .retake => if spindleOf s.ixm = .unstable then enterIdle (endUnpassed g s) else takeUpGrant g s

/-- Seek complete ends a recalibrate: the position is 0/0 with offset 0 (R22, R34). -/
def completeRecalibrate (s : State) : State :=
  let s1 := clearOperation (s.updDsq (Dsq.establish ⟨0, 0, 0⟩))
  match s1.dsq.grant with
  | some g => if g.phase = .approach then resumeGrant g s1 else enterIdle s1
  | none => enterIdle s1

/-- SEEK_COMPLETE: taken in SEEKING and RECALIBRATING, when it answers the operation in flight (R27, R34). -/
def execSeekComplete (current : Bool) (s : State) : Host.Outcome State Fault Refusal :=
  .next <|
    if current then
      match s.dsq.state with
      | .seeking => afterEvent (completeSeek s)
      | .recalibrating => afterEvent (completeRecalibrate s)
      | _ => s
    else s

/-- SEEK_ERROR: a seek fault in SEEKING, SETTLING and READING, and not acted on elsewhere (R28, R34, R35). -/
def execSeekError (s : State) : Host.Outcome State Fault Refusal :=
  .next <|
    match s.dsq.state with
    | .seeking | .settling | .reading => afterEvent (seekFault s)
    | _ => s

/-! ### Operation expiries -/

/-- Whether the operation expiry of the state has fallen (R1, R27, R28, R34, R41). -/
def operationDue (st : DsqState) (s : State) : Bool :=
  s.dsq.state == st && dueAt s.dsq.expiry s.clock.uptime

/-- SEEK_TIMEOUT_EXPIRY: a seek fault (R27, R35). -/
def execSeekTimeoutExpiry (s : State) : Host.Outcome State Fault Refusal :=
  .next (if operationDue .seeking s then afterEvent (seekFault s) else s)

/-- RECALIBRATE_TIMEOUT_EXPIRY: the drive is fenced with cause RECAL (R34, R37). -/
def execRecalibrateTimeoutExpiry (s : State) : Host.Outcome State Fault Refusal :=
  .next (if operationDue .recalibrating s then afterEvent (raiseFence .recal s s) else s)

/-- SETTLE_WAIT_END (R28). -/
def execSettleWaitEnd (s : State) : Host.Outcome State Fault Refusal :=
  .next (if operationDue .settling s then afterEvent (endSettle s) else s)

/-- REST_END: the sequencer recalibrates, or enters OFFLINE (R41). -/
def execRestEnd (s : State) : Host.Outcome State Fault Refusal :=
  .next (if operationDue .resting s then afterEvent (beginRecalibrate s) else s)

/-- QUIET_EXPIRY: F returns to 0 (R36). -/
def execQuietExpiry (s : State) : Host.Outcome State Fault Refusal :=
  .next <|
    if dueAt s.dsq.quiet s.clock.uptime then s.updDsq fun d => { d with faults := 0, quiet := none } else s

/-! ### Fence causes from lines -/

/-- DRIVE_FAULT_ASSERTED: the line takes its level; an assertion outside DETACHED raises a fence (R37). -/
def execDriveFaultAsserted (line : Bool) (s : State) : Host.Outcome State Fault Refusal :=
  .next <|
    let s1 := s.updPins fun p => { p with driveFault := line }
    if line && s.dsq.state != .detached then afterEvent (raiseFence .driveFault s s1) else s1

/-- The comparison of the unit select line with the level driven: contention seen raises a fence (R20, R37). -/
def watchSelect (s : State) : State :=
  if contentionNow s then afterEvent (raiseFence .contention s s) else s

/-- CONTENTION_SEEN: another master holds the line, or lets it go, and the line is compared (R20, R37). -/
def execContentionSeen (held : Option Bool) (s : State) : Host.Outcome State Fault Refusal :=
  .next (watchSelect (s.updPins fun p => { p with selectHeld := held }))

/-! ### Batches and cooldowns -/

/-- BATCH_COMPLETION (R79, R80, R31). -/
def execBatchCompletion (s : State) : Host.Outcome State Fault Refusal :=
  .next <|
    match s.vte.batch with
    | some b => afterEvent (completeBatch b s)
    | none => s

/-- A cooldown expires: the job is QUEUED again with its cycle incremented (R106). -/
def warmJob (j : Job) : Job :=
  { j with state := .queued, cycle := j.cycle + 1, cooldown := none }

/-- Whether the job's cooldown expiry has fallen (R1, R106). -/
def cooldownDue (j : Job) (s : State) : Bool :=
  j.state == .cooling && dueAt j.cooldown s.clock.uptime

/-- COOLDOWN_EXPIRY of the job on a track (R106). -/
def execCooldownExpiry (cylinder head : Nat) (s : State) : Host.Outcome State Fault Refusal :=
  .next <|
    match jobOf ⟨cylinder, head⟩ s with
    | some j => if cooldownDue j s then arbitrate (updJob j.track warmJob s) else s
    | none => s

end Sys2Proof.Machine
end

