-- ==== Sys2Proof/Machine/Link.lean ====
section
/-! DEFINITION. The Station Link: transfers, request frames, collisions, fetches, the taking of a request, and the
meanings of the link's events and of UNKNOWN_REQUEST and FRAME_ERROR (R169 to R178). -/

namespace Sys2Proof.Machine

/-! ### Transfers (R169, R171, R174, R175) -/

/-- TRANSFER_START: select falls, and the status byte is captured (R169, R170). -/
def execTransferStart (s : State) : Host.Outcome State Fault Refusal :=
  .next <|
    match s.stl.transfer with
    | .none => s.updStl fun l => { l with transfer := .started, statusByte := statusByteOf s }
    | _ => s

/-- REQUEST_CODE_BYTE: a frame comes under receipt, or is discarded with COLLISION while a response is held or a
request is in progress (R171, R174). -/
def execRequestCodeByte (code : Byte) (s : State) : Host.Outcome State Fault Refusal :=
  .next <|
    if s.stl.transfer = .started ∧ code ≠ 0 then
      if s.stl.response.isSome || s.stl.request.isSome then
        s.updStl fun l => { l with transfer := .discarded, collision := true }
      else s.updStl fun l => { l with transfer := .request, receipt := some ⟨[code], check8 [code]⟩ }
    else s

/-- The request in progress from a frame received whole: the first 8 payload bytes are kept, and the running check
has taken every byte before the check byte (R171, R172). -/
def requestOf (r : Receipt) (length : Word) (payload : List Byte) (check : Byte) : Request :=
  ⟨r.bytes.headD 0, length.toNat, payload.take Config.keptPayload,
    check8From r.check (u16 length.toNat ++ payload), check⟩

/-- FRAME_COMPLETE: the frame under receipt, with its declared payload, becomes the request in progress
(R171, R173). -/
def execFrameComplete (length : Word) (payload : List Byte) (check : Byte) (s : State) :
    Host.Outcome State Fault Refusal :=
  .next <|
    match s.stl.receipt with
    | some r =>
      if payload.length = length.toNat then
        s.updStl fun l => { l with receipt := none, request := some (requestOf r length payload check) }
      else s
    | none => s

/-- SELECT_RISE: the transfer ends; a frame under receipt is abandoned; a response not released stays held whole
(R169, R171, R175). -/
def execSelectRise (s : State) : Host.Outcome State Fault Refusal :=
  .next (s.updStl fun l => { l with transfer := .none, receipt := none, shiftedOut := 0, shifting := [] })

/-- FETCH_FIRST_BYTE: COLLISION is cleared, and the held response, or NONE, is shifted out (R175). -/
def execFetchFirstByte (s : State) : Host.Outcome State Fault Refusal :=
  .next <|
    if s.stl.transfer = .started then
      s.updStl fun l =>
        { l with
          transfer := .fetch l.response.isSome, collision := false, shiftedOut := 0
          shifting := responseFrame (l.response.getD noneResponse) }
    else s

/-- RESPONSE_RELEASED: the check byte of the held response has been shifted out, and the buffer empties (R175). -/
def execResponseReleased (s : State) : Host.Outcome State Fault Refusal :=
  .next <|
    if s.stl.transfer = .fetch true then
      s.updStl fun l =>
        { l with transfer := .fetch false, response := none, shiftedOut := l.shifting.length }
    else s

/-! ### Taking a request (R173, R176) -/

/-- The response is placed in the buffer and the request in progress is cleared (R173). The payload begins with the
request code (R176). -/
def answer (r : ResultCode) (code : Byte) (payload : List Byte) (s : State) : State :=
  s.updStl fun l => { l with request := none, response := some ⟨r, code :: payload⟩ }

/-- A refusal carries the request code alone (R176). -/
def refuse (r : ResultCode) (code : Byte) (s : State) : State :=
  answer r code [] s

/-- The taking of a request with code `code`: the row acts when the request in progress is intact and carries the
code; a wrong length is answered BAD_LENGTH; otherwise the request's own entry acts on its payload (R173; log
entry 4). -/
def takeRequest (code : Byte) (act : List Byte → State → State) (s : State) : State :=
  match s.stl.request with
  | some r =>
    if r.computed = r.received ∧ r.code = code then
      if requestLength code = some r.length then act r.payload s else refuse .badLength code s
    else s
  | none => s

/-- FRAME_ERROR: a request whose computed check differs from the check received (R173). -/
def execFrameError (s : State) : Host.Outcome State Fault Refusal :=
  .next <|
    match s.stl.request with
    | some r => if r.computed ≠ r.received then refuse .frameError r.code s else s
    | none => s

/-- UNKNOWN_REQUEST: an intact request whose code is not in the request set (R173). -/
def execUnknownRequest (s : State) : Host.Outcome State Fault Refusal :=
  .next <|
    match s.stl.request with
    | some r =>
      if r.computed = r.received ∧ requestLength r.code = none then refuse .unknownRequest r.code s else s
    | none => s

end Sys2Proof.Machine
end

