-- ==== Sys2Proof/Machine/Reports.lean ====
section
/-! DEFINITION. The requests that report: STATUS, events, snapshot, statistics, the table, images, overlay and
settings (R179 to R186, R188, R189, R192). -/

namespace Sys2Proof.Machine

/-! ### STATUS (R179) -/

/-- The 22 bytes of a STATUS report (R179, R211). -/
def statusReport (s : State) : List Byte :=
  u8 (spindleByte (spindleOf s.ixm)) ++ u16 s.ixm.average.toNat ++ u8 s.ixm.violations ++ u8 (dsqByte s.dsq.state) ++
    positionBytes s.dsq.position ++ u8 s.dsq.faults ++ u8 (optCauseByte s.dsq.fence) ++ u8 (portByte s.mcp.state) ++
    trackBytes s.mcp.track ++ u8 (holdReasons s) ++ u8 s.jbq.jobs.length ++ u8 s.tks.frames.length ++
    u16 s.rct.entries.length ++ u8 s.ovl.entries.length ++ u8 s.evq.records.length

/-- STATUS, 01h (R179). -/
def execStatus (s : State) : Host.Outcome State Fault Refusal :=
  .next (takeRequest 0x01 (fun _ s => answer .ok 0x01 (statusReport s) s) s)

/-! ### GET_EVENTS, GET_SNAPSHOT, statistics (R180, R181, R198, R203) -/

/-- The maximum a GET_EVENTS asks for, clamped (R177). -/
def eventsAsked (p : List Byte) : Nat :=
  clampNat 1 Config.listMost (byteAt p 0)

/-- A GET_EVENTS report: the overrun flag, bits 1 to 7 of its byte 0 (log entry 53), and the oldest records (R198,
R211). -/
def eventsReport (n : Nat) (e : Evq) : List Byte :=
  u8 (flagBit e.overrun 0) ++ u8 (e.records.take n).length ++ (e.records.take n).flatMap eventBytes

/-- GET_EVENTS acts (R198). -/
def takeGetEvents (p : List Byte) (s : State) : State :=
  answer .ok 0x02 (eventsReport (eventsAsked p) s.evq)
    (s.updEvq (drainEvents (eventsAsked p) s.mcp.attnPulse))

/-- GET_EVENTS, 02h (R198). -/
def execGetEvents (s : State) : Host.Outcome State Fault Refusal :=
  .next (takeRequest 0x02 takeGetEvents s)

/-- A GET_SNAPSHOT report (R203, R211). -/
def snapshotReport : Option Snapshot → List Byte
  | some x => u8 1 ++ snapshotBytes x
  | none => u8 0

/-- GET_SNAPSHOT acts: the latch is freed (R203). -/
def takeGetSnapshot (s : State) : State :=
  answer .ok 0x03 (snapshotReport s.evq.snapshot) (s.updEvq fun e => { e with snapshot := none })

/-- GET_SNAPSHOT, 03h (R203). -/
def execGetSnapshot (s : State) : Host.Outcome State Fault Refusal :=
  .next (takeRequest 0x03 (fun _ s => takeGetSnapshot s) s)

/-- The number of entries in a state. -/
def entriesIn (st : EntryState) (r : Rct) : Nat :=
  r.entries.countP fun e => e.state == st

/-- A GET_STATS report (R181, R211). -/
def statsReport (r : Rct) : List Byte :=
  u16 r.peakPasses ++ optByte r.peakMargin ++ u16 r.peakDeviation ++ u8 r.peakViolations ++
    u16 (entriesIn .opened r) ++ u16 (entriesIn .recovered r) ++ u16 (entriesIn .incomplete r)

/-- GET_STATS, 04h (R181). -/
def execGetStats (s : State) : Host.Outcome State Fault Refusal :=
  .next (takeRequest 0x04 (fun _ s => answer .ok 0x04 (statsReport s.rct) s) s)

/-- CLEAR_STATS, 05h (R142). -/
def execClearStats (s : State) : Host.Outcome State Fault Refusal :=
  .next (takeRequest 0x05 (fun _ s => answer .ok 0x05 [] (s.updRct clearPeaks)) s)

/-! ### The table (R182, R183, R184) -/

/-- The entries of sequence at or above `start` (R143, R182). -/
def entriesFrom (start : Nat) (r : Rct) : List Entry :=
  r.entries.filter fun e => decide (start ≤ e.seqNo)

/-- A LIST_ENTRIES report (R182, R211). -/
def entriesReport (start : Nat) (r : Rct) : List Byte :=
  let es := entriesFrom start r
  u8 (es.take Config.listMost).length ++ u8 (flagBit (decide (Config.listMost < es.length)) 0) ++
    (es.take Config.listMost).flatMap summaryBytes

/-- LIST_ENTRIES, 10h (R182). -/
def execListEntries (s : State) : Host.Outcome State Fault Refusal :=
  .next (takeRequest 0x10 (fun p s => answer .ok 0x10 (entriesReport (quadAt p 0) s.rct) s) s)

/-- A GET_ENTRY report, with the live n of each PENDING outcome (R131, R183, R211). -/
def entryReport (s : State) (e : Entry) : List Byte :=
  entryHeadBytes e ++ optByte e.successStep ++ u8 e.outcomes.length ++
    e.outcomes.flatMap fun o => outcomeBytes (copyCount s e.track o.sector) o

/-- GET_ENTRY acts (R183). -/
def takeGetEntry (p : List Byte) (s : State) : State :=
  match entryOf (trackOf p) s with
  | some e => answer .ok 0x11 (entryReport s e) s
  | none => refuse .notFound 0x11 s

/-- GET_ENTRY, 11h (R183). -/
def execGetEntry (s : State) : Host.Outcome State Fault Refusal :=
  .next (takeRequest 0x11 takeGetEntry s)

/-- MARK_EXPORTED acts on the entry and the frame of the track, whichever exist (R127, R140, R184); bits 2 to 7 of its
flags are 0 (log entry 53). -/
def takeMarkExported (p : List Byte) (s : State) : State :=
  let t := trackOf p
  let marked := (entryOf t s).isSome
  let cleared := (frameOf t s).isSome
  if marked || cleared then
    answer .ok 0x12 (u8 (flagBit marked 0 + flagBit cleared 1))
      (arbitrate (updFrame t clearExport (updEntry t (fun e => { e with exported := true }) s)))
  else refuse .notFound 0x12 s

/-- MARK_EXPORTED, 12h (R184). -/
def execMarkExported (s : State) : Host.Outcome State Fault Refusal :=
  .next (takeRequest 0x12 takeMarkExported s)

/-! ### Images (R185, R186) -/

/-- The best weight a record holds, 0 for none (R113, R205). -/
def SectorRec.bestWeight : SectorRec → Nat
  | .opened _ w => w
  | .failed (some (_, w)) => w
  | _ => 0

/-- A READ_SECTOR report (R185, R211); bits 2 to 7 of its flags are 0 (log entry 53). -/
def sectorReport (r : SectorRec) (overlaid : Bool) : List Byte :=
  u8 (sectorStateByte r) ++ u8 r.bestWeight ++ u8 (flagBit r.words.isSome 0 + flagBit overlaid 1) ++
    (r.words.map dataBytes).getD []

/-- READ_SECTOR acts: RANGE, NOT_FOUND, or the report with the frame refreshed (R185, R123). -/
def takeReadSector (p : List Byte) (s : State) : State :=
  let a := sectorOf p
  if inGeometry s a.track && decide (a.sector < s.geom.sectors) then
    match frameOf a.track s with
    | some f =>
      answer .ok 0x13 (sectorReport (f.sectors.getD a.sector .empty) (overlayOf a s).isSome)
        (refreshFrame a.track s)
    | none => refuse .notFound 0x13 s
  else refuse .range 0x13 s

/-- READ_SECTOR, 13h (R185). -/
def execReadSector (s : State) : Host.Outcome State Fault Refusal :=
  .next (takeRequest 0x13 takeReadSector s)

/-- A frame record of LIST_FRAMES, at a rank of the use order (R186, R212); bits 4 to 7 of its flags are 0 (log entry
53). -/
def frameBytes (s : State) (f : Frame) (rank : Nat) : List Byte :=
  trackBytes f.track ++ u8 rank ++
    u8 (flagBit f.exportPending 0 + flagBit (currentPin s f) 1 + flagBit (jobPin s f) 2 + flagBit (exportPin s f) 3) ++
    [0, 1, 2, 3, 4].flatMap fun k => u8 (f.sectors.countP fun r => sectorStateByte r == k)

/-- A LIST_FRAMES report, in use order (R186, R211). -/
def framesReport (s : State) : List Byte :=
  u8 s.tks.frames.length ++ (s.tks.frames.zipIdx 1).flatMap fun x => frameBytes s x.1 x.2

/-- LIST_FRAMES, 14h (R186). -/
def execListFrames (s : State) : Host.Outcome State Fault Refusal :=
  .next (takeRequest 0x14 (fun _ s => answer .ok 0x14 (framesReport s) s) s)

/-! ### Jobs (R188) -/

/-- The milliseconds from `now` until an expiry falls. -/
def msLeft (now : Timer) (e : Expiry) : Nat :=
  e.length - elapsed now e.start

/-- The milliseconds to a job's cooldown expiry, 0 unless COOLING (R111, R212). -/
def msToCooldown (now : Timer) (j : Job) : Nat :=
  match j.state, j.cooldown with
  | .cooling, some e => msLeft now e
  | _, _ => 0

/-- A job record of LIST_JOBS (R188, R212); bits 2 to 7 of its flags are 0 (log entry 53). -/
def jobBytes (now : Timer) (j : Job) : List Byte :=
  trackBytes j.track ++ u8 (originByte j.origin) ++ u8 (jobStateByte j.state) ++ u8 j.step ++ u8 j.done ++
    u8 j.cycle ++ u16 j.counter ++ u8 (flagBit j.starved 0 + flagBit j.fill 1) ++ u16 (msToCooldown now j) ++
    u8 j.tallies.length ++ j.tallies.flatMap tallyBytes

/-- A LIST_JOBS report, in queue order (R188, R211). -/
def jobsReport (s : State) : List Byte :=
  u8 s.jbq.jobs.length ++ s.jbq.jobs.flatMap (jobBytes s.clock.uptime)

/-- LIST_JOBS, 23h (R188). -/
def execListJobs (s : State) : Host.Outcome State Fault Refusal :=
  .next (takeRequest 0x23 (fun _ s => answer .ok 0x23 (jobsReport s) s) s)

/-! ### The overlay (R164, R189) -/

/-- LIST_OVERLAY, 30h (R189). -/
def execListOverlay (s : State) : Host.Outcome State Fault Refusal :=
  .next (takeRequest 0x30
    (fun _ s => answer .ok 0x30 (u8 s.ovl.entries.length ++ s.ovl.entries.flatMap overlayBytes) s) s)

/-- READ_OVERLAY acts (R189). -/
def takeReadOverlay (p : List Byte) (s : State) : State :=
  match overlayOf (sectorOf p) s with
  | some e => answer .ok 0x31 (u8 e.writes ++ dataBytes (withCheck e.data)) s
  | none => refuse .notFound 0x31 s

/-- READ_OVERLAY, 31h (R189). -/
def execReadOverlay (s : State) : Host.Outcome State Fault Refusal :=
  .next (takeRequest 0x31 takeReadOverlay s)

/-- An overlay entry is removed; the others keep their order (R163, R164). -/
def dropOverlayEntry (a : SectorAddr) (o : Ovl) : Ovl :=
  { o with entries := o.entries.filter fun e => e.addr != a }

/-- DROP_OVERLAY acts (R164, R189). -/
def takeDropOverlay (p : List Byte) (s : State) : State :=
  match overlayOf (sectorOf p) s with
  | some e => answer .ok 0x32 (overlayBytes e) (s.updOvl (dropOverlayEntry (sectorOf p)))
  | none => refuse .notFound 0x32 s

/-- DROP_OVERLAY, 32h (R189). -/
def execDropOverlay (s : State) : Host.Outcome State Fault Refusal :=
  .next (takeRequest 0x32 takeDropOverlay s)

/-! ### GET_SETTINGS (R192) -/

/-- The 69 bytes of a GET_SETTINGS report (R192, R211). -/
def settingsReport (s : State) : List Byte :=
  geometryBytes s.geom ++ rotationBytes s.ixm.rot ++ readBytes s.rdc.headerOffset s.rdc.slipLimit ++
    voteBytes s.vte.copyLimit s.vte.minMargin ++ s.jbq.ladder.flatMap ladderBytes ++
    shapeBytes s.jbq.length s.jbq.repeats s.jbq.cooldown ++ driveBytes s.dsq.set ++
    portBytes s.mcp.holdLimit s.tks.exportHold s.mcp.attnPulse

/-- GET_SETTINGS, 48h (R192). -/
def execGetSettings (s : State) : Host.Outcome State Fault Refusal :=
  .next (takeRequest 0x48 (fun _ s => answer .ok 0x48 (settingsReport s) s) s)

end Sys2Proof.Machine
end

