-- ==== Sys2Proof/Machine/Settings.lean ====
section
/-! DEFINITION. The requests that store settings (R17, R44, R59, R85, R90, R91, R165, R177, R190, R191). -/

namespace Sys2Proof.Machine

/-! ### SET_GEOMETRY (R190) -/

/-- The geometry a payload carries (R210). -/
def geometryOf (p : List Byte) : Geometry :=
  ⟨pairAt p 0, byteAt p 2, byteAt p 3⟩

/-- A geometry whose three values lie in their ranges (R190). -/
def Geometry.inRange (g : Geometry) : Bool :=
  decide (1 ≤ g.cylinders ∧ g.cylinders ≤ 1024) && decide (1 ≤ g.heads ∧ g.heads ≤ 16) &&
    decide (1 ≤ g.sectors ∧ g.sectors ≤ 32)

/-- The Drive Sequencer is OFFLINE or IDLE (R17, R190). -/
def driveQuiet (s : State) : Bool :=
  s.dsq.state == .offline || s.dsq.state == .idle

/-- A geometry change is allowed: the drive quiet, no job, no frame (R190). -/
def geometryFree (s : State) : Bool :=
  driveQuiet s && s.jbq.jobs.isEmpty && s.tks.frames.isEmpty

/-- A position outside a geometry is forgotten (R22, R190). -/
def keepPosition (g : Geometry) (p : Option Position) : Option Position :=
  p.filter fun p => decide (p.cyl < g.cylinders) && decide (p.head < g.heads)

/-- The port takes a new geometry: 0/0, and a hold unless NOT_READY or DETACHED (R149). -/
def portNewGeometry (s : State) : State :=
  match s.mcp.state with
  | .notReady | .detached => setTrack ⟨0, 0⟩ s
  | _ => startPort s

/-- A geometry is stored (R190). -/
def storeGeometry (g : Geometry) (s : State) : State :=
  let s1 := (s.updGeom fun _ => g).updDsq fun d => { d with position := keepPosition g d.position }
  arbitrate (portNewGeometry s1)

/-- SET_GEOMETRY acts: RANGE, STATE, or the store (R190). -/
def takeSetGeometry (p : List Byte) (s : State) : State :=
  let g := geometryOf p
  if g.inRange then
    if geometryFree s then answer .ok 0x40 (geometryBytes g) (storeGeometry g s)
    else refuse .state 0x40 s
  else refuse .range 0x40 s

/-- SET_GEOMETRY, 40h (R190). -/
def execSetGeometry (s : State) : Host.Outcome State Fault Refusal :=
  .next (takeRequest 0x40 takeSetGeometry s)

/-! ### SET_ROTATION (R17) -/

/-- The rotation settings a payload carries, clamped (R17, R210). -/
def rotationOf (p : List Byte) : RotationSettings :=
  clampRotation ⟨pairAt p 0, byteAt p 2, byteAt p 3, byteAt p 4, byteAt p 5, byteAt p 6⟩

/-- Rotation settings are stored and the monitor restarted (R17). -/
def storeRotation (r : RotationSettings) (s : State) : State :=
  afterEvent (followSpindle (spindleOf s.ixm) (s.updIxm (restartMonitor r)))

/-- SET_ROTATION acts: STATE unless the drive is quiet, or the store (R17). -/
def takeSetRotation (p : List Byte) (s : State) : State :=
  if driveQuiet s then answer .ok 0x41 (rotationBytes (rotationOf p)) (storeRotation (rotationOf p) s)
  else refuse .state 0x41 s

/-- SET_ROTATION, 41h (R17). -/
def execSetRotation (s : State) : Host.Outcome State Fault Refusal :=
  .next (takeRequest 0x41 takeSetRotation s)

/-! ### SET_READ (R59) -/

/-- H0 of a payload, clamped (R48, R59). -/
def headerOffsetOf (p : List Byte) : Nat :=
  clampNat 0 2000 (pairAt p 0)

/-- L_slip of a payload, clamped (R48, R59). -/
def slipLimitOf (p : List Byte) : Nat :=
  clampNat 10 2000 (pairAt p 2)

/-- SET_READ acts (R59). -/
def takeSetRead (p : List Byte) (s : State) : State :=
  answer .ok 0x42 (readBytes (headerOffsetOf p) (slipLimitOf p))
    (s.updRdc fun r => { r with headerOffset := headerOffsetOf p, slipLimit := slipLimitOf p })

/-- SET_READ, 42h (R59). -/
def execSetRead (s : State) : Host.Outcome State Fault Refusal :=
  .next (takeRequest 0x42 takeSetRead s)

/-! ### SET_VOTE (R85, R67) -/

/-- K of a payload, clamped (R85). -/
def copyLimitOf (p : List Byte) : Nat :=
  clampNat 3 5 (byteAt p 0)

/-- M_min of a payload, clamped (R85). -/
def minMarginOf (p : List Byte) : Nat :=
  clampNat 0 40 (byteAt p 1)

/-- K and M_min are stored, and lists above K trimmed (R67, R85). -/
def storeVote (copyLimit minMargin : Nat) (s : State) : State :=
  (s.updVte fun v => { v with copyLimit := copyLimit, minMargin := minMargin }).updCps (trimLists copyLimit)

/-- SET_VOTE acts (R85). -/
def takeSetVote (p : List Byte) (s : State) : State :=
  answer .ok 0x43 (voteBytes (copyLimitOf p) (minMarginOf p)) (storeVote (copyLimitOf p) (minMarginOf p) s)

/-- SET_VOTE, 43h (R85). -/
def execSetVote (s : State) : Host.Outcome State Fault Refusal :=
  .next (takeRequest 0x43 takeSetVote s)

/-! ### SET_LADDER_STEP and SET_LADDER_SHAPE (R90, R91) -/

/-- The step record of a payload, clamped (R88, R90). -/
def ladderRecordOf (p : List Byte) : LadderStep :=
  ⟨clampInt (-3) 3 (signedAt p 1), clampInt (-4) 4 (signedAt p 2), clampNat 1 4 (byteAt p 3)⟩

/-- SET_LADDER_STEP acts: RANGE for a step number outside 1..12 (R90). -/
def takeSetLadderStep (p : List Byte) (s : State) : State :=
  if 1 ≤ byteAt p 0 ∧ byteAt p 0 ≤ 12 then
    answer .ok 0x44 (u8 (byteAt p 0) ++ ladderBytes (ladderRecordOf p))
      (s.updJbq fun q => { q with ladder := q.ladder.set (byteAt p 0 - 1) (ladderRecordOf p) })
  else refuse .range 0x44 s

/-- SET_LADDER_STEP, 44h (R90). -/
def execSetLadderStep (s : State) : Host.Outcome State Fault Refusal :=
  .next (takeRequest 0x44 takeSetLadderStep s)

/-- Lz of a payload, clamped (R89, R91). -/
def ladderLengthOf (p : List Byte) : Nat :=
  clampNat 1 12 (byteAt p 0)

/-- R of a payload, clamped (R89, R91). -/
def repeatsOf (p : List Byte) : Nat :=
  clampNat 0 3 (byteAt p 1)

/-- The cooldown of a payload, clamped (R89, R91). -/
def cooldownOf (p : List Byte) : Nat :=
  clampNat 0 60000 (pairAt p 2)

/-- SET_LADDER_SHAPE acts (R91). -/
def takeSetLadderShape (p : List Byte) (s : State) : State :=
  answer .ok 0x45 (shapeBytes (ladderLengthOf p) (repeatsOf p) (cooldownOf p))
    (s.updJbq fun q => { q with length := ladderLengthOf p, repeats := repeatsOf p, cooldown := cooldownOf p })

/-- SET_LADDER_SHAPE, 45h (R91). -/
def execSetLadderShape (s : State) : Host.Outcome State Fault Refusal :=
  .next (takeRequest 0x45 takeSetLadderShape s)

/-! ### SET_DRIVE (R44) -/

/-- The drive settings of a payload, clamped (R19, R44, R210). -/
def driveSettingsOf (p : List Byte) : DriveSettings :=
  ⟨clampNat 10 500 (pairAt p 0), clampNat 0 50 (byteAt p 2), clampNat 0 7 (byteAt p 3), clampNat 1 15 (byteAt p 4),
    clampNat 1 600 (pairAt p 5), flagAt p 7⟩

/-- SET_DRIVE acts; prefetch set on may make a candidate at once (R25, R44). -/
def takeSetDrive (p : List Byte) (s : State) : State :=
  answer .ok 0x46 (driveBytes (driveSettingsOf p))
    (arbitrate (s.updDsq fun d => { d with set := driveSettingsOf p }))

/-- SET_DRIVE, 46h (R44). -/
def execSetDrive (s : State) : Host.Outcome State Fault Refusal :=
  .next (takeRequest 0x46 takeSetDrive s)

/-! ### SET_PORT (R165) -/

/-- The hold limit of a payload, clamped (R165). -/
def holdLimitOf (p : List Byte) : Nat :=
  clampNat 0 2000 (pairAt p 0)

/-- The three SET_PORT settings are stored; the attention line follows a change of mode (R127, R165, R200). -/
def storePort (holdLimit : Nat) (exportHold attnPulse : Bool) (s : State) : State :=
  let s1 := s.updEvq (setAttentionMode s.mcp.attnPulse attnPulse)
  let s2 := s1.updMcp fun m => { m with holdLimit := holdLimit, attnPulse := attnPulse }
  s2.updTks fun k => { k with exportHold := exportHold }

/-- SET_PORT acts; export hold set off may free a frame for a claim (R25, R165). -/
def takeSetPort (p : List Byte) (s : State) : State :=
  answer .ok 0x47 (portBytes (holdLimitOf p) (flagAt p 2) (flagAt p 3))
    (arbitrate (storePort (holdLimitOf p) (flagAt p 2) (flagAt p 3) s))

/-- SET_PORT, 47h (R165). -/
def execSetPort (s : State) : Host.Outcome State Fault Refusal :=
  .next (takeRequest 0x47 takeSetPort s)

end Sys2Proof.Machine
end

