-- ==== Sys2Proof/Machine/JobRequests.lean ====
section
/-! DEFINITION. The job requests: QUEUE_TRACK, RETRY_TRACK and CANCEL_JOB (R99 to R102, R109, R187). -/

namespace Sys2Proof.Machine

/-- After a job request: a hold may end by resolution, and an IDLE sequencer grants (R25, R153). -/
def afterJobs (s : State) : State :=
  arbitrate (testHold s)

/-- A job's queue position, counted from 1 (R187). -/
def queuePosition (t : Track) (s : State) : Nat :=
  s.jbq.jobs.findIdx (fun j => j.track == t) + 1

/-- A STATION job as its request creates it: QUEUED, counters 0, tallies zero (R99, R100, R102). -/
def stationJob (t : Track) (holdsFrame fill : Bool) (step first : Nat) (open_ : List Nat) : Job :=
  ⟨t, .station, .queued, holdsFrame, zeroTallies open_, step, first, fill, 0, 0, 0, none, false⟩

/-- STATION-origin jobs already hold six frames (R93). -/
def stationLimit (s : State) : Bool :=
  decide (Config.stationFrames ≤ stationFramesHeld s)

/-- The first step of a job from its start step (R99, R100). -/
def firstStep (start : Nat) : Nat :=
  if start = 0 then 1 else start

/-- A STATION job over a kept frame is created: its FAILED sectors reopen, and the entry is reopened or created
(R100, R102, R120, R133, R135). -/
def createKeptJob (t : Track) (f : Frame) (step : Nat) (s : State) : State :=
  let failed := sectorsWhere SectorRec.isFailed f
  let s1 := addJob (stationJob t true false step (firstStep step) failed) s
  let s2 := updFrame t Frame.reopen s1
  match entryOf t s with
  | some _ => updEntry t (reopenKept failed) s2
  | none => createEntry t .station .opened 0 false (pendingOutcomes failed) s2

/-- A frameless STATION job is created: its fill is pending over every sector, and an entry the track has is
reopened (R99, R135). -/
def createFramelessJob (t : Track) (start : Nat) (s : State) : State :=
  let s1 := addJob (stationJob t false true 0 (firstStep start) (List.range s.geom.sectors)) s
  updEntry t reopenFrameless s1

/-! ### QUEUE_TRACK (R99 to R101, R187) -/

/-- The response to a QUEUE_TRACK that created or merged, with the queue position (R187, R211). -/
def queueAnswer (outcome : Nat) (t : Track) (s : State) : State :=
  answer .ok 0x20 (u8 outcome ++ u8 (queuePosition t s)) s

/-- A QUEUE_TRACK merges into the track's job (R101). -/
def mergeJob (j : Job) (s : State) : State :=
  if j.origin = .station then queueAnswer 1 j.track s
  else if j.holdsFrame && stationLimit s then refuse .full 0x20 s
  else
    queueAnswer 1 j.track
      (afterJobs (updEntry j.track (Entry.setOrigin .station)
        (updJob j.track (fun j => { j with origin := .station }) s)))

/-- A QUEUE_TRACK finds the track's frame and no job (R100). -/
def queueKept (t : Track) (start : Nat) (f : Frame) (s : State) : State :=
  if stationLimit s then refuse .full 0x20 s
  else if (sectorsWhere SectorRec.isFailed f).isEmpty then
    answer .ok 0x20 (u8 2 ++ u8 0) (offer .jobClean (some t) 0 s)
  else queueAnswer 0 t (afterJobs (createKeptJob t f start s))

/-- QUEUE_TRACK acts, with its checks in order (R99). -/
def takeQueueTrack (p : List Byte) (s : State) : State :=
  let t := trackOf p
  let start := byteAt p 3
  if inGeometry s t && decide (start ≤ s.jbq.length) then
    match jobOf t s with
    | some j => mergeJob j s
    | none =>
      if Config.jobSlots ≤ s.jbq.jobs.length then refuse .full 0x20 s
      else
        match frameOf t s with
        | some f => queueKept t start f s
        | none => queueAnswer 0 t (afterJobs (createFramelessJob t start s))
  else refuse .range 0x20 s

/-- QUEUE_TRACK, 20h (R99). -/
def execQueueTrack (s : State) : Host.Outcome State Fault Refusal :=
  .next (takeRequest 0x20 takeQueueTrack s)

/-! ### RETRY_TRACK (R102, R187) -/

/-- The STATE tests of RETRY_TRACK: the entry PARTIAL, a frame, no job, a FAILED sector (R102). -/
def retryAllowed (t : Track) (e : Entry) (s : State) : Bool :=
  e.state == .incomplete && (jobOf t s).isNone &&
    (frameOf t s).any fun f => !(sectorsWhere SectorRec.isFailed f).isEmpty

/-- RETRY_TRACK acts, with its tests in order (R102). -/
def takeRetryTrack (p : List Byte) (s : State) : State :=
  let t := trackOf p
  if inGeometry s t then
    match entryOf t s, frameOf t s with
    | some e, some f =>
      if retryAllowed t e s then
        if decide (Config.jobSlots ≤ s.jbq.jobs.length) || stationLimit s then refuse .full 0x21 s
        else
          let s1 := afterJobs (createKeptJob t f 1 s)
          answer .ok 0x21 (u8 (queuePosition t s1)) s1
      else refuse .state 0x21 s
    | some _, none => refuse .state 0x21 s
    | none, _ => refuse .notFound 0x21 s
  else refuse .range 0x21 s

/-- RETRY_TRACK, 21h (R102). -/
def execRetryTrack (s : State) : Host.Outcome State Fault Refusal :=
  .next (takeRequest 0x21 takeRetryTrack s)

/-! ### CANCEL_JOB (R109, R187) -/

/-- The grant a cancelled job holds ends: a pass in flight is aborted and a wait for the mark given up, the sequencer
entering IDLE; an operation in flight runs on; a running batch is abandoned (R31 to R33, R84, R109). -/
def cancelGrant (t : Track) (s : State) : State :=
  match s.dsq.grant with
  | some g =>
    if g.kind = .jobPass ∧ g.track = t then
      let s1 := setGrant none (endPassContext s)
      let s2 := if g.phase = .voting then s1.updVte fun v => { v with batch := none } else s1
      if s.dsq.state = .reading ∨ s.dsq.state = .voting then setDsqState .idle s2 else s2
    else s
  | none => s

/-- A job is cancelled: its grant ends, and the job ends with reason CANCELLED; a job with its fill pending closes
its entry PARTIAL (R109, R136; log entry 14). -/
def cancelJob (j : Job) (s : State) : State :=
  afterJobs (endJob (.cause .cancelled) j.fill false j (cancelGrant j.track s))

/-- CANCEL_JOB acts (R109). -/
def takeCancelJob (p : List Byte) (s : State) : State :=
  let t := trackOf p
  if inGeometry s t then
    match jobOf t s with
    | some j => answer .ok 0x22 (u8 (failedByEnd j s)) (cancelJob j s)
    | none => refuse .notFound 0x22 s
  else refuse .range 0x22 s

/-- CANCEL_JOB, 22h (R109). -/
def execCancelJob (s : State) : Host.Outcome State Fault Refusal :=
  .next (takeRequest 0x22 takeCancelJob s)

end Sys2Proof.Machine
end

