-- ==== Sys2Proof/Machine/Control.lean ====
section
/-! DEFINITION. CLEAR_FENCE, REST_DRIVE, BYPASS, SOFT_RESET and POWER_ON_RESET (R39 to R43, R46, R47, R193, R194). -/

namespace Sys2Proof.Machine

/-! ### CLEAR_FENCE (R39) -/

/-- A recorded fence is cleared: F and the quiet expiry with it, FENCE_CLEARED queued, and a FENCED sequencer
drives unit select active again and recalibrates (R36, R39). A line that another master holds inactive differs from that
level, and raises a fence in its turn (R20, R37; log entry 46). -/
def clearFence (c : FenceCause) (s : State) : State :=
  let s1 := s.updDsq fun d => { d with fence := none, faults := 0, quiet := none }
  let s2 := offer .fenceCleared none (causeByte c) s1
  if s.dsq.state = .fenced then watchSelect (afterEvent (beginRecalibrate s2)) else s2

/-- CLEAR_FENCE acts: STATE while the fault line is asserted or contention is seen (R39). -/
def takeClearFence (s : State) : State :=
  if s.pins.driveFault || contentionNow s then refuse .state 0x50 s
  else
    match s.dsq.fence with
    | some c => answer .ok 0x50 (u8 (causeByte c)) (clearFence c s)
    | none => answer .ok 0x50 (u8 0) s

/-- CLEAR_FENCE, 50h (R39). -/
def execClearFence (s : State) : Host.Outcome State Fault Refusal :=
  .next (takeRequest 0x50 (fun _ s => takeClearFence s) s)

/-! ### REST_DRIVE (R40, R41) -/

/-- The duration of a REST_DRIVE, clamped (R40). -/
def restOf (p : List Byte) : Nat :=
  clampNat 0 60000 (pairAt p 0)

/-- A rest begins; one of 0 ms ends at once (R40, R41). -/
def restDrive (ms : Nat) (s : State) : State :=
  let s1 := (abandonWork s).updDsq fun d =>
    { d with state := .resting, position := none, expiry := some (uptimeExpiry s ms) }
  afterEvent (if ms = 0 then beginRecalibrate s1 else s1)

/-- REST_DRIVE acts: STATE when FENCED or DETACHED (R40). -/
def takeRestDrive (p : List Byte) (s : State) : State :=
  if s.dsq.state = .fenced ∨ s.dsq.state = .detached then refuse .state 0x51 s
  else answer .ok 0x51 (u16 (restOf p)) (restDrive (restOf p) s)

/-- REST_DRIVE, 51h (R40). -/
def execRestDrive (s : State) : Host.Outcome State Fault Refusal :=
  .next (takeRequest 0x51 takeRestDrive s)

/-! ### BYPASS (R42, R43, R148) -/

/-- The relay closes: the sequencer and the port become DETACHED (R42, R148). -/
def bypassOn (s : State) : State :=
  ((abandonWork s).updDsq fun d => { d with state := .detached, position := none, bypass := true }).updMcp
    (leaveFor .detached)

/-- BYPASS on acts (R42). -/
def takeBypassOn (s : State) : State :=
  answer .ok 0x52 (u8 1) (if s.dsq.bypass then s else bypassOn s)

/-- BYPASS_ON, 52h with a nonzero operand (R42, R177). -/
def execBypassOn (s : State) : Host.Outcome State Fault Refusal :=
  .next (takeRequest 0x52 (fun p s => if flagAt p 0 then takeBypassOn s else s) s)

/-- The sequencer's part of BYPASS off: FENCED with a fence recorded, a fence raised, or a recalibrate (R43). Contention
is seen where another master holds inactive the line that is driven active again (R20). The drive fault is looked at
before contention (log entry 20). -/
def reattachDrive (s : State) : State :=
  let s1 := s.updDsq fun d => { d with bypass := false, position := none }
  if s.dsq.fence.isSome then setDsqState .fenced s1
  else if s.pins.driveFault then raiseFence .driveFault s s1
  else if s.pins.selectHeld = some false then raiseFence .contention s s1
  else beginRecalibrate s1

/-- The port's part of BYPASS off (R148). Where it enters NOT_READY the current track is kept: R148 sets 0/0 only where it
does not, although R149 lists the leaving of DETACHED without that condition (DEDUCED, log entry 50). -/
def reattachPort (s : State) : State :=
  if readyToServe s then startPort s else s.updMcp (leaveFor .notReady)

/-- BYPASS off acts (R43). -/
def takeBypassOff (s : State) : State :=
  answer .ok 0x52 (u8 0) (if s.dsq.bypass then arbitrate (reattachPort (reattachDrive s)) else s)

/-- BYPASS_OFF, 52h with the operand 0 (R43, R177). -/
def execBypassOff (s : State) : Host.Outcome State Fault Refusal :=
  .next (takeRequest 0x52 (fun p s => if flagAt p 0 then s else takeBypassOff s) s)

/-! ### SOFT_RESET (R194) -/

/-- Every job ends, with reason CANCELLED, its entry PARTIAL and no event (R112). -/
def resetJobs (s : State) : State :=
  s.jbq.jobs.foldl (fun s j => endJob (.cause .cancelled) true true j s) s

/-- The state the Drive Sequencer enters at SOFT_RESET (R47). -/
def resetDsqState (d : Dsq) : DsqState :=
  if d.bypass then .detached else if d.fence.isSome then .fenced else .offline

/-- The Drive Sequencer's part (R47). -/
def resetDsq (d : Dsq) : Dsq :=
  { d with
    state := resetDsqState d, position := none, grant := none, seekTarget := none, faults := 0, expiry := none
    quiet := none }

/-- The Read Channel's part (R60). -/
def resetRdc (r : Rdc) : Rdc :=
  { r with pass := none, assembly := none, shift := 0 }

/-- The Machine Port's part (R167). -/
def resetMcp (bypass : Bool) (m : Mcp) : Mcp :=
  { m with
    state := if bypass then .detached else .notReady, track := ⟨0, 0⟩, hold := none, activity := .none }

/-- The frames that the reset invalidates with export-pending set (R204). -/
def pendingImages (k : Tks) : Nat :=
  k.frames.countP Frame.exportPending

/-- The blocks' parts of SOFT_RESET, the jobs ended before the frames are invalidated (R18, R47, R60, R69, R87, R112,
R129, R167, R178, R194). -/
def resetBlocks (s : State) : State :=
  let s1 := resetJobs s
  { s1 with
    ixm := restartMonitor s.ixm.rot s.ixm
    dsq := resetDsq s.dsq
    rdc := resetRdc s.rdc
    cps := ⟨[]⟩
    vte := { s.vte with batch := none }
    jbq := { s1.jbq with jobs := [], fetch := none }
    tks := { s1.tks with frames := [] }
    mcp := resetMcp s.dsq.bypass s.mcp
    stl := { s.stl with collision := false } }

/-- SOFT_RESET acts: the blocks' parts, then RESET_DONE (R194, R204). -/
def softReset (s : State) : State :=
  offer .resetDone none (pendingImages (resetJobs s).tks) (resetBlocks s)

/-- SOFT_RESET, 5Fh (R194). -/
def execSoftReset (s : State) : Host.Outcome State Fault Refusal :=
  .next (takeRequest 0x5F (fun _ s => answer .ok 0x5F [] (softReset s)) s)

/-! ### POWER_ON_RESET (R46) -/

/-- The transfer at the release of the reset line: one whose select fell before is ignored to its end (R178). -/
def transferAfterReset : Transfer → Transfer
  | .none => .none
  | _ => .ignored

/-- Every block in its reset state; the input lines and the waiting commands are the outside's (log entry 32). A pulse
begun and not yet qualified starts afresh, and one already taken stays taken (R3, R18). -/
def powerOn (s : State) : State :=
  { State.reset with
    pins := s.pins
    ixm := { State.reset.ixm with line := ⟨0, s.ixm.line.taken, none⟩ }
    stl := { State.reset.stl with transfer := transferAfterReset s.stl.transfer }
    pending := s.pending }

/-- POWER_ON_RESET: with the fault line asserted, or contention seen on the select line now driven active, a fence is
raised at once (R20, R37, R46). -/
def execPowerOnReset (s : State) : Host.Outcome State Fault Refusal :=
  .next <|
    if s.pins.driveFault then raiseFence .driveFault (powerOn s) (powerOn s)
    else if s.pins.selectHeld = some false then raiseFence .contention (powerOn s) (powerOn s)
    else powerOn s

end Sys2Proof.Machine
end

