-- ==== Sys2Proof/Machine/Tick.lean ====
section
/-! DEFINITION. What falls due of itself: the expiry, pulse or index that the block takes when no command waits
(R1, R4, R150, R200; log entries 1 to 3). -/

namespace Sys2Proof.Machine

/-- A command, if its condition holds. -/
def whenDue (b : Bool) (c : Instr) : Option Instr :=
  if b then some c else none

/-- The expiry of the first job in queue order whose cooldown has fallen (R106). -/
def cooldownFallen (s : State) : Option Instr :=
  (s.jbq.jobs.find? fun j => cooldownDue j s).map fun j => .cooldownExpiry j.track.cyl j.track.head

/-- The command of the first expiry, in the fixed order of log entry 3, that has fallen and has not been taken. -/
def dueCommand (s : State) : Option Instr :=
  (whenDue (windowDue .startup s) .startupWindowExpiry).orElse fun _ =>
  (whenDue (windowDue .closed s) .closedWindowExpiry).orElse fun _ =>
  (whenDue (windowDue .opened s) .openWindowExpiry).orElse fun _ =>
  (whenDue (windowDue .resync s) .resyncLimitExpiry).orElse fun _ =>
  (whenDue (operationDue .seeking s) .seekTimeoutExpiry).orElse fun _ =>
  (whenDue (operationDue .recalibrating s) .recalibrateTimeoutExpiry).orElse fun _ =>
  (whenDue (operationDue .settling s) .settleWaitEnd).orElse fun _ =>
  (whenDue (operationDue .resting s) .restEnd).orElse fun _ =>
  (whenDue (dueAt s.dsq.quiet s.clock.uptime) .quietExpiry).orElse fun _ =>
  (cooldownFallen s).orElse fun _ =>
  (whenDue (s.mcp.state == .seeking && dueAt s.mcp.hold s.clock.uptime) .holdExpiry).orElse fun _ =>
  (whenDue (emulatedIndexDue s) .emulatedIndex).orElse fun _ =>
  (whenDue (sectorPulseDue s) .sectorPulse).orElse fun _ =>
  (whenDue (pulseDue s.clock.rotationTimer s.evq) .attentionPulseEnd).orElse fun _ =>
  whenDue (gapDue s.clock.rotationTimer s.evq) .attentionGapEnd

/-- A microsecond passes at the index line (log entry 6). -/
def tickLine (x : Ixm) : Ixm :=
  { x with line := x.line.tick }

/-- One microsecond passes, nothing being due (R1; log entry 1). -/
def passTime (s : State) : State :=
  (s.updClock advanceClock).updIxm tickLine

end Sys2Proof.Machine
end

