-- ==== Sys2Proof/Machine/Dispatch.lean ====
section
/-! DEFINITION. One arm for each command: its meaning. -/

namespace Sys2Proof.Machine

/-- The effect of a command on everything but the queue of commands. -/
def exec (i : Instr) (s : State) : Host.Outcome State Fault Refusal :=
  match i with
  | .powerOnReset => Sys2Proof.Machine.execPowerOnReset s
  | .indexQualified asserted => Sys2Proof.Machine.execIndexQualified asserted s
  | .startupWindowExpiry => Sys2Proof.Machine.execStartupWindowExpiry s
  | .closedWindowExpiry => Sys2Proof.Machine.execClosedWindowExpiry s
  | .openWindowExpiry => Sys2Proof.Machine.execOpenWindowExpiry s
  | .resyncLimitExpiry => Sys2Proof.Machine.execResyncLimitExpiry s
  | .seekComplete current => Sys2Proof.Machine.execSeekComplete current s
  | .seekError => Sys2Proof.Machine.execSeekError s
  | .seekTimeoutExpiry => Sys2Proof.Machine.execSeekTimeoutExpiry s
  | .recalibrateTimeoutExpiry => Sys2Proof.Machine.execRecalibrateTimeoutExpiry s
  | .settleWaitEnd => Sys2Proof.Machine.execSettleWaitEnd s
  | .restEnd => Sys2Proof.Machine.execRestEnd s
  | .quietExpiry => Sys2Proof.Machine.execQuietExpiry s
  | .driveFaultAsserted line => Sys2Proof.Machine.execDriveFaultAsserted line s
  | .contentionSeen held => Sys2Proof.Machine.execContentionSeen held s
  | .header markTime cylinder head sector check outside => Sys2Proof.Machine.execHeader markTime cylinder head sector check outside s
  | .copySeal data check outside => Sys2Proof.Machine.execCopySeal data check outside s
  | .batchCompletion => Sys2Proof.Machine.execBatchCompletion s
  | .cooldownExpiry cylinder head => Sys2Proof.Machine.execCooldownExpiry cylinder head s
  | .holdExpiry => Sys2Proof.Machine.execHoldExpiry s
  | .emulatedIndex => Sys2Proof.Machine.execEmulatedIndex s
  | .sectorPulse => Sys2Proof.Machine.execSectorPulse s
  | .seek cylinder => Sys2Proof.Machine.execSeek cylinder s
  | .head number => Sys2Proof.Machine.execHead number s
  | .recalibrate => Sys2Proof.Machine.execRecalibrate s
  | .read => Sys2Proof.Machine.execRead s
  | .write => Sys2Proof.Machine.execWrite s
  | .writeDataComplete data => Sys2Proof.Machine.execWriteDataComplete data s
  | .faultClear => Sys2Proof.Machine.execFaultClear s
  | .transferStart => Sys2Proof.Machine.execTransferStart s
  | .requestCodeByte code => Sys2Proof.Machine.execRequestCodeByte code s
  | .frameComplete length payload check => Sys2Proof.Machine.execFrameComplete length payload check s
  | .selectRise => Sys2Proof.Machine.execSelectRise s
  | .fetchFirstByte => Sys2Proof.Machine.execFetchFirstByte s
  | .responseReleased => Sys2Proof.Machine.execResponseReleased s
  | .unknownRequest => Sys2Proof.Machine.execUnknownRequest s
  | .status => Sys2Proof.Machine.execStatus s
  | .getEvents => Sys2Proof.Machine.execGetEvents s
  | .getSnapshot => Sys2Proof.Machine.execGetSnapshot s
  | .getStats => Sys2Proof.Machine.execGetStats s
  | .clearStats => Sys2Proof.Machine.execClearStats s
  | .listEntries => Sys2Proof.Machine.execListEntries s
  | .getEntry => Sys2Proof.Machine.execGetEntry s
  | .markExported => Sys2Proof.Machine.execMarkExported s
  | .readSector => Sys2Proof.Machine.execReadSector s
  | .listFrames => Sys2Proof.Machine.execListFrames s
  | .queueTrack => Sys2Proof.Machine.execQueueTrack s
  | .retryTrack => Sys2Proof.Machine.execRetryTrack s
  | .cancelJob => Sys2Proof.Machine.execCancelJob s
  | .listJobs => Sys2Proof.Machine.execListJobs s
  | .listOverlay => Sys2Proof.Machine.execListOverlay s
  | .readOverlay => Sys2Proof.Machine.execReadOverlay s
  | .dropOverlay => Sys2Proof.Machine.execDropOverlay s
  | .setGeometry => Sys2Proof.Machine.execSetGeometry s
  | .setRotation => Sys2Proof.Machine.execSetRotation s
  | .setRead => Sys2Proof.Machine.execSetRead s
  | .setVote => Sys2Proof.Machine.execSetVote s
  | .setLadderStep => Sys2Proof.Machine.execSetLadderStep s
  | .setLadderShape => Sys2Proof.Machine.execSetLadderShape s
  | .setDrive => Sys2Proof.Machine.execSetDrive s
  | .setPort => Sys2Proof.Machine.execSetPort s
  | .getSettings => Sys2Proof.Machine.execGetSettings s
  | .clearFence => Sys2Proof.Machine.execClearFence s
  | .restDrive => Sys2Proof.Machine.execRestDrive s
  | .bypassOn => Sys2Proof.Machine.execBypassOn s
  | .bypassOff => Sys2Proof.Machine.execBypassOff s
  | .softReset => Sys2Proof.Machine.execSoftReset s
  | .attentionPulseEnd => Sys2Proof.Machine.execAttentionPulseEnd s
  | .attentionGapEnd => Sys2Proof.Machine.execAttentionGapEnd s
  | .frameError => Sys2Proof.Machine.execFrameError s
  | .unitSelect active => Sys2Proof.Machine.execUnitSelect active s

end Sys2Proof.Machine
end

