-- ==== Sys2Proof/Machine/Step.lean ====
section
/-! DEFINITION. One step: the command at the front of the queue, or, on an empty queue, what has fallen due, or one
microsecond. -/

namespace Sys2Proof.Machine

/-- A step with no command waiting: an expiry that has fallen is taken, and otherwise a microsecond passes (R1;
DESIGN CHOICE, log entry 1). -/
def idleStep (s : State) : Host.Outcome State Fault Refusal :=
  match dueCommand s with
  | some c => exec c s
  | none => .next (passTime s)

/-- One step. -/
def step (s : State) : Host.Outcome State Fault Refusal :=
  match s.pending with
  | c :: rest => exec c { s with pending := rest }
  | [] => idleStep s

/-- The state with the command that the word `w` of `nbits` bits spells placed at the front of its queue; the state
unchanged where it spells none, as no row of the table gives bits (log entry 31). -/
def State.withFetchWord (s : State) (nbits w : Nat) : State :=
  match decodeTableWord nbits w with
  | some c => { s with pending := c :: s.pending }
  | none => s

end Sys2Proof.Machine
end

