-- ==== Sys2Proof/Safety.lean ====
section
/-! DEFINITION. The terms in which claims are stated: a request ready to be taken, and what every reachable state
keeps (the collections' limits, the settings' ranges, the drive's withdrawal, the port's readiness, the rotation
average, the attention line, the one response). -/

namespace Sys2Proof.Machine

/-! ### A request ready to be taken -/

/-- The request in progress is intact, carries `code` with the length the code calls for, and its payload is `p`
(R173, R209). -/
def Taking (code : Byte) (p : List Byte) (s : State) : Prop :=
  ∃ r, s.stl.request = some r ∧ r.computed = r.received ∧ r.code = code ∧ requestLength code = some r.length ∧
    r.payload = p

/-! ### What a command may change -/

/-- The blocks of the state. -/
inductive Block where
  | clock
  | pins
  | geom
  | ixm
  | dsq
  | rdc
  | cps
  | vte
  | jbq
  | tks
  | rct
  | mcp
  | ovl
  | stl
  | evq
deriving DecidableEq, Repr

/-- A block stands in `t` as it stands in `s`. -/
def Block.Same (s t : State) : Block → Prop
  | .clock => t.clock = s.clock
  | .pins => t.pins = s.pins
  | .geom => t.geom = s.geom
  | .ixm => t.ixm = s.ixm
  | .dsq => t.dsq = s.dsq
  | .rdc => t.rdc = s.rdc
  | .cps => t.cps = s.cps
  | .vte => t.vte = s.vte
  | .jbq => t.jbq = s.jbq
  | .tks => t.tks = s.tks
  | .rct => t.rct = s.rct
  | .mcp => t.mcp = s.mcp
  | .ovl => t.ovl = s.ovl
  | .stl => t.stl = s.stl
  | .evq => t.evq = s.evq

/-- From `s` to `t` nothing changes but the blocks listed: every other block and the waiting commands stand. -/
def ChangesOnly (bs : List Block) (s t : State) : Prop :=
  t.pending = s.pending ∧ ∀ b : Block, b ∉ bs → b.Same s t

/-- The blocks that the ends of passes, grants and jobs may reach. -/
def driveBlocks : List Block :=
  [.dsq, .rdc, .cps, .vte, .jbq, .tks, .rct, .mcp, .evq]

/-! ### The status byte and the records of a response (R170, R199, R205 to R212) -/

/-- The link status byte `b` reports the state: a bit for each item of R170, and the highest class queued in its two low
bits (R170, R199, R207). -/
def ShowsStatus (b : Byte) (s : State) : Prop :=
  b.getLsbD 7 = s.stl.response.isSome ∧ b.getLsbD 6 = (s.stl.receipt.isSome || s.stl.request.isSome) ∧
  b.getLsbD 5 = s.stl.collision ∧ b.getLsbD 4 = s.evq.overrun ∧ b.getLsbD 3 = s.dsq.fence.isSome ∧
  b.getLsbD 2 = !s.evq.records.isEmpty ∧ (∀ r ∈ s.evq.records, eventClass r.kind ≤ b.toNat % 4) ∧
  (b.toNat % 4 = 0 ∨ ∃ r ∈ s.evq.records, eventClass r.kind = b.toNat % 4)

/-- The byte `n` shows the hold reasons, a bit each, and none outside SEEKING: FETCH, the current track without a frame or
with a fetch or fill of it in flight; RECOVERY, a job on it with open sectors and no fill in flight, a fetch that will
serve as its fill being none (log entry 52); SPINDLE; RESTING; its other bits are 0 (log entry 53) (R155, R208). -/
def ShowsHoldReasons (n : Nat) (s : State) : Prop :=
  (s.mcp.state ≠ .seeking → n = 0) ∧
  (s.mcp.state = .seeking → n < 16 ∧
    (n.testBit 0 = true ↔ frameOf s.mcp.track s = none ∨
      ∃ g, s.dsq.grant = some g ∧ g.track = s.mcp.track ∧ (g.kind ≠ .jobPass ∨ g.fill = true)) ∧
    (n.testBit 1 = true ↔ (∃ j, jobOf s.mcp.track s = some j ∧ j.tallies ≠ []) ∧
      ¬ ∃ g, s.dsq.grant = some g ∧ g.track = s.mcp.track ∧ g.kind = .jobPass ∧ g.fill = true) ∧
    (n.testBit 2 = true ↔ spindleOf s.ixm = .unstable) ∧ (n.testBit 3 = true ↔ s.dsq.state = .resting))

/-- The bytes `b` are records one after another, one laid out for each member of `xs` (R206). -/
def RecordsOf {α : Type} (layout : List Byte → α → Prop) (b : List Byte) (xs : List α) : Prop :=
  ∃ recs : List (List Byte), b = recs.flatten ∧ List.Forall₂ layout recs xs

/-- A track address stands at byte `i` (R205). -/
def TrackAt (b : List Byte) (i : Nat) (t : Track) : Prop :=
  pairAt b i = t.cyl % 65536 ∧ byteAt b (i + 2) = t.head % 256

/-- 256 data words and their check word stand at byte `i` (R205). -/
def DataAt (b : List Byte) (i : Nat) (w : SectorWords) : Prop :=
  (∀ k, k < 256 → pairAt b (i + 2 * k) = (w.data.val.getD k 0).toNat) ∧ pairAt b (i + 512) = w.check.toNat

/-- An entry head stands at the front (R208, R212). -/
def EntryHeadAt (b : List Byte) (e : Entry) : Prop :=
  quadAt b 0 = e.seqNo % 4294967296 ∧ TrackAt b 4 e.track ∧ byteAt b 7 = entryStateByte e.state ∧
  byteAt b 8 = originByte e.origin ∧ byteAt b 9 = e.runs % 256 ∧ pairAt b 10 = e.passes % 65536 ∧
  byteAt b 12 = (if e.exported then 1 else 0) + (if e.imageDropped then 2 else 0) + (if e.starved then 4 else 0)

/-- An entry summary (R212). -/
def SummaryRecord (b : List Byte) (e : Entry) : Prop :=
  b.length = 17 ∧ EntryHeadAt b e ∧
  byteAt b 13 = (e.outcomes.countP fun o => o.result.isPending) % 256 ∧
  byteAt b 14 = (e.outcomes.countP fun o => o.result.isRetryGood) % 256 ∧
  byteAt b 15 = (e.outcomes.countP fun o => o.result.isVoted) % 256 ∧
  byteAt b 16 = (e.outcomes.countP fun o => o.result.isFailed) % 256

/-- An outcome; the n of a PENDING one is the copies its sector holds now (R131, R205, R208, R212). -/
def OutcomeRecord (t : Track) (s : State) (b : List Byte) (o : OutcomeRec) : Prop :=
  b.length = 8 ∧ byteAt b 0 = o.sector % 256 ∧
  match o.result with
  | .pending => byteAt b 1 = 0 ∧ byteAt b 2 = (copiesOf ⟨t, o.sector⟩ s.cps).length % 256 ∧ byteAt b 3 = 255 ∧
      byteAt b 4 = 255 ∧ pairAt b 5 = 0 ∧ byteAt b 7 = 0
  | .retryGood n k p => byteAt b 1 = 1 ∧ byteAt b 2 = n % 256 ∧ byteAt b 3 = 255 ∧ byteAt b 4 = k % 256 ∧
      pairAt b 5 = p % 65536 ∧ byteAt b 7 = 0
  | .voted n m k p => byteAt b 1 = 2 ∧ byteAt b 2 = n % 256 ∧ byteAt b 3 = m % 256 ∧ byteAt b 4 = k % 256 ∧
      pairAt b 5 = p % 65536 ∧ byteAt b 7 = 0
  | .failed n r => byteAt b 1 = 3 ∧ byteAt b 2 = n % 256 ∧ byteAt b 3 = 255 ∧ byteAt b 4 = 255 ∧ pairAt b 5 = 0 ∧
      byteAt b 7 = reasonByte r

/-- A frame record, at a rank of the use order (R122, R208, R212). -/
def FrameRecord (s : State) (b : List Byte) (x : Frame × Nat) : Prop :=
  b.length = 10 ∧ TrackAt b 0 x.1.track ∧ byteAt b 3 = x.2 % 256 ∧
  byteAt b 4 = (if x.1.exportPending then 1 else 0) + (if x.1.track = s.mcp.track then 2 else 0) +
    (if (jobOf x.1.track s).any Job.holdsFrame then 4 else 0) +
    (if s.tks.exportHold && x.1.exportPending then 8 else 0) ∧
  ∀ k, k < 5 → byteAt b (5 + k) = (x.1.sectors.countP fun r => sectorStateByte r == k) % 256

/-- A tally of a job record (R212). -/
def TallyRecord (b : List Byte) (x : Tally) : Prop :=
  b.length = 4 ∧ byteAt b 0 = x.sector % 256 ∧ byteAt b 1 = x.captured % 256 ∧ byteAt b 2 = x.badHeaders % 256 ∧
  byteAt b 3 = lastVoteByte x.lastVote

/-- A job record (R111, R208, R212). -/
def JobRecord (now : Timer) (b : List Byte) (j : Job) : Prop :=
  b.length = 14 + 4 * j.tallies.length ∧ TrackAt b 0 j.track ∧ byteAt b 3 = originByte j.origin ∧
  byteAt b 4 = jobStateByte j.state ∧ byteAt b 5 = j.step % 256 ∧ byteAt b 6 = j.done % 256 ∧
  byteAt b 7 = j.cycle % 256 ∧ pairAt b 8 = j.counter % 65536 ∧
  byteAt b 10 = (if j.starved then 1 else 0) + (if j.fill then 2 else 0) ∧
  (j.state ≠ .cooling → pairAt b 11 = 0) ∧
  (∀ e, j.state = .cooling → j.cooldown = some e → pairAt b 11 = (e.length - (now - e.start).toNat) % 65536) ∧
  byteAt b 13 = j.tallies.length % 256 ∧ RecordsOf TallyRecord (b.drop 14) j.tallies

/-- An overlay record (R212). -/
def OverlayRecord (b : List Byte) (e : OverlayEntry) : Prop :=
  b.length = 5 ∧ TrackAt b 0 e.addr.track ∧ byteAt b 3 = e.addr.sector % 256 ∧ byteAt b 4 = e.writes % 256

/-! ### Contention (R20) -/

/-- Contention is being seen: another master holds the unit select line, inactive while the sequencer drives it active,
or active in FENCED, where it is driven inactive; in DETACHED none is seen. -/
def ContentionOn (s : State) : Prop :=
  ∃ h, s.pins.selectHeld = some h ∧ s.dsq.state ≠ .detached ∧ (h = true ↔ s.dsq.state = .fenced)

/-! ### What has fallen (R1) -/

/-- The expiry has fallen on the counter that stands at `now` (R1). -/
def Expiry.FallenAt (e : Expiry) (now : Timer) : Prop :=
  e.length ≤ (now - e.start).toNat

/-- The expiry, the pulse or the index that the command takes has fallen (R1, R4, R27, R28, R34, R36, R41, R106, R150,
R154, R200). -/
def Fallen (c : Instr) (s : State) : Prop :=
  match c with
  | .startupWindowExpiry => s.ixm.window = .startup ∧ ∃ e, s.ixm.expiry = some e ∧ e.FallenAt s.clock.rotationTimer
  | .closedWindowExpiry => s.ixm.window = .closed ∧ ∃ e, s.ixm.expiry = some e ∧ e.FallenAt s.clock.rotationTimer
  | .openWindowExpiry => s.ixm.window = .opened ∧ ∃ e, s.ixm.expiry = some e ∧ e.FallenAt s.clock.rotationTimer
  | .resyncLimitExpiry => s.ixm.window = .resync ∧ ∃ e, s.ixm.expiry = some e ∧ e.FallenAt s.clock.rotationTimer
  | .seekTimeoutExpiry => s.dsq.state = .seeking ∧ ∃ e, s.dsq.expiry = some e ∧ e.FallenAt s.clock.uptime
  | .recalibrateTimeoutExpiry =>
    s.dsq.state = .recalibrating ∧ ∃ e, s.dsq.expiry = some e ∧ e.FallenAt s.clock.uptime
  | .settleWaitEnd => s.dsq.state = .settling ∧ ∃ e, s.dsq.expiry = some e ∧ e.FallenAt s.clock.uptime
  | .restEnd => s.dsq.state = .resting ∧ ∃ e, s.dsq.expiry = some e ∧ e.FallenAt s.clock.uptime
  | .quietExpiry => ∃ e, s.dsq.quiet = some e ∧ e.FallenAt s.clock.uptime
  | .cooldownExpiry c h => ∃ j ∈ s.jbq.jobs, j.track = ⟨c, h⟩ ∧ j.state = .cooling ∧
      ∃ e, j.cooldown = some e ∧ e.FallenAt s.clock.uptime
  | .holdExpiry => s.mcp.state = .seeking ∧ ∃ e, s.mcp.hold = some e ∧ e.FallenAt s.clock.uptime
  | .emulatedIndex => s.mcp.emu.period ≤ (s.clock.rotationTimer - s.mcp.emu.indexAt).toNat
  | .sectorPulse => s.mcp.emu.passing + 1 < s.mcp.emu.sectors ∧
      (s.mcp.emu.passing + 1) * s.mcp.emu.period / s.mcp.emu.sectors ≤
        (s.clock.rotationTimer - s.mcp.emu.indexAt).toNat
  | .attentionPulseEnd => ∃ since owed, s.evq.pulse = .high since owed ∧ 20 ≤ (s.clock.rotationTimer - since).toNat
  | .attentionGapEnd => ∃ since owed, s.evq.pulse = .gap since owed ∧ 2 ≤ (s.clock.rotationTimer - since).toNat
  | _ => False

/-- The place of an expiry in the fixed order of log entry 3. -/
def fallenOrder : Instr → Nat
  | .startupWindowExpiry => 0
  | .closedWindowExpiry => 1
  | .openWindowExpiry => 2
  | .resyncLimitExpiry => 3
  | .seekTimeoutExpiry => 4
  | .recalibrateTimeoutExpiry => 5
  | .settleWaitEnd => 6
  | .restEnd => 7
  | .quietExpiry => 8
  | .cooldownExpiry _ _ => 9
  | .holdExpiry => 10
  | .emulatedIndex => 11
  | .sectorPulse => 12
  | .attentionPulseEnd => 13
  | _ => 14

/-- A pulse asserted for `n` µs qualifies now: it began after the last index was taken, and, counted from its edge or
from a later restart, it has stayed asserted for the minimum width (R3, R17, R18; log entry 6). -/
def Qualifies (n : Nat) (s : State) : Prop :=
  n < s.ixm.line.taken ∧ min n s.ixm.line.since = s.ixm.line.restarted.getD s.ixm.rot.width

/-- The index line's record after SET_ROTATION or SOFT_RESET: a pulse in progress is restarted (R17, R18; log
entry 6). -/
def restartedLine (x : Ixm) : IndexLine :=
  { x.line with restarted := some (x.line.restarted.getD x.rot.width) }

/-! ### Power-on (R18, R46, R60, R69, R87, R88, R112, R129, R144, R167, R168, R178, R190) -/

/-- From `s` to `t` every block but the Drive Sequencer and the Event Queue has taken its reset state; a pulse in progress
counts afresh, and a transfer whose select had fallen is ignored to its end. The levels of the input lines stand. -/
def BlocksReset (s t : State) : Prop :=
  t.pending = s.pending ∧ t.pins = s.pins ∧ t.clock = ⟨0, 0, 0⟩ ∧ t.geom = ⟨400, 5, 20⟩ ∧
  t.ixm = ⟨.idle, none, none, 0, false, 16667, ⟨16667, 20, 3, 3, 2, 4⟩, ⟨0, s.ixm.line.taken, none⟩⟩ ∧
  t.rdc = ⟨none, 0, none, 0, 120, 150⟩ ∧ t.cps = ⟨[]⟩ ∧ t.vte = ⟨none, 5, 4⟩ ∧
  t.jbq = ⟨[],
    [⟨0, 0, 2⟩, ⟨0, -1, 1⟩, ⟨0, 1, 1⟩, ⟨-1, 0, 2⟩, ⟨1, 0, 2⟩, ⟨-2, -1, 1⟩, ⟨2, 1, 1⟩, ⟨0, 0, 3⟩, ⟨0, 0, 1⟩, ⟨0, 0, 1⟩,
      ⟨0, 0, 1⟩, ⟨0, 0, 1⟩],
    8, 1, 5000, none⟩ ∧
  t.tks = ⟨[], true⟩ ∧ t.rct = ⟨[], 1, 0, none, 0, 0⟩ ∧
  t.mcp = ⟨.notReady, ⟨0, 0⟩, none, ⟨0, 16667, 20, 0⟩, false, .none, 800, false⟩ ∧ t.ovl = ⟨[]⟩ ∧
  t.stl = ⟨if s.stl.transfer = .none then .none else .ignored, none, none, none, 0, false, 0, []⟩

/-! ### Requests -/

/-- Each command that takes a station request, with the request's code (R209). -/
def requestRows : List (Instr × Byte) :=
  [(.status, 0x01), (.getEvents, 0x02), (.getSnapshot, 0x03), (.getStats, 0x04), (.clearStats, 0x05),
    (.listEntries, 0x10), (.getEntry, 0x11), (.markExported, 0x12), (.readSector, 0x13), (.listFrames, 0x14)] ++
  [(.queueTrack, 0x20), (.retryTrack, 0x21), (.cancelJob, 0x22), (.listJobs, 0x23), (.listOverlay, 0x30),
    (.readOverlay, 0x31), (.dropOverlay, 0x32), (.setGeometry, 0x40), (.setRotation, 0x41), (.setRead, 0x42)] ++
  [(.setVote, 0x43), (.setLadderStep, 0x44), (.setLadderShape, 0x45), (.setDrive, 0x46), (.setPort, 0x47),
    (.getSettings, 0x48), (.clearFence, 0x50), (.restDrive, 0x51), (.bypassOn, 0x52), (.bypassOff, 0x52),
    (.softReset, 0x5F)]

/-- From `s` to `t` the request in progress is answered: the buffer holds the result and the payload, which begins
with the request code, and the request is cleared (R173, R176). The link changes in nothing else. -/
def Answered (r : ResultCode) (code : Byte) (payload : List Byte) (s t : State) : Prop :=
  t.stl = { s.stl with request := none, response := some ⟨r, code :: payload⟩ }

/-- Sector numbers stand in ascending order. -/
def Ascending (xs : List Nat) : Prop :=
  xs.Pairwise (· < ·)

/-- The outcomes `os` of an entry as a job over its kept frame `f` reopens them: each FAILED one is PENDING, any other
stands, and a FAILED sector of the frame without an outcome has gained a PENDING one, in its place by sector order
(R135). -/
def ReopenedOutcomes (f : Frame) (os os' : List OutcomeRec) : Prop :=
  Ascending (os'.map OutcomeRec.sector) ∧
  ∀ o', o' ∈ os' ↔ (∃ o ∈ os, o' = if o.result.isFailed then ⟨o.sector, .pending⟩ else o) ∨
    (o'.result = .pending ∧ (∃ r, f.sectors[o'.sector]? = some r ∧ r.isFailed = true) ∧ ∀ o ∈ os, o.sector ≠ o'.sector)

/-- From `s` to `u` a STATION job over the kept frame `f` of a track is created at a start step: it joins the end of
the queue with the FAILED sectors open, those sectors reopen, and the entry is reopened, or created if there was none
and the table had room (R100, R102, R120, R133, R135). -/
def JobOverKeptFrame (tr : Track) (f : Frame) (start : Nat) (s u : State) : Prop :=
  ChangesOnly [.jbq, .tks, .rct, .evq] s u ∧
  (∃ j, u.jbq = { s.jbq with jobs := s.jbq.jobs ++ [j] } ∧ j.track = tr ∧ j.origin = .station ∧ j.state = .queued ∧
    j.holdsFrame = true ∧ j.openSet = sectorsWhere SectorRec.isFailed f ∧ j.step = start ∧ j.first = max 1 start ∧
    j.fill = false ∧ j.done = 0 ∧ j.cycle = 0 ∧ j.counter = 0 ∧ j.starved = false ∧
    ∀ x ∈ j.tallies, x.captured = 0 ∧ x.badHeaders = 0 ∧ x.lastVote = none) ∧
  (∃ f', frameOf tr u = some f' ∧ f'.exportPending = f.exportPending ∧
    f'.sectors = f.sectors.map fun r => match r with
      | .failed (some (w, k)) => .opened w k
      | .failed none => .empty
      | r => r) ∧
  (∀ e, entryOf tr s = some e → u.evq = s.evq ∧ ∃ os,
    entryOf tr u = some { e with
      state := .opened, origin := .station, runs := min 255 (e.runs + 1), exported := false, outcomes := os } ∧
    (Ascending (e.outcomes.map OutcomeRec.sector) → ReopenedOutcomes f e.outcomes os)) ∧
  (entryOf tr s = none → s.rct.entries.length < 512 → s.rct.nextSequence ≤ 4294967295 →
    u.evq = s.evq ∧ u.rct.nextSequence = s.rct.nextSequence + 1 ∧
    u.rct.entries = s.rct.entries ++ [⟨s.rct.nextSequence, tr, .opened, .station, 1, 0, none, false, false, false,
      (sectorsWhere SectorRec.isFailed f).map fun i => ⟨i, .pending⟩⟩])

/-! ### Holds (R152, R153) -/

/-- From `s` to `u` the current track becomes `tr` and a hold begins on it: SEEKING with the hold expiry from now, or
READY where the frame of `tr` is fully resolved or `tr` lies outside the geometry. A READ or WRITE under way stands
over only where the port never left READY. -/
def HoldOn (tr : Track) (s u : State) : Prop :=
  ChangesOnly [.mcp] s u ∧ u.mcp.track = tr ∧
  (s.geom.cylinders ≤ tr.cyl ∨ s.geom.heads ≤ tr.head ∨ (∃ f, frameOf tr s = some f ∧ f.fullyResolved = true) →
    u.mcp.state = .ready ∧ u.mcp.hold = none) ∧
  (tr.cyl < s.geom.cylinders → tr.head < s.geom.heads → (∀ f, frameOf tr s = some f → f.fullyResolved = false) →
    u.mcp.state = .seeking ∧ u.mcp.hold = some ⟨s.clock.uptime, s.mcp.holdLimit⟩ ∧ u.mcp.activity = .none)

/-! ### Seek faults (R35) -/

/-- The three events that are seek faults in the state: a seek error of an operation or a pass, the seek timeout, and
a check-good header of another track whose mark did not end before the opening mark. -/
def SeekFaultBy (c : Instr) (s : State) : Prop :=
  match c with
  | .seekError => s.dsq.state = .seeking ∨ s.dsq.state = .settling ∨ s.dsq.state = .reading
  | .seekTimeoutExpiry => s.dsq.state = .seeking ∧ ∃ e, s.dsq.expiry = some e ∧ e.length ≤ elapsed s.clock.uptime e.start
  | .header mark cyl head sector check outside => ∃ p h, s.rdc.pass = some p ∧
      (mark - p.reference).toNat < 2147483648 ∧
      h = readHeader s.rdc.shift (headerFlux cyl head sector check outside) ∧
      check16 [h.cylinder, h.head, h.sector] = h.check ∧ (h.cylinder.toNat ≠ p.track.cyl ∨ h.head.toNat ≠ p.track.head)
  | _ => False

/-- The last event offered from `s` to `t` is the one given, if none was discarded (R195, R197). -/
def LastOffered (k : EventKind) (tr : Option Track) (detail : Nat) (t : State) : Prop :=
  t.evq.overrun = false →
    ∃ r, t.evq.records.getLast? = some r ∧ r.kind = k ∧ r.track = tr ∧ r.detail = detail ∧ r.seqNo + 1 = t.evq.counter

/-- The first event offered from `s` to `t` is the one given, if the queue had room (R195, R197). -/
def FirstQueued (k : EventKind) (tr : Option Track) (detail : Nat) (s t : State) : Prop :=
  s.evq.records.length < 32 → (s.evq.records ++ [⟨s.evq.counter, k, tr, detail⟩]) <+: t.evq.records

/-! ### Frames taken by claims (R114, R122, R124 to R126) -/

/-- No pin holds the frame (R122). -/
def Unpinned (s : State) (f : Frame) : Prop :=
  f.track ≠ s.mcp.track ∧ (∀ j, jobOf f.track s = some j → j.holdsFrame = false) ∧
  ¬ (s.tks.exportHold = true ∧ f.exportPending = true)

/-- The frame is one that source `k` of a demand fetch offers: 2 an unpinned frame, 3 one whose only pin is the export
pin, 4 and 5 one pinned by a PREFETCH- or MACHINE-origin job that is not ACTIVE (R124). -/
def OfferedBy (s : State) (f : Frame) (k : Nat) : Prop :=
  (k = 2 ∧ Unpinned s f) ∨
  (k = 3 ∧ f.track ≠ s.mcp.track ∧ (∀ j, jobOf f.track s = some j → j.holdsFrame = false) ∧
    s.tks.exportHold = true ∧ f.exportPending = true) ∨
  (k = 4 ∧ ∃ j, jobOf f.track s = some j ∧ j.holdsFrame = true ∧ j.origin = .prefetch ∧ j.state ≠ .active) ∨
  (k = 5 ∧ ∃ j, jobOf f.track s = some j ∧ j.holdsFrame = true ∧ j.origin = .machine ∧ j.state ≠ .active)

/-- From `s` to `t` the image of a frame is retired: if export-pending, IMAGE_DROPPED carries its RECOVERED sectors and
its track's entry is flagged; and otherwise neither (R114, R139). -/
def ImageRetired (f : Frame) (s t : State) : Prop :=
  (f.exportPending = false → t.rct = s.rct ∧ t.evq = s.evq) ∧
  (f.exportPending = true → FirstQueued .imageDropped (some f.track) (f.sectors.countP SectorRec.isRecovered) s t ∧
    t.rct = { s.rct with
      entries := s.rct.entries.map fun e => if e.track = f.track then { e with imageDropped := true } else e })

/-- The frame of a claim, every sector EMPTY (R114). -/
def emptyFrame (s : State) (tr : Track) : Frame :=
  ⟨tr, List.replicate s.geom.sectors .empty, false⟩

/-- From `s` to `t` a claim for `tr` has taken a free slot, or else the least recently used unpinned frame (R114, R125,
R126). -/
def SlotTaken (tr : Track) (s t : State) : Prop :=
  (s.tks.frames.length < 8 →
    t.tks = { s.tks with frames := s.tks.frames ++ [emptyFrame s tr] } ∧ t.rct = s.rct ∧ t.evq = s.evq) ∧
  ∀ pre f post, 8 ≤ s.tks.frames.length → s.tks.frames = pre ++ f :: post → Unpinned s f →
    (∀ x ∈ pre, ¬ Unpinned s x) → (∀ x ∈ pre ++ post, x.track ≠ f.track) →
    t.tks = { s.tks with frames := pre ++ post ++ [emptyFrame s tr] } ∧ ImageRetired f s t

/-- A slot is free, or a frame is unpinned (R125, R126). -/
def SlotOffered (s : State) : Prop :=
  s.tks.frames.length < 8 ∨ ∃ f ∈ s.tks.frames, Unpinned s f

/-- A job is eligible: QUEUED, and holding its frame or able to claim one while STATION-origin jobs hold fewer than six
(R25, R125). -/
def Eligible (s : State) (j : Job) : Prop :=
  j.state = .queued ∧
  (j.holdsFrame = true ∨ (frameOf j.track s = none ∧ stationFramesHeld s < 6 ∧ SlotOffered s))

/-- A job's order of R25. -/
def jobOrder (s : State) (j : Job) : Nat :=
  if j.track = s.mcp.track then 2
  else match j.origin with
    | .station => 3
    | .machine => 4
    | .prefetch => 6

/-- The prefetch candidate of R25, order 5. -/
def PrefetchFor (s : State) (tr : Track) : Prop :=
  s.dsq.set.prefetch = true ∧ tr.cyl = s.mcp.track.cyl ∧ tr.head < s.geom.heads ∧ frameOf tr s = none ∧
  (∀ h, h < tr.head → (frameOf ⟨tr.cyl, h⟩ s).isSome) ∧ SlotOffered s

/-- A job stands at place `n` of the queue, counted from 1 (R187). -/
def InQueueAt (n : Nat) (tr : Track) (s : State) : Prop :=
  ∃ pre j post, s.jbq.jobs = pre ++ j :: post ∧ j.track = tr ∧ (∀ x ∈ pre, x.track ≠ tr) ∧ n = pre.length + 1

/-! ### Ends of jobs (R107, R138) -/

/-- The reason of R107, from a sector's tally. -/
def tallyReason (y : Tally) : FailReason :=
  match y.lastVote with
  | some .weak => .weak
  | some .failedCheck => .check
  | none => if y.captured = 0 then .noHeader else .fewCopies

/-- The end of a job makes the outcome FAILED: that of a sector still open, and while the fill is pending, a PENDING one
(R109, R136, R138; log entries 14 and 49). -/
def FallsWith (j : Job) (o : OutcomeRec) : Prop :=
  (j.fill = false ∧ o.sector ∈ j.openSet) ∨ (j.fill = true ∧ o.result = .pending)

/-- What the end of a job makes of an outcome of its OPEN entry: one that falls with it is FAILED with the reason of the
end and the copies its sector held, and any other stands (R107, R138). -/
def EndedOutcome (k : JobEnd) (j : Job) (s : State) (o o' : OutcomeRec) : Prop :=
  (¬ FallsWith j o → o' = o) ∧
  (FallsWith j o →
    ∃ r, o' = ⟨o.sector, .failed (copiesOf ⟨j.track, o.sector⟩ s.cps).length r⟩ ∧ (∀ x, k = .cause x → r = x) ∧
      ∀ y, k = .walk → j.tallies.find? (fun z => z.sector == o.sector) = some y → r = tallyReason y)

/-- A new entry (R133). -/
def newEntry (s : State) (tr : Track) (origin : Origin) (st : EntryState) (passes : Nat) (starved : Bool)
    (os : List OutcomeRec) : Entry :=
  ⟨s.rct.nextSequence, tr, st, origin, 1, passes, none, false, false, starved, os⟩

/-! ### Passes counted and work abandoned (R23, R24, R30 to R33, R71) -/

/-- The batch formed when a job grant's pass is counted: its members are the open sectors, ascending in the open set, with
at least three copies and the fresh mark, each with the copies it holds; a fill's batch has none (R71). -/
def formedBatch (g : Grant) (j : Job) (s : State) : Batch :=
  ⟨g.track, g.passNo, g.step, s.vte.minMargin,
    if g.fill then []
    else (j.openSet.filter fun i =>
      decide (3 ≤ (copiesOf ⟨g.track, i⟩ s.cps).length) && isFresh ⟨g.track, i⟩ s.cps).map
        fun i => ⟨i, copiesOf ⟨g.track, i⟩ s.cps⟩⟩

/-- An event at `s` that answers `o` counts the pass in flight of the grant `g`, `w` being the state as the pass ends:
the copy under assembly is discarded; a fetch's grant ends, the fetch's end is taken, and IDLE entered; a job's counter
and the passes of its OPEN entry rise by 1, and its batch is formed and runs in VOTING, or, without members, completes
at once (R30, R31, R71, R95, R137). -/
def PassCounted (o : Host.Outcome State Fault Refusal) (g : Grant) (s w : State) : Prop :=
  w.rdc = { s.rdc with pass := none, assembly := none } ∧
  (g.kind ≠ .jobPass → ChangesOnly [.ixm, .dsq, .rdc, .rct, .evq] s w ∧ w.dsq = { s.dsq with grant := none } ∧
    o = .next (afterEvent ((endFetch g.kind g.track w).updDsq fun d => { d with state := .idle }))) ∧
  ∀ j, g.kind = .jobPass → jobOf g.track s = some j →
    ChangesOnly [.ixm, .dsq, .rdc, .vte, .jbq, .rct, .evq] s w ∧
    w.dsq = { s.dsq with state := .voting, grant := some { g with phase := .voting } } ∧
    w.vte = { s.vte with batch := some (formedBatch g j s) } ∧
    jobOf g.track w = some { j with counter := min 65535 (j.counter + 1) } ∧
    (∀ e, entryOf g.track s = some e → e.state = .opened →
      entryOf g.track w = some { e with passes := min 65535 (e.passes + 1) }) ∧
    o = if (formedBatch g j s).members = [] then exec .batchCompletion w else .next (afterEvent w)

/-- From `s` to `t` the grant `g` has been abandoned: a job returns to QUEUED with nothing else changed; a fetch whose
pass has not begun releases its frame; one whose pass has begun is cut short, which its end takes as a counted one; and
a pass in flight ends with its copy under assembly (R32, R33; log entry 12). -/
def GrantAbandoned (g : Grant) (s t : State) : Prop :=
  t.dsq.grant = none ∧
  (g.phase = .inPass → t.rdc = { s.rdc with pass := none, assembly := none }) ∧
  (g.phase = .approach → t.rdc = s.rdc) ∧
  (g.kind = .jobPass → t.tks = s.tks ∧ t.jbq = { s.jbq with
    jobs := s.jbq.jobs.map fun j => if j.track = g.track then { j with state := .queued } else j }) ∧
  (g.kind ≠ .jobPass → g.phase = .approach → g.begun = false → t.jbq = { s.jbq with fetch := none } ∧
    t.tks = { s.tks with frames := s.tks.frames.filter fun f => f.track != g.track }) ∧
  (g.kind ≠ .jobPass → g.phase = .inPass ∨ g.begun = true →
    ∃ x, ChangesOnly [.ixm, .dsq, .rdc, .rct, .evq] s x ∧ x.dsq.grant = none ∧
      t.jbq = (endFetch g.kind g.track x).jbq ∧ t.tks = (endFetch g.kind g.track x).tks ∧
      t.cps = (endFetch g.kind g.track x).cps)

/-- From `s` to `t` the spindle has become STOPPED or STARTING, and the sequencer and the port have followed: IDLE and
the states at work become OFFLINE, their work abandoned and a moving head's position unknown; the others stand; and a
port not detached is NOT_READY (R23, R146). -/
def FollowsStopped (s t : State) : Prop :=
  (s.dsq.state = .idle → t.dsq = { s.dsq with state := .offline }) ∧
  (s.dsq.state = .seeking ∨ s.dsq.state = .settling ∨ s.dsq.state = .recalibrating →
    t.dsq = { s.dsq with
      state := .offline, position := none, grant := t.dsq.grant, seekTarget := none, expiry := none }) ∧
  (s.dsq.state = .reading → t.dsq = { s.dsq with
    state := .offline, grant := t.dsq.grant, seekTarget := none, expiry := none }) ∧
  (s.dsq.state = .seeking ∨ s.dsq.state = .settling ∨ s.dsq.state = .recalibrating ∨ s.dsq.state = .reading →
    (s.dsq.grant = none → t.dsq.grant = none) ∧
    ∀ g, s.dsq.grant = some g → g.phase ≠ .voting → GrantAbandoned g s t) ∧
  (s.dsq.state = .voting ∨ s.dsq.state = .resting ∨ s.dsq.state = .offline ∨ s.dsq.state = .fenced ∨
    s.dsq.state = .detached → t.dsq = s.dsq) ∧
  (s.mcp.state ≠ .detached → t.mcp.state = .notReady)

/-! ### The collections (R61, R93, R113, R130, R163, R197) -/

/-- Every collection is within its limit, holds no two members under one address, and STATION-origin jobs hold at
most six frames. -/
def CollectionsBounded (s : State) : Prop :=
  s.evq.records.length ≤ 32 ∧
  s.ovl.entries.length ≤ 64 ∧ (s.ovl.entries.map OverlayEntry.addr).Nodup ∧
  s.tks.frames.length ≤ 8 ∧ (s.tks.frames.map Frame.track).Nodup ∧
  s.jbq.jobs.length ≤ 16 ∧ (s.jbq.jobs.map Job.track).Nodup ∧ stationFramesHeld s ≤ 6 ∧
  s.rct.entries.length ≤ 512 ∧ (s.rct.entries.map Entry.track).Nodup

/-- The Capture Store: at most 96 slots in use, one list for a sector, no empty list, and no more copies in a list
than the copy limit (R61). -/
def CopiesBounded (s : State) : Prop :=
  3 ≤ s.vte.copyLimit ∧ slotsInUse s.cps ≤ 96 ∧ (s.cps.lists.map CopyList.addr).Nodup ∧
  ∀ l ∈ s.cps.lists, 1 ≤ l.copies.length ∧ l.copies.length ≤ s.vte.copyLimit

/-- The table stands in ascending sequence below the counter, and an OPEN entry has a job (R130, R132). -/
def TableKept (s : State) : Prop :=
  (s.rct.entries.map Entry.track).Nodup ∧
  s.rct.entries.Pairwise (fun a b => a.seqNo < b.seqNo) ∧
  (∀ e ∈ s.rct.entries, 1 ≤ e.seqNo ∧ e.seqNo < s.rct.nextSequence) ∧ 1 ≤ s.rct.nextSequence ∧
  s.rct.nextSequence ≤ Config.lastSequence + 1 ∧
  ∀ e ∈ s.rct.entries, e.state = .opened → (jobOf e.track s).isSome

/-- The outcomes of every entry, and the open set of every job, stand in ascending sector order (R92, R131). -/
def SectorsAscending (s : State) : Prop :=
  (∀ e ∈ s.rct.entries, Ascending (e.outcomes.map OutcomeRec.sector)) ∧ ∀ j ∈ s.jbq.jobs, Ascending j.openSet

/-! ### Settings (R2, R19, R48, R85, R88, R89, R165, R190) -/

/-- A ladder record within its ranges (R88). -/
def LadderStep.InRange (r : LadderStep) : Prop :=
  -3 ≤ r.offset ∧ r.offset ≤ 3 ∧ -4 ≤ r.shift ∧ r.shift ≤ 4 ∧ 1 ≤ r.passes ∧ r.passes ≤ 4

/-- Rotation settings within their ranges (R2). -/
def RotationSettings.InRange (r : RotationSettings) : Prop :=
  8000 ≤ r.pNom ∧ r.pNom ≤ 50000 ∧ 1 ≤ r.tol ∧ r.tol ≤ 100 ∧ r.startup ≤ 7 ∧ 1 ≤ r.limit ∧ r.limit ≤ 7 ∧
    r.shift ≤ 6 ∧ 1 ≤ r.width ∧ r.width ≤ 255

/-- Drive settings within their ranges (R19). -/
def DriveSettings.InRange (d : DriveSettings) : Prop :=
  10 ≤ d.seekTimeout ∧ d.seekTimeout ≤ 500 ∧ d.settle ≤ 50 ∧ d.retries ≤ 7 ∧ 1 ≤ d.fenceLimit ∧
    d.fenceLimit ≤ 15 ∧ 1 ≤ d.quietPeriod ∧ d.quietPeriod ≤ 600

/-- Every numeric setting stands within its range, and the ladder has twelve records. -/
def SettingsInRange (s : State) : Prop :=
  s.geom.inRange = true ∧ s.ixm.rot.InRange ∧ s.dsq.set.InRange ∧
  s.rdc.headerOffset ≤ 2000 ∧ 10 ≤ s.rdc.slipLimit ∧ s.rdc.slipLimit ≤ 2000 ∧
  3 ≤ s.vte.copyLimit ∧ s.vte.copyLimit ≤ 5 ∧ s.vte.minMargin ≤ 40 ∧
  s.jbq.ladder.length = 12 ∧ (∀ r ∈ s.jbq.ladder, r.InRange) ∧
  1 ≤ s.jbq.length ∧ s.jbq.length ≤ 12 ∧ s.jbq.repeats ≤ 3 ∧ s.jbq.cooldown ≤ 60000 ∧ s.mcp.holdLimit ≤ 2000

/-! ### The drive (R20, R35 to R38, R42, R50, R72) -/

/-- Whether the sequencer is in a state in which no grant can be pending but one whose batch runs. -/
def DsqState.withdrawn : DsqState → Bool
  | .offline | .idle | .resting | .fenced | .detached | .voting => true
  | _ => false

/-- How the grant, the pass context, the batch and the spindle go together (R23, R29, R31, R50, R72). -/
def GrantKept (s : State) : Prop :=
  (∀ p, s.rdc.pass = some p →
    s.dsq.state = .reading ∧ ∃ g, s.dsq.grant = some g ∧ g.phase = .inPass ∧ g.track = p.track) ∧
  (∀ b, s.vte.batch = some b → ∃ g, s.dsq.grant = some g ∧ g.phase = .voting ∧ g.track = b.track) ∧
  (∀ g, s.dsq.grant = some g →
    (g.phase = .inPass → s.rdc.pass.isSome) ∧ (g.phase = .voting → g.kind = .jobPass ∧ s.vte.batch.isSome) ∧
    (s.dsq.state.withdrawn → g.phase = .voting) ∧
    (g.phase = .voting → s.dsq.state ≠ .seeking ∧ s.dsq.state ≠ .settling ∧ s.dsq.state ≠ .reading)) ∧
  (s.dsq.state = .reading ∨ s.dsq.state = .voting → s.dsq.grant.isSome) ∧
  (spindleDown s.ixm = true → s.dsq.state.withdrawn = true)

/-- The drive's withdrawal: a fence stands exactly in FENCED, or is kept in DETACHED; the relay is closed exactly in
DETACHED; and F stays below the top of its range until a fence is recorded (R37, R38, R42). -/
def WithdrawalKept (s : State) : Prop :=
  (s.dsq.fence.isSome → s.dsq.state = .fenced ∨ s.dsq.state = .detached) ∧
  (s.dsq.state = .fenced → s.dsq.fence.isSome) ∧
  (s.dsq.bypass = true ↔ s.dsq.state = .detached) ∧
  s.dsq.faults ≤ 15 ∧ (s.dsq.fence = none → s.dsq.faults ≤ 14) ∧
  1 ≤ s.dsq.set.fenceLimit ∧ s.dsq.set.fenceLimit ≤ 15 ∧
  (s.dsq.quiet.isSome ↔ 0 < s.dsq.faults)

/-- While the position is known it is the one last established; and it is unknown in RECALIBRATING, RESTING, FENCED and
DETACHED (R22, R34, R38, R40, R42). -/
def PositionKept (s : State) : Prop :=
  (∀ p, s.dsq.position = some p → s.dsq.lastPosition = some p) ∧
  (s.dsq.state = .recalibrating ∨ s.dsq.state = .resting ∨ s.dsq.state = .fenced ∨ s.dsq.state = .detached →
    s.dsq.position = none)

/-! ### Jobs and their frames (R45, R93) -/

/-- A job is ACTIVE exactly while it holds the grant, and a job pass is granted to a job that exists; a MACHINE- or PREFETCH-origin job owns the frame of its track;
a job without a frame is QUEUED; a frame a job owns is held, as is the frame of the track granted; and a fetch is granted only a frame that no job
owns and that has no FAILED sector. -/
def JobsKept (s : State) : Prop :=
  (∀ j ∈ s.jbq.jobs, (j.state = .active ↔ ∃ g, s.dsq.grant = some g ∧ g.kind = .jobPass ∧ g.track = j.track) ∧
    (j.origin ≠ .station → j.holdsFrame = true) ∧ (j.holdsFrame = true → (frameOf j.track s).isSome) ∧
    (j.holdsFrame = false → j.state = .queued) ∧ (j.state = .cooling ↔ j.cooldown.isSome)) ∧
  ∀ g, s.dsq.grant = some g → ∃ f, frameOf g.track s = some f ∧
    (g.kind = .jobPass → (jobOf g.track s).isSome) ∧
    (g.kind ≠ .jobPass → (∀ r ∈ f.sectors, r.isFailed = false) ∧
      ∀ j ∈ s.jbq.jobs, j.track = g.track → j.holdsFrame = false)

/-! ### The port (R146 to R148, R152) -/

/-- The port is DETACHED with the relay, NOT_READY exactly while it is not ready to serve, and holds exactly in
SEEKING. -/
def PortFollows (s : State) : Prop :=
  (s.mcp.state = .detached ↔ s.dsq.bypass = true) ∧
  (s.dsq.bypass = false → (s.mcp.state = .notReady ↔ readyToServe s = false)) ∧
  (s.mcp.state = .seeking ↔ s.mcp.hold.isSome)

/-! ### The rotation average (R4, R14) -/

/-- A lies within its bounds, and the window's reference, expiry and elapsed time are as the window says. -/
def AverageKept (s : State) : Prop :=
  s.ixm.rot.InRange ∧
  ((s.ixm.rot.pNom : Int) - s.ixm.rot.slack ≤ s.ixm.average ∧
    s.ixm.average ≤ (s.ixm.rot.pNom : Int) + s.ixm.rot.slack) ∧
  (s.ixm.window = .closed → ∃ r, s.ixm.reference = some r ∧
    s.ixm.expiry = some ⟨r, s.ixm.rot.pNom - s.ixm.rot.slack⟩ ∧
    elapsed s.clock.rotationTimer r ≤ s.ixm.rot.pNom - s.ixm.rot.slack) ∧
  (s.ixm.window = .opened → ∃ r, s.ixm.reference = some r ∧
    s.ixm.expiry = some ⟨r, s.ixm.rot.pNom + s.ixm.rot.slack⟩ ∧
    s.ixm.rot.pNom - s.ixm.rot.slack ≤ elapsed s.clock.rotationTimer r ∧
    elapsed s.clock.rotationTimer r ≤ s.ixm.rot.pNom + s.ixm.rot.slack) ∧
  s.ixm.violations ≤ 7

/-! ### The attention line and the link (R170 to R175, R200) -/

/-- In LEVEL mode the line is active exactly while records are held; in PULSE mode exactly during a pulse. -/
def AttentionFollows (s : State) : Prop :=
  if s.mcp.attnPulse then s.evq.line = s.evq.pulse.active
  else s.evq.line = !s.evq.records.isEmpty ∧ s.evq.pulse = .none

/-- At most one of a frame under receipt, a request in progress and a response stands, and a frame is under receipt
in a request transfer alone. -/
def LinkKept (s : State) : Prop :=
  (s.stl.receipt.isSome → s.stl.transfer = .request ∧ s.stl.request = none ∧ s.stl.response = none) ∧
  (s.stl.request.isSome → s.stl.response = none)

end Sys2Proof.Machine
end

