-- ==== Sys2Proof/Certificates/Slice0/Obligations.lean ====
section
/-! DEFINITION. The statements for the provers, from the numbered rules of spec/, file by file. -/

open Sys2Proof Sys2Proof.Machine

/-! ### The machine as a whole -/

/-- A step takes the command at the front of the queue and runs it on the queue's rest. -/
def Obligations.StepRunsFrontCommand : Prop :=
  ∀ (c : Instr) (rest : List Instr) (s : State), s.pending = c :: rest →
    step s = exec c { s with pending := rest }

/-- With no command waiting, the first expiry in the fixed order of log entry 3 that has fallen is taken, the first job in
queue order for a cooldown; and with none fallen one microsecond passes on the rotation timer, the uptime counter rising
by 1 at a thousandth, and at the index line. The model's choice: log entries 1, 3 and 6. -/
def Obligations.IdleStepTakesDueOrPassesTime : Prop :=
  ∀ s : State, s.pending = [] →
    (∀ c, dueCommand s = some c → step s = exec c s ∧ Fallen c s) ∧
    (∀ c, Fallen c s → ∃ d, dueCommand s = some d ∧ fallenOrder d ≤ fallenOrder c) ∧
    (∀ c h, dueCommand s = some (.cooldownExpiry c h) → ∃ pre j post, s.jbq.jobs = pre ++ j :: post ∧
      j.track = ⟨c, h⟩ ∧ ∀ x ∈ pre, ∀ e, x.state = .cooling → x.cooldown = some e → ¬ e.FallenAt s.clock.uptime) ∧
    ((∀ c, ¬ Fallen c s) → ∃ t, step s = .next t ∧ ChangesOnly [.clock, .ixm] s t ∧
      t.clock.rotationTimer = s.clock.rotationTimer + 1 ∧
      (s.clock.subMs + 1 < 1000 → t.clock.uptime = s.clock.uptime ∧ t.clock.subMs = s.clock.subMs + 1) ∧
      (1000 ≤ s.clock.subMs + 1 → t.clock.uptime = s.clock.uptime + 1 ∧ t.clock.subMs = 0) ∧
      t.ixm = { s.ixm with line :=
        ⟨if s.ixm.line.restarted.isSome then 1 else min 2147483648 (s.ixm.line.since + 1),
          min 2147483648 (s.ixm.line.taken + 1), none⟩ })

/-- Every command completes in every state, and leaves the queue of commands as it is. -/
def Obligations.EveryCommandCompletes : Prop :=
  ∀ (c : Instr) (s : State), ∃ t, exec c s = .next t ∧ t.pending = s.pending

/-- POWER_ON_RESET puts every block in its reset state, the ladder with its twelve records; a transfer whose select had
fallen is ignored to its end. With the drive fault line quiet and the select line not held inactive, the drive is OFFLINE
without a fence and no event is queued; with the fault line asserted, or contention seen, a fence is raised at once, its
event takes sequence 0, and the snapshot is latched (R1, R18, R46, R60, R69, R87, R88, R112, R129, R144, R167, R168, R178,
R204; the microseconds of the current millisecond are log entry 1, the status byte captured log entry 10, that the fault
line is looked at first log entry 20, the index line's record log entry 6, the levels held by others log entries 9 and
32). -/
def Obligations.PowerOnResetsEveryBlock : Prop :=
  (∀ s : State, s.pins.driveFault = false → s.pins.selectHeld ≠ some false →
    ∃ t, exec .powerOnReset s = .next t ∧ BlocksReset s t ∧
      t.dsq = ⟨.offline, none, none, none, none, 0, none, none, none, false, ⟨100, 15, 3, 6, 60, false⟩⟩ ∧
      t.evq = ⟨[], 0, false, false, .none, none⟩) ∧
  ∀ (s : State) (cause : FenceCause),
    (s.pins.driveFault = true ∧ cause = .driveFault ∨
      s.pins.driveFault = false ∧ s.pins.selectHeld = some false ∧ cause = .contention) →
    ∃ t, exec .powerOnReset s = .next t ∧ BlocksReset s t ∧
      t.dsq = ⟨.fenced, none, none, none, none, 0, some cause, none, none, false, ⟨100, 15, 3, 6, 60, false⟩⟩ ∧
      t.evq = ⟨[⟨0, .driveFenced, none, causeByte cause⟩], 1, false, true, .none,
        some ⟨.fence cause, 0, 0, .offline, none, none, 16667, 0, 0, 0⟩⟩

/-- What every step keeps, holds right after reset. -/
def Obligations.ResetMeetsInvariants : Prop :=
  CollectionsBounded State.reset ∧ CopiesBounded State.reset ∧ TableKept State.reset ∧
    SectorsAscending State.reset ∧ SettingsInRange State.reset ∧ GrantKept State.reset ∧ WithdrawalKept State.reset ∧
    PositionKept State.reset ∧ JobsKept State.reset ∧
    PortFollows State.reset ∧ AverageKept State.reset ∧ AttentionFollows State.reset ∧ LinkKept State.reset

/-! ### Invariants that every step keeps -/

/-- The collections stay within their limits, with no two members under one address (R93, R113, R130, R163, R197). -/
def Obligations.StepKeepsCollectionsBounded : Prop :=
  ∀ s t : State, CollectionsBounded s → step s = .next t → CollectionsBounded t

/-- The Capture Store stays within its 96 slots and the copy limit (R61). -/
def Obligations.StepKeepsCopiesBounded : Prop :=
  ∀ s t : State, CopiesBounded s → step s = .next t → CopiesBounded t

/-- The Recovery Table stays in ascending sequence, every OPEN entry has a job, and the outcomes of an entry and the open
set of a job stay in ascending sector order (R92, R130, R131, R132, R138). -/
def Obligations.StepKeepsTable : Prop :=
  (∀ s t : State, TableKept s → step s = .next t → TableKept t) ∧
  ∀ s t : State, SectorsAscending s → step s = .next t → SectorsAscending t

/-- Every setting stays within its range (R2, R19, R48, R85, R88, R89, R165, R190). -/
def Obligations.StepKeepsSettingsInRange : Prop :=
  ∀ s t : State, SettingsInRange s → step s = .next t → SettingsInRange t

/-- The grant, the pass context, the batch, the sequencer's state and the fence stay in keeping with one another; the
position, while known, is the one last established, and it stays unknown in RECALIBRATING, RESTING, FENCED and DETACHED
(R22, R23, R29, R31, R34, R37, R38, R40, R42, R50, R72). -/
def Obligations.StepKeepsDriveConsistent : Prop :=
  (∀ s t : State, GrantKept s → WithdrawalKept s → step s = .next t → GrantKept t ∧ WithdrawalKept t) ∧
  ∀ s t : State, PositionKept s → step s = .next t → PositionKept t

/-- A job is ACTIVE exactly while it holds the grant, and every MACHINE- or PREFETCH-origin job owns the frame of its
track (R45, R93). -/
def Obligations.StepKeepsJobsConsistent : Prop :=
  ∀ s t : State, GrantKept s → WithdrawalKept s → CollectionsBounded s → JobsKept s → step s = .next t → JobsKept t

/-- The port is NOT_READY exactly while it is not ready to serve, outside bypass; and it holds exactly while SEEKING
(R146, R147, R148, R152). -/
def Obligations.StepKeepsPortFollowing : Prop :=
  ∀ s t : State, GrantKept s → WithdrawalKept s → PortFollows s → step s = .next t → PortFollows t

/-- A lies between P_nom − T and P_nom + T inclusive at all times (R14). Where the step passes time, this rests on
log entries 1 and 3: an expiry that has fallen is taken before time passes on. -/
def Obligations.StepKeepsAverageInBounds : Prop :=
  ∀ s t : State, AverageKept s → step s = .next t → AverageKept t

/-- The attention line follows the queue in LEVEL mode, and the pulses in PULSE mode (R200). -/
def Obligations.StepKeepsAttentionLine : Prop :=
  ∀ s t : State, AttentionFollows s → step s = .next t → AttentionFollows t

/-- The link holds at most one of a frame under receipt, a request in progress and a response (R171, R173, R174). -/
def Obligations.StepKeepsLinkExclusive : Prop :=
  ∀ s t : State, LinkKept s → step s = .next t → LinkKept t

/-! ### What no other command changes -/

/-- The commands that may change the clock, the input lines, the geometry, the Index Monitor and the overlay: no other
command does. -/
def Obligations.BlocksChangeOnlyByTheirCommands : Prop :=
  ∀ (c : Instr) (s t : State), exec c s = .next t → c ≠ .powerOnReset →
    t.clock = s.clock ∧
    ((∀ b, c ≠ .driveFaultAsserted b) → (∀ b, c ≠ .contentionSeen b) → (∀ b, c ≠ .unitSelect b) → t.pins = s.pins) ∧
    (c ≠ .setGeometry → t.geom = s.geom) ∧
    ((∀ n, c ≠ .indexQualified n) → c ≠ .startupWindowExpiry → c ≠ .closedWindowExpiry → c ≠ .openWindowExpiry →
      c ≠ .resyncLimitExpiry → c ≠ .setRotation → c ≠ .softReset → t.ixm = s.ixm) ∧
    (c ≠ .dropOverlay → (∀ d, c ≠ .writeDataComplete d) → t.ovl = s.ovl)

/-- A setting changes by its own request and at power-on alone; SOFT_RESET keeps every one (R194). -/
def Obligations.SettingsChangeOnlyByTheirRequests : Prop :=
  ∀ (c : Instr) (s t : State), exec c s = .next t → c ≠ .powerOnReset →
    (c ≠ .setRotation → t.ixm.rot = s.ixm.rot) ∧
    (c ≠ .setDrive → t.dsq.set = s.dsq.set) ∧
    (c ≠ .setRead → t.rdc.headerOffset = s.rdc.headerOffset ∧ t.rdc.slipLimit = s.rdc.slipLimit) ∧
    (c ≠ .setVote → t.vte.copyLimit = s.vte.copyLimit ∧ t.vte.minMargin = s.vte.minMargin) ∧
    (c ≠ .setLadderStep → t.jbq.ladder = s.jbq.ladder) ∧
    (c ≠ .setLadderShape →
      t.jbq.length = s.jbq.length ∧ t.jbq.repeats = s.jbq.repeats ∧ t.jbq.cooldown = s.jbq.cooldown) ∧
    (c ≠ .setPort → t.mcp.holdLimit = s.mcp.holdLimit ∧ t.tks.exportHold = s.tks.exportHold ∧
      t.mcp.attnPulse = s.mcp.attnPulse)

/-- A fence stays recorded until CLEAR_FENCE or power-on, the latched snapshot until GET_SNAPSHOT or power-on, bypass
until BYPASS off or power-on, OVERRUN and the records until GET_EVENTS or power-on; the sequence counter never falls; and
until CLEAR_STATS or power-on the peaks of passes, deviation and violations never fall and the least accepted margin,
once held, never rises (R37, R38, R42, R132, R141, R201). -/
def Obligations.RecordsStandUntilCleared : Prop :=
  ∀ (c : Instr) (s t : State), exec c s = .next t → c ≠ .powerOnReset →
    (∀ x, c ≠ .clearFence → s.dsq.fence = some x → t.dsq.fence = some x) ∧
    (∀ x, c ≠ .getSnapshot → s.evq.snapshot = some x → t.evq.snapshot = some x) ∧
    (c ≠ .bypassOff → s.dsq.bypass = true → t.dsq.bypass = true) ∧
    (c ≠ .getEvents → s.evq.overrun = true → t.evq.overrun = true) ∧
    (c ≠ .getEvents → s.evq.records <+: t.evq.records) ∧
    s.rct.nextSequence ≤ t.rct.nextSequence ∧
    (c ≠ .clearStats → s.rct.peakPasses ≤ t.rct.peakPasses ∧ s.rct.peakDeviation ≤ t.rct.peakDeviation ∧
      s.rct.peakViolations ≤ t.rct.peakViolations ∧
      ∀ m, s.rct.peakMargin = some m → ∃ n, t.rct.peakMargin = some n ∧ n ≤ m)

/-! ### The Station Link (R169 to R176) -/

/-- TRANSFER_START with select high captures the status byte, a bit for each item of R170 and the highest class queued in
its two low bits, and it is the first byte shifted out; with select high nothing is (R169, R170, R199, R207). -/
def Obligations.TransferStartCapturesStatus : Prop :=
  ∀ s : State, s.stl.transfer = .none → (∀ n, linkOutput n s = none) ∧
    ∃ t, exec .transferStart s = .next t ∧ ChangesOnly [.stl] s t ∧
      t.stl = { s.stl with transfer := .started, statusByte := t.stl.statusByte } ∧ ShowsStatus t.stl.statusByte s ∧
      linkOutput 0 t = some t.stl.statusByte

/-- REQUEST_CODE_BYTE begins a frame, or discards it with COLLISION while a response is held or a request is in
progress; FRAME_COMPLETE makes of the frame the request in progress, with the check over its code, its two length
bytes and its whole payload and the first eight payload bytes; every byte shifted out after the first shows the status
as it then stands; and SELECT_RISE abandons a frame under receipt and keeps the rest (R169, R171, R172, R174, R175). -/
def Obligations.RequestFramesAreReceived : Prop :=
  (∀ (s : State) (code : Byte), s.stl.transfer = .started → code ≠ 0 →
    ∃ t, exec (.requestCodeByte code) s = .next t ∧ ChangesOnly [.stl] s t ∧
      (s.stl.response = none → s.stl.request = none →
        t.stl = { s.stl with transfer := .request, receipt := some ⟨[code], check8 [code]⟩ }) ∧
      (s.stl.response.isSome ∨ s.stl.request.isSome →
        t.stl = { s.stl with transfer := .discarded, collision := true })) ∧
  (∀ (s : State) (code : Byte) (length : Word) (payload : List Byte) (check : Byte),
    s.stl.receipt = some ⟨[code], check8 [code]⟩ → payload.length = length.toNat →
    ∃ t q, exec (.frameComplete length payload check) s = .next t ∧ ChangesOnly [.stl] s t ∧
      t.stl = { s.stl with receipt := none, request := some q } ∧ q.code = code ∧ q.length = length.toNat ∧
      q.payload = payload.take 8 ∧ q.received = check ∧
      q.computed = check8 ([code, length.extractLsb' 8 8, length.extractLsb' 0 8] ++ payload)) ∧
  (∀ s : State, s.stl.transfer = .request ∨ s.stl.transfer = .discarded → linkOutput 0 s = some s.stl.statusByte ∧
    ∀ n, ∃ b, linkOutput (n + 1) s = some b ∧ ShowsStatus b s) ∧
  (∀ s : State, ∃ t, exec .selectRise s = .next t ∧ ChangesOnly [.stl] s t ∧
    t.stl = { s.stl with transfer := .none, receipt := none, shiftedOut := 0, shifting := [] })

/-- FETCH_FIRST_BYTE clears COLLISION and shifts out the held response, or NONE with payload 00h: result, length pair,
payload and the check over them. In a fetch transfer these follow the status byte captured, and after the frame's last
byte the status as it then stands. RESPONSE_RELEASED empties the buffer; without a held response being shifted it has no
effect, which is log entry 2 (R169, R175, R206, R207). -/
def Obligations.ResponsesAreFetched : Prop :=
  (∀ s : State, s.stl.transfer = .started →
    ∃ t, exec .fetchFirstByte s = .next t ∧ ChangesOnly [.stl] s t ∧
      t.stl = { s.stl with
        transfer := .fetch s.stl.response.isSome, collision := false, shiftedOut := 0, shifting := t.stl.shifting } ∧
      (s.stl.response = none → t.stl.shifting = [1, 0, 1, 0, check8 [1, 0, 1, 0]]) ∧
      ∀ r, s.stl.response = some r → ∃ body, t.stl.shifting = body ++ [check8 body] ∧
        body = [BitVec.ofNat 8 (resultByte r.result), BitVec.ofNat 8 (r.payload.length / 256),
          BitVec.ofNat 8 r.payload.length] ++ r.payload) ∧
  (∀ (s : State) (held : Bool), s.stl.transfer = .fetch held → linkOutput 0 s = some s.stl.statusByte ∧
    (∀ n b, s.stl.shifting[n]? = some b → linkOutput (n + 1) s = some b) ∧
    ∀ n, s.stl.shifting.length ≤ n → ∃ b, linkOutput (n + 1) s = some b ∧ ShowsStatus b s) ∧
  (∀ s : State, s.stl.transfer = .fetch true →
    ∃ t, exec .responseReleased s = .next t ∧ ChangesOnly [.stl] s t ∧
      t.stl = { s.stl with transfer := .fetch false, response := none, shiftedOut := s.stl.shifting.length }) ∧
  ∀ s : State, s.stl.transfer ≠ .fetch true → exec .responseReleased s = .next s

/-- The checks of R173, in order: a request whose computed check differs from the check received is answered
FRAME_ERROR, an intact one with a code outside the request set UNKNOWN_REQUEST, and one of the wrong length for its
code BAD_LENGTH, inside the row of its code and by both BYPASS rows. Each answer carries the code alone and nothing else
changes. A row whose code is not the request's, or whose request fails the check, has no effect. That BAD_LENGTH is
answered inside the rows, and that the other rows have no effect, is the model's choice: log entry 4 (R173, R176). -/
def Obligations.FaultyRequestsAreRefused : Prop :=
  (∀ (s : State) (q : Request), s.stl.request = some q → q.computed ≠ q.received →
    ∃ t, exec .frameError s = .next t ∧ ChangesOnly [.stl] s t ∧ Answered .frameError q.code [] s t) ∧
  (∀ (s : State) (q : Request), s.stl.request = some q → q.computed = q.received → requestLength q.code = none →
    ∃ t, exec .unknownRequest s = .next t ∧ ChangesOnly [.stl] s t ∧ Answered .unknownRequest q.code [] s t) ∧
  (∀ row ∈ requestRows, ∀ (s : State) (q : Request), s.stl.request = some q → q.computed = q.received →
    q.code = row.2 → requestLength q.code ≠ some q.length →
    ∃ t, exec row.1 s = .next t ∧ ChangesOnly [.stl] s t ∧ Answered .badLength q.code [] s t) ∧
  ∀ row ∈ requestRows, ∀ (s : State) (q : Request), s.stl.request = some q →
    q.computed ≠ q.received ∨ q.code ≠ row.2 → exec row.1 s = .next s

/-- A request refused, that is, answered with a result code other than OK, changes nothing but the link, and its
payload is its code alone (R176, R177). -/
def Obligations.RefusedRequestsChangeNothing : Prop :=
  ∀ row ∈ requestRows, ∀ (s t : State) (r : Response), s.stl.response = none → exec row.1 s = .next t →
    t.stl.response = some r → r.result ≠ .ok → ChangesOnly [.stl] s t ∧ r.payload = [row.2]

/-! ### The requests that report (R179 to R189, R192) -/

/-- STATUS reports 22 bytes, each item as it stands, the hold reasons by a bit each, and changes nothing; GET_SETTINGS
reports every setting of every block in 69 bytes, the ladder's twelve records among them, a two-valued setting by a byte
that is not 0 for on and for PULSE (R155, R177, R179, R192, R205, R208, R210, R211). The model's choices: RECOVERY shows
during a fetch that will serve a frameless job's fill (log entry 52), and bits 4 to 7 of the hold reasons are 0 (log
entry 53). -/
def Obligations.StatusAndSettingsAreReported : Prop :=
  (∀ (s : State) (p : List Byte), Taking 0x01 p s →
    ∃ t b, exec .status s = .next t ∧ ChangesOnly [.stl] s t ∧ Answered .ok 0x01 b s t ∧ b.length = 22 ∧
      byteAt b 0 = spindleByte (spindleOf s.ixm) ∧ pairAt b 1 = s.ixm.average.toNat % 65536 ∧
      byteAt b 3 = s.ixm.violations % 256 ∧ byteAt b 4 = dsqByte s.dsq.state ∧
      (s.dsq.position = none → b.extract 5 9 = [0xFF, 0xFF, 0, 0]) ∧
      (∀ x, s.dsq.position = some x → pairAt b 5 = x.cyl % 65536 ∧ byteAt b 7 = x.head % 256 ∧
        b.getD 8 0 = BitVec.ofInt 8 x.offset) ∧
      byteAt b 9 = s.dsq.faults % 256 ∧ byteAt b 10 = optCauseByte s.dsq.fence ∧ byteAt b 11 = portByte s.mcp.state ∧
      pairAt b 12 = s.mcp.track.cyl % 65536 ∧ byteAt b 14 = s.mcp.track.head % 256 ∧ ShowsHoldReasons (byteAt b 15) s ∧
      byteAt b 16 = s.jbq.jobs.length % 256 ∧ byteAt b 17 = s.tks.frames.length % 256 ∧
      pairAt b 18 = s.rct.entries.length % 65536 ∧ byteAt b 20 = s.ovl.entries.length % 256 ∧
      byteAt b 21 = s.evq.records.length % 256) ∧
  ∀ (s : State) (p : List Byte), Taking 0x48 p s → s.jbq.ladder.length = 12 →
    ∃ t b, exec .getSettings s = .next t ∧ ChangesOnly [.stl] s t ∧ Answered .ok 0x48 b s t ∧ b.length = 69 ∧
      pairAt b 0 = s.geom.cylinders % 65536 ∧ byteAt b 2 = s.geom.heads % 256 ∧ byteAt b 3 = s.geom.sectors % 256 ∧
      pairAt b 4 = s.ixm.rot.pNom % 65536 ∧ byteAt b 6 = s.ixm.rot.tol % 256 ∧ byteAt b 7 = s.ixm.rot.startup % 256 ∧
      byteAt b 8 = s.ixm.rot.limit % 256 ∧ byteAt b 9 = s.ixm.rot.shift % 256 ∧ byteAt b 10 = s.ixm.rot.width % 256 ∧
      pairAt b 11 = s.rdc.headerOffset % 65536 ∧ pairAt b 13 = s.rdc.slipLimit % 65536 ∧
      byteAt b 15 = s.vte.copyLimit % 256 ∧ byteAt b 16 = s.vte.minMargin % 256 ∧
      (∀ k r, s.jbq.ladder[k]? = some r → b.getD (17 + 3 * k) 0 = BitVec.ofInt 8 r.offset ∧
        b.getD (18 + 3 * k) 0 = BitVec.ofInt 8 r.shift ∧ byteAt b (19 + 3 * k) = r.passes % 256) ∧
      byteAt b 53 = s.jbq.length % 256 ∧ byteAt b 54 = s.jbq.repeats % 256 ∧ pairAt b 55 = s.jbq.cooldown % 65536 ∧
      pairAt b 57 = s.dsq.set.seekTimeout % 65536 ∧ byteAt b 59 = s.dsq.set.settle % 256 ∧
      byteAt b 60 = s.dsq.set.retries % 256 ∧ byteAt b 61 = s.dsq.set.fenceLimit % 256 ∧
      pairAt b 62 = s.dsq.set.quietPeriod % 65536 ∧ (byteAt b 64 ≠ 0 ↔ s.dsq.set.prefetch = true) ∧
      pairAt b 65 = s.mcp.holdLimit % 65536 ∧ (byteAt b 67 ≠ 0 ↔ s.tks.exportHold = true) ∧
      (byteAt b 68 ≠ 0 ↔ s.mcp.attnPulse = true)

/-- The requests that list change nothing but the response: LIST_ENTRIES a summary of each of the first eight entries
from the start asked for, and whether more remain; GET_ENTRY the entry's head, its success step and every outcome, or
NOT_FOUND; LIST_FRAMES, LIST_JOBS and LIST_OVERLAY a record of every member in order; READ_OVERLAY the writes and the
stored data with their check word, or NOT_FOUND (R182, R183, R186, R188, R189, R205, R212). That the bits of the flags
bytes which R212 does not name are 0 is the model's choice, log entry 53. -/
def Obligations.ListingsReportAndChangeNothing : Prop :=
  (∀ (s : State) (p : List Byte), Taking 0x10 p s →
    ∃ t b es, exec .listEntries s = .next t ∧ ChangesOnly [.stl] s t ∧ Answered .ok 0x10 b s t ∧
      es = s.rct.entries.filter (fun e => decide (quadAt p 0 ≤ e.seqNo)) ∧
      byteAt b 0 = min 8 es.length ∧ byteAt b 1 = (if 8 < es.length then 1 else 0) ∧
      b.length = 2 + 17 * byteAt b 0 ∧ RecordsOf SummaryRecord (b.drop 2) (es.take 8)) ∧
  (∀ (s : State) (p : List Byte), Taking 0x11 p s → ∃ t, exec .getEntry s = .next t ∧ ChangesOnly [.stl] s t ∧
    (entryOf (trackOf p) s = none → Answered .notFound 0x11 [] s t) ∧
    ∀ e, entryOf (trackOf p) s = some e → ∃ b, Answered .ok 0x11 b s t ∧ b.length = 15 + 8 * e.outcomes.length ∧
      EntryHeadAt b e ∧ byteAt b 13 = e.successStep.getD 255 % 256 ∧ byteAt b 14 = e.outcomes.length % 256 ∧
      RecordsOf (OutcomeRecord e.track s) (b.drop 15) e.outcomes) ∧
  (∀ (s : State) (p : List Byte), Taking 0x14 p s →
    ∃ t b, exec .listFrames s = .next t ∧ ChangesOnly [.stl] s t ∧ Answered .ok 0x14 b s t ∧
      byteAt b 0 = s.tks.frames.length % 256 ∧ b.length = 1 + 10 * s.tks.frames.length ∧
      RecordsOf (FrameRecord s) (b.drop 1) (s.tks.frames.zipIdx 1)) ∧
  (∀ (s : State) (p : List Byte), Taking 0x23 p s →
    ∃ t b, exec .listJobs s = .next t ∧ ChangesOnly [.stl] s t ∧ Answered .ok 0x23 b s t ∧
      byteAt b 0 = s.jbq.jobs.length % 256 ∧ b.length = 1 + (s.jbq.jobs.map fun j => 14 + 4 * j.tallies.length).sum ∧
      RecordsOf (JobRecord s.clock.uptime) (b.drop 1) s.jbq.jobs) ∧
  (∀ (s : State) (p : List Byte), Taking 0x30 p s →
    ∃ t b, exec .listOverlay s = .next t ∧ ChangesOnly [.stl] s t ∧ Answered .ok 0x30 b s t ∧
      byteAt b 0 = s.ovl.entries.length % 256 ∧ b.length = 1 + 5 * s.ovl.entries.length ∧
      RecordsOf OverlayRecord (b.drop 1) s.ovl.entries) ∧
  ∀ (s : State) (p : List Byte), Taking 0x31 p s → ∃ t, exec .readOverlay s = .next t ∧ ChangesOnly [.stl] s t ∧
    (overlayOf (sectorOf p) s = none → Answered .notFound 0x31 [] s t) ∧
    ∀ e, overlayOf (sectorOf p) s = some e → ∃ b, Answered .ok 0x31 b s t ∧ b.length = 515 ∧
      byteAt b 0 = e.writes % 256 ∧ DataAt b 1 ⟨e.data, check16 e.data.val⟩

/-- GET_STATS reports the four peaks, 255 for no margin, and the entries in each state, and changes nothing;
CLEAR_STATS returns the peaks to their cleared values and touches nothing else (R142, R181). -/
def Obligations.StatisticsAreReportedAndCleared : Prop :=
  (∀ (s : State) (p : List Byte), Taking 0x04 p s →
    ∃ t b, exec .getStats s = .next t ∧ ChangesOnly [.stl] s t ∧ Answered .ok 0x04 b s t ∧ b.length = 12 ∧
      pairAt b 0 = s.rct.peakPasses % 65536 ∧ byteAt b 2 = s.rct.peakMargin.getD 255 % 256 ∧
      pairAt b 3 = s.rct.peakDeviation % 65536 ∧ byteAt b 5 = s.rct.peakViolations % 256 ∧
      pairAt b 6 = (s.rct.entries.filter fun e => decide (e.state = .opened)).length % 65536 ∧
      pairAt b 8 = (s.rct.entries.filter fun e => decide (e.state = .recovered)).length % 65536 ∧
      pairAt b 10 = (s.rct.entries.filter fun e => decide (e.state = .incomplete)).length % 65536) ∧
  ∀ (s : State) (p : List Byte), Taking 0x05 p s →
    ∃ t, exec .clearStats s = .next t ∧ ChangesOnly [.stl, .rct] s t ∧ Answered .ok 0x05 [] s t ∧
      t.rct = ⟨s.rct.entries, s.rct.nextSequence, 0, none, 0, 0⟩

/-- GET_EVENTS removes the oldest records, as many as the clamped maximum or as are held, reports them oldest first in
nine bytes each with the overrun flag, and clears OVERRUN; GET_SNAPSHOT reports the latched snapshot, or none, and
frees the latch (R180, R198, R203). That the other bits of the overrun flag's byte are 0 is the model's choice, log
entry 53. -/
def Obligations.EventsAndSnapshotAreCollected : Prop :=
  (∀ (s : State) (p : List Byte), Taking 0x02 p s →
    ∃ t b n, exec .getEvents s = .next t ∧ ChangesOnly [.stl, .evq] s t ∧ Answered .ok 0x02 b s t ∧
      n = min (max 1 (min 8 (byteAt p 0))) s.evq.records.length ∧ t.evq.records = s.evq.records.drop n ∧
      t.evq.overrun = false ∧ t.evq.counter = s.evq.counter ∧ t.evq.snapshot = s.evq.snapshot ∧
      byteAt b 0 = (if s.evq.overrun then 1 else 0) ∧ byteAt b 1 = n ∧ b.length = 2 + 9 * n ∧
      ∀ i r, i < n → s.evq.records[i]? = some r →
        pairAt b (2 + 9 * i) = r.seqNo.toNat ∧ byteAt b (4 + 9 * i) = kindByte r.kind ∧
        byteAt b (5 + 9 * i) = eventClass r.kind ∧ (r.track = none → pairAt b (6 + 9 * i) = 65535 ∧ byteAt b (8 + 9 * i) = 0) ∧
        (∀ tr, r.track = some tr → pairAt b (6 + 9 * i) = tr.cyl % 65536 ∧ byteAt b (8 + 9 * i) = tr.head % 256) ∧
        pairAt b (9 + 9 * i) = r.detail % 65536) ∧
  ∀ (s : State) (p : List Byte), Taking 0x03 p s →
    ∃ t b, exec .getSnapshot s = .next t ∧ ChangesOnly [.stl, .evq] s t ∧ Answered .ok 0x03 b s t ∧
      t.evq = { s.evq with snapshot := none } ∧ (s.evq.snapshot = none → b = [0]) ∧
      ∀ x, s.evq.snapshot = some x → b.length = 23 ∧ byteAt b 0 = 1 ∧ byteAt b 1 = snapCauseByte x.cause ∧
        pairAt b 2 = x.seqNo.toNat ∧ quadAt b 4 = x.uptime.toNat ∧ byteAt b 8 = dsqByte x.dsqState ∧
        (x.position = none → pairAt b 9 = 65535) ∧
        (∀ q, x.position = some q → pairAt b 9 = q.cyl % 65536 ∧ byteAt b 11 = q.head % 256 ∧
          b.getD 12 0 = BitVec.ofInt 8 q.offset) ∧
        (x.job = none → pairAt b 13 = 65535 ∧ byteAt b 16 = 255) ∧
        (∀ tr k, x.job = some (tr, k) → pairAt b 13 = tr.cyl % 65536 ∧ byteAt b 15 = tr.head % 256 ∧ byteAt b 16 = k % 256) ∧
        pairAt b 17 = x.average.toNat % 65536 ∧ byteAt b 19 = x.violations % 256 ∧ byteAt b 20 = x.faults % 256 ∧
        pairAt b 21 = (BitVec.ofInt 16 x.lastDeviation).toNat

/-- READ_SECTOR is refused with RANGE outside the geometry and with NOT_FOUND without a frame; otherwise it reports the
sector's state and weight, and its 514 bytes of data if it holds any, and moves the frame to the most recent end of the
use order (R123, R185). That bits 2 to 7 of its flags are 0 is the model's choice, log entry 53. -/
def Obligations.ReadSectorReportsAndRefreshes : Prop :=
  ∀ (s : State) (p : List Byte), Taking 0x13 p s → ∃ t, exec .readSector s = .next t ∧ ChangesOnly [.stl, .tks] s t ∧
    (s.geom.cylinders ≤ pairAt p 0 ∨ s.geom.heads ≤ byteAt p 2 ∨ s.geom.sectors ≤ byteAt p 3 →
      Answered .range 0x13 [] s t ∧ t.tks = s.tks) ∧
    (pairAt p 0 < s.geom.cylinders → byteAt p 2 < s.geom.heads → byteAt p 3 < s.geom.sectors →
      (frameOf (trackOf p) s = none → Answered .notFound 0x13 [] s t ∧ t.tks = s.tks) ∧
      ∀ pre f post r, s.tks.frames = pre ++ f :: post → f.track = trackOf p →
        (∀ x ∈ pre ++ post, x.track ≠ trackOf p) → f.sectors[byteAt p 3]? = some r →
        t.tks = { s.tks with frames := pre ++ post ++ [f] } ∧
        ∃ b, Answered .ok 0x13 b s t ∧ byteAt b 0 = sectorStateByte r ∧
          byteAt b 1 = (match r with
            | .opened _ w => w
            | .failed (some (_, w)) => w
            | _ => 0) % 256 ∧
          byteAt b 2 = (if r.words.isSome then 1 else 0) + (if (overlayOf (sectorOf p) s).isSome then 2 else 0) ∧
          b.length = (if r.words.isSome then 517 else 3) ∧
          ∀ w, r.words = some w → (∀ i, i < 256 → pairAt b (3 + 2 * i) = (w.data.val.getD i 0).toNat) ∧
            pairAt b 515 = w.check.toNat)

/-- MARK_EXPORTED sets the entry's exported flag and clears the frame's export-pending flag, whichever exist, and says
which; the drive is then granted if a candidate has arisen. With neither it is refused with NOT_FOUND. That the frame is
reported cleared whenever it exists, its flag set or not, is log entry 39, and that the other bits of that byte are 0
is log entry 53. DROP_OVERLAY removes the entry of its address
and no other, and reports the address and the writes, or is refused with NOT_FOUND (R127, R140, R164, R184, R189). -/
def Obligations.MarkExportedAndDropOverlay : Prop :=
  (∀ (s : State) (p : List Byte), Taking 0x12 p s →
    ((entryOf (trackOf p) s).isSome ∨ (frameOf (trackOf p) s).isSome →
      ∃ t u, exec .markExported s = .next t ∧ ChangesOnly [.rct, .tks] s u ∧
        u.rct = { s.rct with entries := s.rct.entries.map fun e => if e.track = trackOf p then { e with exported := true } else e } ∧
        u.tks = { s.tks with frames := s.tks.frames.map fun f => if f.track = trackOf p then { f with exportPending := false } else f } ∧
        Answered .ok 0x12 [BitVec.ofNat 8 ((if (entryOf (trackOf p) s).isSome then 1 else 0) + (if (frameOf (trackOf p) s).isSome then 2 else 0))]
          (arbitrate u) t ∧ ChangesOnly [.stl] (arbitrate u) t) ∧
    (entryOf (trackOf p) s = none → frameOf (trackOf p) s = none →
      ∃ t, exec .markExported s = .next t ∧ ChangesOnly [.stl] s t ∧ Answered .notFound 0x12 [] s t)) ∧
  ∀ (s : State) (p : List Byte), Taking 0x32 p s → ∃ t, exec .dropOverlay s = .next t ∧ ChangesOnly [.stl, .ovl] s t ∧
    (∀ a, a ≠ sectorOf p → overlayOf a t = overlayOf a s) ∧ overlayOf (sectorOf p) t = none ∧
    (overlayOf (sectorOf p) s = none → Answered .notFound 0x32 [] s t ∧ t.ovl = s.ovl) ∧
    ∀ e, overlayOf (sectorOf p) s = some e → ∃ b, Answered .ok 0x32 b s t ∧ b.length = 5 ∧
      pairAt b 0 = pairAt p 0 ∧ byteAt b 2 = byteAt p 2 ∧ byteAt b 3 = byteAt p 3 ∧ byteAt b 4 = e.writes % 256

/-! ### The requests that store settings (R17, R44, R59, R85, R90, R91, R165, R190, R191) -/

/-- SET_GEOMETRY: RANGE when a value lies outside its range; STATE unless the Drive Sequencer is OFFLINE or IDLE, no job
and no frame stands; otherwise the three are stored and echoed, the port's track becomes 0/0, a hold begins unless the
port is NOT_READY or DETACHED, and a real position outside the geometry becomes unknown (R22, R149, R190). -/
def Obligations.SetGeometryStoresOrRefuses : Prop :=
  ∀ (s : State) (p : List Byte), Taking 0x40 p s →
    (pairAt p 0 = 0 ∨ 1024 < pairAt p 0 ∨ byteAt p 2 = 0 ∨ 16 < byteAt p 2 ∨ byteAt p 3 = 0 ∨ 32 < byteAt p 3 →
      ∃ t, exec .setGeometry s = .next t ∧ ChangesOnly [.stl] s t ∧ Answered .range 0x40 [] s t) ∧
    (1 ≤ pairAt p 0 → pairAt p 0 ≤ 1024 → 1 ≤ byteAt p 2 → byteAt p 2 ≤ 16 → 1 ≤ byteAt p 3 → byteAt p 3 ≤ 32 →
      ((s.dsq.state ≠ .offline ∧ s.dsq.state ≠ .idle) ∨ s.jbq.jobs ≠ [] ∨ s.tks.frames ≠ [] →
        ∃ t, exec .setGeometry s = .next t ∧ ChangesOnly [.stl] s t ∧ Answered .state 0x40 [] s t) ∧
      (s.dsq.state = .offline ∨ s.dsq.state = .idle → s.jbq.jobs = [] → s.tks.frames = [] →
        ∃ t u b, exec .setGeometry s = .next t ∧ ChangesOnly [.geom, .dsq, .mcp] s u ∧
          Answered .ok 0x40 b (arbitrate u) t ∧ ChangesOnly [.stl] (arbitrate u) t ∧ b.length = 4 ∧
          pairAt b 0 = pairAt p 0 ∧ byteAt b 2 = byteAt p 2 ∧ byteAt b 3 = byteAt p 3 ∧
          u.geom = ⟨pairAt p 0, byteAt p 2, byteAt p 3⟩ ∧ u.mcp.track = ⟨0, 0⟩ ∧
          (s.mcp.state = .notReady ∨ s.mcp.state = .detached → u.mcp.state = s.mcp.state ∧ u.mcp.hold = s.mcp.hold) ∧
          (s.mcp.state ≠ .notReady → s.mcp.state ≠ .detached →
            u.mcp.state = .seeking ∧ u.mcp.hold = some ⟨s.clock.uptime, s.mcp.holdLimit⟩) ∧
          u.dsq = { s.dsq with position := u.dsq.position } ∧
          ∀ x, s.dsq.position = some x →
            u.dsq.position = (if x.cyl < pairAt p 0 ∧ x.head < byteAt p 2 then some x else none)))

/-- SET_ROTATION: STATE outside OFFLINE and IDLE; otherwise each value is clamped, the six are stored and echoed, the
monitor enters IDLE with its count and latch clear and A at the new P_nom, a pulse begun and not yet qualified starts
afresh, no event is queued, and the Drive Sequencer follows the spindle to OFFLINE (R17, R23; that an index of the same
microsecond may still be taken under the old width is log entry 6). -/
def Obligations.SetRotationRestartsMonitor : Prop :=
  ∀ (s : State) (p : List Byte), Taking 0x41 p s →
    (s.dsq.state ≠ .offline → s.dsq.state ≠ .idle →
      ∃ t, exec .setRotation s = .next t ∧ ChangesOnly [.stl] s t ∧ Answered .state 0x41 [] s t) ∧
    (s.dsq.state = .offline ∨ s.dsq.state = .idle →
      ∃ t b r, exec .setRotation s = .next t ∧ ChangesOnly [.ixm, .dsq, .mcp, .stl] s t ∧ Answered .ok 0x41 b s t ∧
        r = ⟨max 8000 (min 50000 (pairAt p 0)), max 1 (min 100 (byteAt p 2)), min 7 (byteAt p 3),
          max 1 (min 7 (byteAt p 4)), min 6 (byteAt p 5), max 1 (byteAt p 6)⟩ ∧
        t.ixm = ⟨.idle, none, none, 0, false, r.pNom, r, restartedLine s.ixm⟩ ∧
        b.length = 7 ∧ pairAt b 0 = r.pNom ∧ byteAt b 2 = r.tol ∧
        byteAt b 3 = r.startup ∧ byteAt b 4 = r.limit ∧ byteAt b 5 = r.shift ∧ byteAt b 6 = r.width ∧
        (spindleDown s.ixm = false → t.dsq = { s.dsq with state := .offline }))

/-- SET_READ, SET_VOTE, SET_LADDER_STEP and SET_LADDER_SHAPE are taken in every state: each value is clamped, stored and
echoed. A copy limit below a sector's count trims its list to the limit, dropping the lightest copies, the earliest of
equals first, with the others in their order and the fresh mark left. A step number of 0 or above 12 is refused with
RANGE, and another replaces that record alone (R59, R67, R85, R90, R91). -/
def Obligations.ReadVoteAndLadderSettingsStore : Prop :=
  (∀ (s : State) (p : List Byte), Taking 0x42 p s →
    ∃ t b, exec .setRead s = .next t ∧ ChangesOnly [.rdc, .stl] s t ∧ Answered .ok 0x42 b s t ∧
      t.rdc = { s.rdc with headerOffset := min 2000 (pairAt p 0), slipLimit := max 10 (min 2000 (pairAt p 2)) } ∧
      b.length = 4 ∧ pairAt b 0 = t.rdc.headerOffset ∧ pairAt b 2 = t.rdc.slipLimit) ∧
  (∀ (s : State) (p : List Byte), Taking 0x43 p s →
    ∃ t, exec .setVote s = .next t ∧ ChangesOnly [.vte, .cps, .stl] s t ∧
      t.vte = { s.vte with copyLimit := max 3 (min 5 (byteAt p 0)), minMargin := min 40 (byteAt p 1) } ∧
      Answered .ok 0x43 [BitVec.ofNat 8 t.vte.copyLimit, BitVec.ofNat 8 t.vte.minMargin] s t ∧
      ∀ a cs, cs = copiesOf a s.cps → isFresh a t.cps = isFresh a s.cps ∧
        ∃ kept : List Nat, kept.Pairwise (· < ·) ∧ (∀ k ∈ kept, k < cs.length) ∧
          kept.length = min t.vte.copyLimit cs.length ∧ copiesOf a t.cps = kept.filterMap (fun k => cs[k]?) ∧
          ∀ x y cx cy, x ∈ kept → y ∉ kept → cs[x]? = some cx → cs[y]? = some cy →
            cy.weight < cx.weight ∨ (cy.weight = cx.weight ∧ y < x)) ∧
  (∀ (s : State) (p : List Byte), Taking 0x44 p s →
    (byteAt p 0 = 0 ∨ 12 < byteAt p 0 →
      ∃ t, exec .setLadderStep s = .next t ∧ ChangesOnly [.stl] s t ∧ Answered .range 0x44 [] s t) ∧
    (1 ≤ byteAt p 0 → byteAt p 0 ≤ 12 → s.jbq.ladder.length = 12 →
      ∃ t r, exec .setLadderStep s = .next t ∧ ChangesOnly [.jbq, .stl] s t ∧
        r = ⟨max (-3) (min 3 (p.getD 1 0).toInt), max (-4) (min 4 (p.getD 2 0).toInt), max 1 (min 4 (byteAt p 3))⟩ ∧
        Answered .ok 0x44 [BitVec.ofNat 8 (byteAt p 0), BitVec.ofInt 8 r.offset, BitVec.ofInt 8 r.shift, BitVec.ofNat 8 r.passes] s t ∧
        t.jbq = { s.jbq with ladder := t.jbq.ladder } ∧ t.jbq.ladder.length = 12 ∧
        ∀ i, t.jbq.ladder[i]? = if i + 1 = byteAt p 0 then some r else s.jbq.ladder[i]?)) ∧
  ∀ (s : State) (p : List Byte), Taking 0x45 p s →
    ∃ t b, exec .setLadderShape s = .next t ∧ ChangesOnly [.jbq, .stl] s t ∧ Answered .ok 0x45 b s t ∧
      t.jbq = { s.jbq with length := max 1 (min 12 (byteAt p 0)), repeats := min 3 (byteAt p 1), cooldown := min 60000 (pairAt p 2) } ∧
      b.length = 4 ∧ byteAt b 0 = t.jbq.length ∧ byteAt b 1 = t.jbq.repeats ∧ pairAt b 2 = t.jbq.cooldown

/-- SET_DRIVE and SET_PORT are taken in every state: each number is clamped and each flag read as on for any byte but
0; they are stored together and echoed, a flag that is on by a byte other than 0, and the drive is then granted if a
candidate has arisen. A change of attention mode to LEVEL drives the line from the queue, and one to PULSE leaves it
inactive (R44, R165, R177, R200). -/
def Obligations.SetDriveAndSetPortStore : Prop :=
  (∀ (s : State) (p : List Byte), Taking 0x46 p s →
    ∃ t u b, exec .setDrive s = .next t ∧ ChangesOnly [.dsq] s u ∧ Answered .ok 0x46 b (arbitrate u) t ∧
      ChangesOnly [.stl] (arbitrate u) t ∧
      u.dsq = { s.dsq with set := ⟨max 10 (min 500 (pairAt p 0)), min 50 (byteAt p 2), min 7 (byteAt p 3), max 1 (min 15 (byteAt p 4)), max 1 (min 600 (pairAt p 5)), decide (byteAt p 7 ≠ 0)⟩ } ∧
      b.length = 8 ∧ pairAt b 0 = u.dsq.set.seekTimeout ∧ byteAt b 2 = u.dsq.set.settle ∧
      byteAt b 3 = u.dsq.set.retries ∧ byteAt b 4 = u.dsq.set.fenceLimit ∧ pairAt b 5 = u.dsq.set.quietPeriod ∧
      (byteAt b 7 = 0 ↔ byteAt p 7 = 0)) ∧
  ∀ (s : State) (p : List Byte), Taking 0x47 p s →
    ∃ t u b, exec .setPort s = .next t ∧ ChangesOnly [.mcp, .tks, .evq] s u ∧ Answered .ok 0x47 b (arbitrate u) t ∧
      ChangesOnly [.stl] (arbitrate u) t ∧
      u.mcp = { s.mcp with holdLimit := min 2000 (pairAt p 0), attnPulse := decide (byteAt p 3 ≠ 0) } ∧
      u.tks = { s.tks with exportHold := decide (byteAt p 2 ≠ 0) } ∧
      (u.mcp.attnPulse = s.mcp.attnPulse → u.evq = s.evq) ∧
      (u.mcp.attnPulse ≠ s.mcp.attnPulse →
        u.evq = { s.evq with line := !u.mcp.attnPulse && !s.evq.records.isEmpty, pulse := .none }) ∧
      b.length = 4 ∧ pairAt b 0 = u.mcp.holdLimit ∧ (byteAt b 2 = 0 ↔ byteAt p 2 = 0) ∧ (byteAt b 3 = 0 ↔ byteAt p 3 = 0)

/-! ### The job requests (R99 to R102, R109, R187) -/

/-- QUEUE_TRACK with its checks in order: RANGE; a merge into the track's job, which makes its origin STATION unless
the six-frame limit answers FULL; FULL with 16 jobs; and a frameless STATION job at the end of the queue, its fill
pending over every sector, the track's entry reopened. A merge and a creation report the job's place in the queue as
the request leaves it (R99, R101, R125, R135, R187). -/
def Obligations.QueueTrackCreatesOrMerges : Prop :=
  ∀ (s : State) (p : List Byte) (tr : Track), Taking 0x20 p s → tr = trackOf p →
    (s.geom.cylinders ≤ tr.cyl ∨ s.geom.heads ≤ tr.head ∨ s.jbq.length < byteAt p 3 →
      ∃ t, exec .queueTrack s = .next t ∧ ChangesOnly [.stl] s t ∧ Answered .range 0x20 [] s t) ∧
    (tr.cyl < s.geom.cylinders → tr.head < s.geom.heads → byteAt p 3 ≤ s.jbq.length →
      (∀ j, jobOf tr s = some j → j.origin = .station →
        ∃ t n, exec .queueTrack s = .next t ∧ ChangesOnly [.stl] s t ∧ InQueueAt n tr s ∧
          Answered .ok 0x20 [1, BitVec.ofNat 8 n] s t) ∧
      (∀ j, jobOf tr s = some j → j.origin ≠ .station → j.holdsFrame = true → 6 ≤ stationFramesHeld s →
        ∃ t, exec .queueTrack s = .next t ∧ ChangesOnly [.stl] s t ∧ Answered .full 0x20 [] s t) ∧
      (∀ j, jobOf tr s = some j → j.origin ≠ .station → j.holdsFrame = false ∨ stationFramesHeld s < 6 →
        ∃ t u v n, exec .queueTrack s = .next t ∧ ChangesOnly [.jbq, .rct] s u ∧
          v = arbitrate (testHold u) ∧ InQueueAt n tr v ∧ Answered .ok 0x20 [1, BitVec.ofNat 8 n] v t ∧
          ChangesOnly [.stl] v t ∧
          u.jbq = { s.jbq with jobs := s.jbq.jobs.map fun x => if x.track = tr then { x with origin := .station } else x } ∧
          (∀ e, entryOf tr s = some e → e.state = .opened → entryOf tr u = some { e with origin := .station })) ∧
      (jobOf tr s = none → 16 ≤ s.jbq.jobs.length →
        ∃ t, exec .queueTrack s = .next t ∧ ChangesOnly [.stl] s t ∧ Answered .full 0x20 [] s t) ∧
      (jobOf tr s = none → s.jbq.jobs.length < 16 → frameOf tr s = none →
        ∃ t u v n j, exec .queueTrack s = .next t ∧ ChangesOnly [.jbq, .rct] s u ∧
          v = arbitrate (testHold u) ∧ InQueueAt n tr v ∧ Answered .ok 0x20 [0, BitVec.ofNat 8 n] v t ∧
          ChangesOnly [.stl] v t ∧
          u.jbq = { s.jbq with jobs := s.jbq.jobs ++ [j] } ∧ j.track = tr ∧ j.origin = .station ∧ j.state = .queued ∧
          j.holdsFrame = false ∧ j.openSet = List.range s.geom.sectors ∧
          (∀ x ∈ j.tallies, x.captured = 0 ∧ x.badHeaders = 0 ∧ x.lastVote = none) ∧ j.step = 0 ∧
          j.first = max 1 (byteAt p 3) ∧ j.fill = true ∧ j.done = 0 ∧ j.cycle = 0 ∧ j.counter = 0 ∧ j.starved = false ∧
          (entryOf tr s = none → u.rct = s.rct) ∧
          ∀ e, entryOf tr s = some e → entryOf tr u = some { e with
            state := .opened, origin := .station, runs := min 255 (e.runs + 1), exported := false
            outcomes := e.outcomes.map fun o => if o.result.isFailed then ⟨o.sector, .pending⟩ else o }))

/-- QUEUE_TRACK on a kept frame, and RETRY_TRACK: the six-frame limit answers FULL; a frame without FAILED sectors is
clean, queues JOB_CLEAN and makes no job, also where the track's fetch is still in flight, which is log entry 16;
otherwise a STATION job that owns the frame opens its FAILED sectors, a sector with data OPEN with its weight and one
without EMPTY; the entry is created, or reopened with its FAILED outcomes PENDING, one more for a FAILED sector without
an outcome, its other outcomes, success step and flags kept; and the answer gives the job's place in the queue (R100,
R102, R120, R133, R135, R187). -/
def Obligations.KeptFramesAreRetried : Prop :=
  (∀ (s : State) (p : List Byte) (tr : Track) (f : Frame), Taking 0x20 p s → tr = trackOf p →
    tr.cyl < s.geom.cylinders → tr.head < s.geom.heads → byteAt p 3 ≤ s.jbq.length → jobOf tr s = none →
    s.jbq.jobs.length < 16 → frameOf tr s = some f →
    (6 ≤ stationFramesHeld s →
      ∃ t, exec .queueTrack s = .next t ∧ ChangesOnly [.stl] s t ∧ Answered .full 0x20 [] s t) ∧
    (stationFramesHeld s < 6 → (∀ r ∈ f.sectors, r.isFailed = false) →
      ∃ t, exec .queueTrack s = .next t ∧ ChangesOnly [.stl, .evq] s t ∧ Answered .ok 0x20 [2, 0] s t ∧
        FirstQueued .jobClean (some tr) 0 s t) ∧
    (stationFramesHeld s < 6 → (∃ r ∈ f.sectors, r.isFailed = true) →
      ∃ t u v n, exec .queueTrack s = .next t ∧ v = arbitrate (testHold u) ∧ InQueueAt n tr v ∧
        Answered .ok 0x20 [0, BitVec.ofNat 8 n] v t ∧ ChangesOnly [.stl] v t ∧ JobOverKeptFrame tr f (byteAt p 3) s u)) ∧
  ∀ (s : State) (p : List Byte) (tr : Track), Taking 0x21 p s → tr = trackOf p →
    (s.geom.cylinders ≤ tr.cyl ∨ s.geom.heads ≤ tr.head →
      ∃ t, exec .retryTrack s = .next t ∧ ChangesOnly [.stl] s t ∧ Answered .range 0x21 [] s t) ∧
    (tr.cyl < s.geom.cylinders → tr.head < s.geom.heads → entryOf tr s = none →
      ∃ t, exec .retryTrack s = .next t ∧ ChangesOnly [.stl] s t ∧ Answered .notFound 0x21 [] s t) ∧
    ∀ e, tr.cyl < s.geom.cylinders → tr.head < s.geom.heads → entryOf tr s = some e →
      (e.state ≠ .incomplete ∨ frameOf tr s = none ∨ (jobOf tr s).isSome ∨
          (∃ f, frameOf tr s = some f ∧ ∀ r ∈ f.sectors, r.isFailed = false) →
        ∃ t, exec .retryTrack s = .next t ∧ ChangesOnly [.stl] s t ∧ Answered .state 0x21 [] s t) ∧
      ∀ f, e.state = .incomplete → frameOf tr s = some f → jobOf tr s = none → (∃ r ∈ f.sectors, r.isFailed = true) →
        (16 ≤ s.jbq.jobs.length ∨ 6 ≤ stationFramesHeld s →
          ∃ t, exec .retryTrack s = .next t ∧ ChangesOnly [.stl] s t ∧ Answered .full 0x21 [] s t) ∧
        (s.jbq.jobs.length < 16 → stationFramesHeld s < 6 →
          ∃ t u v n, exec .retryTrack s = .next t ∧ v = arbitrate (testHold u) ∧ InQueueAt n tr v ∧
            Answered .ok 0x21 [BitVec.ofNat 8 n] v t ∧ ChangesOnly [.stl] v t ∧ JobOverKeptFrame tr f 1 s u)

/-- CANCEL_JOB: RANGE, or NOT_FOUND without a job; otherwise the job's grant and its batch end, in READING and VOTING
with the sequencer IDLE, also with the spindle STOPPED or STARTING, which is log entry 19; and the job leaves the queue.
Its open sectors in the frame it owns are FAILED keeping their best copies, and their number is the answer; the frame of
a fill that has sealed nothing is released, and the answer is 0, as it is without a frame. The track's copies are freed,
also those of a fetch in flight where the job holds no frame, which is log entry 17. An OPEN entry closes with reason
CANCELLED, PARTIAL while the fill was pending, which is log entry 14, a PENDING outcome of a sector not open standing,
which is log entry 49 (R66, R84, R108, R109, R119, R138, R187). -/
def Obligations.CancelJobEndsTheJob : Prop :=
  ∀ (s : State) (p : List Byte) (tr : Track), Taking 0x22 p s → tr = trackOf p →
    (s.geom.cylinders ≤ tr.cyl ∨ s.geom.heads ≤ tr.head →
      ∃ t, exec .cancelJob s = .next t ∧ ChangesOnly [.stl] s t ∧ Answered .range 0x22 [] s t) ∧
    (tr.cyl < s.geom.cylinders → tr.head < s.geom.heads → jobOf tr s = none →
      ∃ t, exec .cancelJob s = .next t ∧ ChangesOnly [.stl] s t ∧ Answered .notFound 0x22 [] s t) ∧
    ∀ j, tr.cyl < s.geom.cylinders → tr.head < s.geom.heads → jobOf tr s = some j →
      ∃ t u v n, exec .cancelJob s = .next t ∧ ChangesOnly driveBlocks s u ∧ v = arbitrate (testHold u) ∧
        Answered .ok 0x22 [BitVec.ofNat 8 n] v t ∧ ChangesOnly [.stl] v t ∧ u.mcp = s.mcp ∧
        u.jbq = { s.jbq with jobs := s.jbq.jobs.filter fun x => x.track != tr } ∧
        (∀ g, s.dsq.grant = some g → g.kind = .jobPass → g.track = tr →
          u.dsq = { s.dsq with grant := none, state := u.dsq.state } ∧ u.rdc = { s.rdc with pass := none, assembly := none } ∧
          u.vte = { s.vte with batch := if g.phase = .voting then none else s.vte.batch } ∧
          u.dsq.state = if s.dsq.state = .reading ∨ s.dsq.state = .voting then .idle else s.dsq.state) ∧
        ((∀ g, s.dsq.grant = some g → ¬ (g.kind = .jobPass ∧ g.track = tr)) →
          u.dsq = s.dsq ∧ u.rdc = s.rdc ∧ u.vte = s.vte) ∧
        (∀ i, copiesOf ⟨tr, i⟩ u.cps = []) ∧ (∀ a, a.track ≠ tr → copiesOf a u.cps = copiesOf a s.cps) ∧
        (j.holdsFrame = false → n = 0 ∧ u.tks = s.tks) ∧
        (∀ f, j.holdsFrame = true → frameOf tr s = some f →
          (j.fill = true → f.allEmpty = true → n = 0 ∧
            u.tks = { s.tks with frames := s.tks.frames.filter fun x => x.track != tr }) ∧
          (j.fill = false ∨ f.allEmpty = false →
            n = j.openSet.countP (fun i => (f.sectors[i]?).any SectorRec.unresolved) ∧
            ∃ f', frameOf tr u = some f' ∧ f'.exportPending = f.exportPending ∧ ∀ i,
              f'.sectors[i]? = if i ∈ j.openSet then (f.sectors[i]?).map failRecord else f.sectors[i]?)) ∧
        u.rct.peakPasses = max s.rct.peakPasses j.counter ∧
        ((∀ e, entryOf tr s = some e → e.state ≠ .opened) → u.rct.entries = s.rct.entries ∧ u.evq = s.evq) ∧
        ∀ e, entryOf tr s = some e → e.state = .opened → ∃ e' os, entryOf tr u = some e' ∧
          e' = { e with state := e'.state, outcomes := os } ∧ e'.state ≠ .opened ∧
          List.Forall₂ (EndedOutcome (.cause .cancelled) j s) e.outcomes os ∧
          (e'.state = .incomplete ↔ j.fill = true ∨ ∃ o ∈ os, o.result.isFailed = true) ∧
          (e'.state = .recovered → FirstQueued .trackRecovered (some tr) os.length s u) ∧
          (e'.state = .incomplete → FirstQueued .trackPartial (some tr) (os.countP fun o => o.result.isFailed) s u)

/-! ### The control requests (R39 to R43, R47, R193, R194, R204) -/

/-- CLEAR_FENCE: STATE while the fault line is asserted or contention is seen; with no fence OK and no effect; a
recorded fence is cleared with F and the quiet expiry, FENCE_CLEARED carries its cause, and a FENCED sequencer
recalibrates, the port leaving NOT_READY, unless the spindle is STOPPED or STARTING (R20, R34, R36, R39, R147). That
contention is not seen in DETACHED is log entry 21; that a line which another master holds inactive fences a sequencer
cleared from FENCED again, with cause CONTENTION, is log entry 46. -/
def Obligations.ClearFenceClearsAndRecalibrates : Prop :=
  ∀ (s : State) (p : List Byte), Taking 0x50 p s →
    (s.pins.driveFault = true ∨ ContentionOn s →
      ∃ t, exec .clearFence s = .next t ∧ ChangesOnly [.stl] s t ∧ Answered .state 0x50 [] s t) ∧
    (s.pins.driveFault = false → ¬ ContentionOn s →
      (s.dsq.fence = none →
        ∃ t, exec .clearFence s = .next t ∧ ChangesOnly [.stl] s t ∧ Answered .ok 0x50 [0] s t) ∧
      (∀ c, s.dsq.fence = some c → s.dsq.state ≠ .fenced ∨ s.pins.selectHeld ≠ some false →
        ∃ t, exec .clearFence s = .next t ∧ ChangesOnly [.dsq, .evq, .mcp, .stl] s t ∧
          Answered .ok 0x50 [BitVec.ofNat 8 (causeByte c)] s t ∧ FirstQueued .fenceCleared none (causeByte c) s t ∧
          t.dsq.fence = none ∧ t.dsq.faults = 0 ∧ t.dsq.quiet = none ∧ t.dsq.grant = s.dsq.grant ∧
          (s.dsq.state ≠ .fenced → t.dsq.state = s.dsq.state ∧ t.mcp = s.mcp) ∧
          (s.dsq.state = .fenced → spindleDown s.ixm = true → t.dsq.state = .offline ∧ t.dsq.position = none) ∧
          (s.dsq.state = .fenced → spindleDown s.ixm = false → t.dsq.state = .recalibrating ∧ t.dsq.position = none ∧
            t.dsq.expiry = some ⟨s.clock.uptime, 10 * s.dsq.set.seekTimeout⟩ ∧
            (s.mcp.state = .notReady → t.mcp.state ≠ .notReady ∧ t.mcp.track = ⟨0, 0⟩))) ∧
      ∀ c, s.dsq.fence = some c → s.dsq.state = .fenced → s.pins.selectHeld = some false →
        ∃ t, exec .clearFence s = .next t ∧ ChangesOnly (.stl :: driveBlocks) s t ∧
          Answered .ok 0x50 [BitVec.ofNat 8 (causeByte c)] s t ∧ FirstQueued .fenceCleared none (causeByte c) s t ∧
          t.dsq.state = .fenced ∧ t.dsq.fence = some .contention ∧ t.dsq.faults = 0 ∧ t.dsq.quiet = none ∧
          t.dsq.position = none ∧ t.dsq.expiry = none ∧ LastOffered .driveFenced none (causeByte .contention) t ∧
          (s.mcp.state ≠ .detached → t.mcp.state = .notReady) ∧
          (s.evq.snapshot = none → ∃ x, t.evq.snapshot = some x ∧ x.cause = .fence .contention))

/-- REST_DRIVE: STATE when FENCED or DETACHED; otherwise the work in hand is abandoned and the drive rests for the
clamped time, its position unknown; a rest of 0 ms ends in the same event (log entry 19), in a recalibrate, or in OFFLINE
with the spindle STOPPED or STARTING. BYPASS on abandons the work and takes the sequencer and the port to DETACHED, its
fence kept; on or off already, it has no effect; off, it ends in FENCED with the fence kept or a new one, or recalibrates
(R20, R32, R33, R34, R40, R41, R42, R43, R148; the fault line is looked at before contention by log entry 20). -/
def Obligations.RestAndBypassWithdrawTheDrive : Prop :=
  (∀ (s : State) (p : List Byte), Taking 0x51 p s →
    (s.dsq.state = .fenced ∨ s.dsq.state = .detached →
      ∃ t, exec .restDrive s = .next t ∧ ChangesOnly [.stl] s t ∧ Answered .state 0x51 [] s t) ∧
    (s.dsq.state ≠ .fenced → s.dsq.state ≠ .detached → 1 ≤ pairAt p 0 →
      ∃ t b, exec .restDrive s = .next t ∧ ChangesOnly (.stl :: driveBlocks) s t ∧ Answered .ok 0x51 b s t ∧
        b.length = 2 ∧ pairAt b 0 = min 60000 (pairAt p 0) ∧ t.dsq.state = .resting ∧ t.dsq.position = none ∧
        t.dsq.expiry = some ⟨s.clock.uptime, min 60000 (pairAt p 0)⟩ ∧ t.dsq.faults = s.dsq.faults ∧
        ∀ g, t.dsq.grant = some g → s.dsq.grant = some g ∧ g.phase = .voting) ∧
    (s.dsq.state ≠ .fenced → s.dsq.state ≠ .detached → pairAt p 0 = 0 →
      ∃ t, exec .restDrive s = .next t ∧ ChangesOnly (.stl :: driveBlocks) s t ∧ Answered .ok 0x51 [0, 0] s t ∧
        t.dsq.position = none ∧ t.dsq.faults = s.dsq.faults ∧
        (spindleDown s.ixm = true → t.dsq.state = .offline ∧ t.dsq.expiry = none) ∧
        (spindleDown s.ixm = false → t.dsq.state = .recalibrating ∧
          t.dsq.expiry = some ⟨s.clock.uptime, 10 * s.dsq.set.seekTimeout⟩) ∧
        ∀ g, t.dsq.grant = some g → s.dsq.grant = some g ∧ g.phase = .voting)) ∧
  (∀ (s : State) (p : List Byte), Taking 0x52 p s → byteAt p 0 ≠ 0 →
    ∃ t, exec .bypassOn s = .next t ∧ ChangesOnly (.stl :: driveBlocks) s t ∧ Answered .ok 0x52 [1] s t ∧
      (s.dsq.bypass = true → ChangesOnly [.stl] s t) ∧
      (s.dsq.bypass = false → t.dsq.state = .detached ∧ t.dsq.bypass = true ∧ t.dsq.position = none ∧
        t.dsq.fence = s.dsq.fence ∧ t.dsq.faults = s.dsq.faults ∧ t.mcp.state = .detached ∧ t.mcp.hold = none ∧
        t.mcp.activity = .none ∧ t.mcp.track = s.mcp.track ∧
        ∀ g, t.dsq.grant = some g → s.dsq.grant = some g ∧ g.phase = .voting)) ∧
  ∀ (s : State) (p : List Byte), Taking 0x52 p s → byteAt p 0 = 0 →
    ∃ t, exec .bypassOff s = .next t ∧ Answered .ok 0x52 [0] s t ∧
      (s.dsq.bypass = false → ChangesOnly [.stl] s t) ∧
      (s.dsq.bypass = true → s.dsq.fence.isSome → t.dsq.bypass = false ∧ t.dsq.state = .fenced ∧
        t.dsq.fence = s.dsq.fence ∧ t.mcp.state = .notReady) ∧
      (s.dsq.bypass = true → s.dsq.fence = none → s.pins.driveFault = true ∨ s.pins.selectHeld = some false →
        t.dsq.bypass = false ∧ t.dsq.state = .fenced ∧ t.mcp.state = .notReady ∧
        t.dsq.fence = some (if s.pins.driveFault then .driveFault else .contention)) ∧
      (s.dsq.bypass = true → s.dsq.fence = none → s.pins.driveFault = false → s.pins.selectHeld ≠ some false →
        t.dsq.bypass = false ∧ t.dsq.position = none ∧
        (spindleDown s.ixm = true → t.dsq.state = .offline ∧ t.mcp.state = .notReady) ∧
        (spindleDown s.ixm = false → t.dsq.state = .recalibrating ∧ t.mcp.track = ⟨0, 0⟩ ∧
          t.dsq.expiry = some ⟨s.clock.uptime, 10 * s.dsq.set.seekTimeout⟩))

/-- SOFT_RESET: each block's part. Jobs, frames, copies, the grant, the pass and the batch are gone; the monitor is
restarted, a pulse begun and not yet qualified with it, and the sequencer by its bypass and its fence; the settings, the
overlay, the fence and the snapshot are kept; a closed entry stands, an OPEN one closes PARTIAL with its open sectors
FAILED, reason CANCELLED; the peak of passes takes the jobs'; and RESET_DONE is offered last, with the number of
export-pending frames that stood when the jobs had ended, a fill's frame still wholly EMPTY being released before (R18,
R47, R60, R69, R87, R108, R112, R129, R144, R167, R178, R204). That every OPEN entry closes PARTIAL, and the sectors
still open while a fill is pending, are log entry 14; that a PENDING outcome of a sector not open stands, log entry 49;
the index line's record log entry 6. -/
def Obligations.SoftResetRestartsTheBlocks : Prop :=
  ∀ (s : State) (p : List Byte), Taking 0x5F p s → TableKept s → CollectionsBounded s →
    ∃ t n, exec .softReset s = .next t ∧ ChangesOnly ([.ixm, .stl] ++ driveBlocks) s t ∧
      t.stl = { s.stl with request := none, response := some ⟨.ok, [0x5F]⟩, collision := false } ∧
      t.ixm = ⟨.idle, none, none, 0, false, s.ixm.rot.pNom, s.ixm.rot, restartedLine s.ixm⟩ ∧
      t.dsq = { s.dsq with
        state := if s.dsq.bypass then .detached else if s.dsq.fence.isSome then .fenced else .offline
        position := none, grant := none, seekTarget := none, faults := 0, expiry := none, quiet := none } ∧
      t.rdc = { s.rdc with pass := none, assembly := none, shift := 0 } ∧ t.cps = ⟨[]⟩ ∧
      t.vte = { s.vte with batch := none } ∧ t.jbq = { s.jbq with jobs := [], fetch := none } ∧
      t.tks = { s.tks with frames := [] } ∧
      t.mcp = { s.mcp with
        state := if s.dsq.bypass then .detached else .notReady, track := ⟨0, 0⟩, hold := none, activity := .none } ∧
      t.rct = { s.rct with
        entries := t.rct.entries, peakPasses := (s.jbq.jobs.map Job.counter).foldl max s.rct.peakPasses } ∧
      t.rct.entries.length = s.rct.entries.length ∧
      (∀ (i : Nat) (e : Entry), s.rct.entries[i]? = some e → e.state ≠ .opened → t.rct.entries[i]? = some e) ∧
      (∀ (i : Nat) (e : Entry) (j : Job), s.rct.entries[i]? = some e → e.state = .opened → jobOf e.track s = some j →
        t.rct.entries[i]? = some { e with
          state := .incomplete
          outcomes := e.outcomes.map fun o =>
            if (j.fill = false ∧ o.sector ∈ j.openSet) ∨ (j.fill = true ∧ o.result = .pending)
            then ⟨o.sector, .failed (copiesOf ⟨e.track, o.sector⟩ s.cps).length .cancelled⟩ else o }) ∧
      n = s.tks.frames.countP (fun f => f.exportPending &&
        !((jobOf f.track s).any fun j => j.holdsFrame && j.fill && f.allEmpty)) ∧
      t.evq = (offer .resetDone none n s).evq ∧
      (s.evq.records.length < 32 → t.evq.records = s.evq.records ++ [⟨s.evq.counter, .resetDone, none, n⟩]) ∧
      (32 ≤ s.evq.records.length → t.evq.records = s.evq.records ∧ t.evq.overrun = true)

/-! ### Rotation (R3 to R13) -/

/-- INDEX_QUALIFIED of a pulse that does not qualify at this moment changes nothing; one that qualifies moves the window:
IDLE to STARTUP, and STARTUP, CLOSED, OPEN and RESYNC to CLOSED, with the index as the reference and the expiry of the
new window. An early index counts a violation and may latch UNSTABLE; a good one moves A by trunc((x − A) / 2^N), takes a
violation off and clears the latch at 0; the second index of STARTUP queues SPINDLE_RUNNING and an OFFLINE sequencer
recalibrates. At a mark in READING, the pass waited for begins if the spindle is RUNNING, timed from this index, and
waits on otherwise; and a pass in flight is counted unless the mark latched UNSTABLE (R3, R5 to R11, R13, R15, R23, R29,
R30, R50, R55, R71, R95). When a pulse qualifies, and that it does so once, is by the record of log entry 6. -/
def Obligations.IndexMovesWindow : Prop :=
  ∀ (s : State) (n : Nat), (¬ Qualifies n s → exec (.indexQualified n) s = .next s) ∧
    (Qualifies n s → ∃ t line closed, exec (.indexQualified n) s = .next t ∧ ChangesOnly (.ixm :: driveBlocks) s t ∧
      line = { s.ixm.line with taken := 0 } ∧ ¬ Qualifies n t ∧
      closed = { s.ixm with
        window := .closed, reference := some s.clock.rotationTimer, line := line
        expiry := some ⟨s.clock.rotationTimer, s.ixm.rot.pNom - s.ixm.rot.pNom * s.ixm.rot.tol / 1000⟩ } ∧
      (s.ixm.window = .idle → t.ixm = { s.ixm with
        window := .startup, reference := some s.clock.rotationTimer, line := line
        expiry := some ⟨s.clock.rotationTimer, (s.ixm.rot.startup + 1) * s.ixm.rot.pNom⟩ }) ∧
      (s.ixm.window = .startup ∨ s.ixm.window = .resync → t.ixm = closed) ∧
      (s.ixm.window = .startup → FirstQueued .spindleRunning none s.ixm.violations s t ∧
        (s.dsq.state = .offline → s.ixm.latched = false → t.dsq = { s.dsq with
          state := .recalibrating, position := none, seekTarget := none
          expiry := some ⟨s.clock.uptime, 10 * s.dsq.set.seekTimeout⟩ })) ∧
      (s.ixm.window = .closed → t.ixm = { closed with
        violations := min 7 (s.ixm.violations + 1)
        latched := s.ixm.latched || decide (s.ixm.rot.limit ≤ min 7 (s.ixm.violations + 1)) }) ∧
      (∀ r, s.ixm.window = .opened → s.ixm.reference = some r → t.ixm = { closed with
        average := s.ixm.average +
          (((s.clock.rotationTimer - r).toNat : Int) - s.ixm.average).tdiv (2 ^ s.ixm.rot.shift)
        violations := s.ixm.violations - 1
        latched := s.ixm.latched && decide (1 < s.ixm.violations) }) ∧
      ∀ g, s.ixm.window = .closed ∨ s.ixm.window = .opened ∨ s.ixm.window = .resync → s.dsq.state = .reading →
        s.dsq.grant = some g →
        (g.phase = .approach → t.ixm.latched = false →
          t.dsq = { s.dsq with grant := some { g with phase := .inPass, begun := true } } ∧
          t.rdc = { s.rdc with
            pass := some ⟨g.track, g.openSet, s.clock.rotationTimer, t.ixm.average, g.shift, g.step, g.passNo,
              s.rdc.headerOffset, s.rdc.slipLimit, s.geom.sectors⟩
            shift := g.shift, assembly := none }) ∧
        (g.phase = .approach → s.ixm.latched = true → t.ixm.latched = true → t.dsq = s.dsq ∧ t.rdc = s.rdc) ∧
        (g.phase = .inPass → s.ixm.latched = true ∨ t.ixm.latched = false →
          ∃ w, w.ixm = t.ixm ∧ PassCounted (exec (.indexQualified n) s) g s w))

/-- The window expiries, once fallen: STARTUP to IDLE with a violation counted and no latch; CLOSED to OPEN with nothing
else changed; OPEN to RESYNC with a violation counted and perhaps the latch, a pass in flight counted unless the expiry
latched UNSTABLE and a wait for the mark going on; RESYNC to IDLE with the count kept, the latch clear and
SPINDLE_STOPPED queued. The sequencer and the port follow a spindle that has stopped. With no expiry pending, not fallen,
or in another window, an expiry has no effect (R6 to R12, R23, R29, R30; the last is log entry 2, a fetch cut short
between two attempts log entry 12). -/
def Obligations.WindowExpiriesMoveWindow : Prop :=
  (∀ (s : State) (e : Expiry), s.ixm.expiry = some e → e.FallenAt s.clock.rotationTimer →
      (s.ixm.window = .startup →
        ∃ t, exec .startupWindowExpiry s = .next t ∧ ChangesOnly (.ixm :: driveBlocks) s t ∧ FollowsStopped s t ∧
          t.ixm = { s.ixm with
            window := .idle, reference := none, expiry := none, latched := false
            violations := min 7 (s.ixm.violations + 1) }) ∧
      (s.ixm.window = .closed →
        ∃ t, exec .closedWindowExpiry s = .next t ∧ ChangesOnly [.ixm] s t ∧
          ∀ r, s.ixm.reference = some r → t.ixm = { s.ixm with
            window := .opened, expiry := some ⟨r, s.ixm.rot.pNom + s.ixm.rot.pNom * s.ixm.rot.tol / 1000⟩ }) ∧
      (s.ixm.window = .opened →
        ∃ t, exec .openWindowExpiry s = .next t ∧ ChangesOnly (.ixm :: driveBlocks) s t ∧
          t.ixm = { s.ixm with
            window := .resync
            expiry := some ⟨s.clock.rotationTimer, (s.ixm.rot.startup + 1) * s.ixm.rot.pNom⟩
            violations := min 7 (s.ixm.violations + 1)
            latched := s.ixm.latched || decide (s.ixm.rot.limit ≤ min 7 (s.ixm.violations + 1)) } ∧
          ∀ g, s.dsq.state = .reading → s.dsq.grant = some g → s.ixm.latched = true ∨ t.ixm.latched = false →
            (g.phase = .approach → t.dsq = s.dsq ∧ t.rdc = s.rdc) ∧
            (g.phase = .inPass → ∃ w, w.ixm = t.ixm ∧ PassCounted (exec .openWindowExpiry s) g s w)) ∧
      (s.ixm.window = .resync →
        ∃ t, exec .resyncLimitExpiry s = .next t ∧ ChangesOnly (.ixm :: driveBlocks) s t ∧ FollowsStopped s t ∧
          FirstQueued .spindleStopped none s.ixm.violations s t ∧
          t.ixm = { s.ixm with window := .idle, reference := none, expiry := none, latched := false })) ∧
  ∀ s : State,
    (¬ Fallen .startupWindowExpiry s → exec .startupWindowExpiry s = .next s) ∧
    (¬ Fallen .closedWindowExpiry s → exec .closedWindowExpiry s = .next s) ∧
    (¬ Fallen .openWindowExpiry s → exec .openWindowExpiry s = .next s) ∧
    (¬ Fallen .resyncLimitExpiry s → exec .resyncLimitExpiry s = .next s)

/-- Every bad event, an early index, a late expiry or the startup window's, reaches the peak with its count. One that
leaves the monitor in CLOSED or RESYNC with the count at V or above latches UNSTABLE, queues SPINDLE_UNSTABLE with the
count and latches a free snapshot, the granted job's track and step in it; READING then ends, its pass aborted, and every
other state of the sequencer stands. The startup window's does not latch. A good event that brings the count to 0 clears
the latch and queues SPINDLE_RUNNING with detail 0 (R6, R10, R11, R16, R24, R32, R201, R202). That the snapshot is taken
before the sequencer acts is log entry 27; when a pulse qualifies is log entry 6; and that a fetch waiting for the mark
of a retry, its earlier pass begun, is cut short and not released is log entry 12. -/
def Obligations.UnstableLatchesAndClears : Prop :=
  (∀ (s t : State) (c : Instr) (count : Nat), exec c s = .next t → count = min 7 (s.ixm.violations + 1) →
    (s.ixm.window = .closed ∧ (∃ n, c = .indexQualified n ∧ Qualifies n s) ∨
      s.ixm.window = .opened ∧ c = .openWindowExpiry ∧ Fallen c s) →
    t.rct.peakViolations = max s.rct.peakViolations count ∧
    (s.ixm.latched = false → s.ixm.rot.limit ≤ count →
      spindleOf t.ixm = .unstable ∧ FirstQueued .spindleUnstable none count s t ∧
      (s.evq.snapshot = none → ∃ x, t.evq.snapshot = some x ∧ x.cause = .unstable ∧ x.seqNo = s.evq.counter ∧
        x.uptime = s.clock.uptime ∧ x.dsqState = s.dsq.state ∧ x.position = s.dsq.position ∧
        (∀ g, s.dsq.grant = some g → g.kind = .jobPass → x.job = some (g.track, g.step)) ∧
        (∀ g, s.dsq.grant = some g → g.kind ≠ .jobPass → x.job = none) ∧ (s.dsq.grant = none → x.job = none) ∧
        x.average = s.ixm.average ∧ x.violations = count ∧ x.faults = s.dsq.faults ∧
        x.lastDeviation = s.rdc.lastDeviation) ∧
      (s.dsq.state ≠ .reading → t.dsq = s.dsq ∧ t.rdc = s.rdc) ∧
      (s.dsq.state = .reading → t.dsq.state = .idle ∧ t.dsq.position = s.dsq.position ∧
        ∀ g, s.dsq.grant = some g → g.phase ≠ .voting → GrantAbandoned g s t))) ∧
  (∀ s t : State, exec .startupWindowExpiry s = .next t → Fallen .startupWindowExpiry s →
    t.rct.peakViolations = max s.rct.peakViolations (min 7 (s.ixm.violations + 1)) ∧ t.ixm.latched = false) ∧
  ∀ (s t : State) (n : Nat), exec (.indexQualified n) s = .next t → Qualifies n s → s.ixm.window = .opened →
    s.ixm.latched = true → s.ixm.violations ≤ 1 → spindleOf t.ixm = .running ∧ FirstQueued .spindleRunning none 0 s t

/-! ### The Drive Sequencer (R20 to R43) -/

/-- SEEK_COMPLETE of an abandoned operation, or in any state but SEEKING and RECALIBRATING, has no effect. At a seek's end
the position takes the cylinder sought. With a grant, head and offset are driven to it and the settle wait begins, a wait
of 0 ending at once in READING; under UNSTABLE the grant ends without a pass, in IDLE; and without a grant the sequencer
is IDLE and the drive is granted afresh. At a recalibrate's end the position is 0/0 with offset 0. A grant with a retry
left, or begun without a position, is taken up from there by a seek, a settle wait, or READING; one whose retries are
exhausted has its pass counted; under UNSTABLE, at this end or at the fault, the grant ends without a pass; and without a
grant, or with one whose batch runs, the sequencer is IDLE (R22, R24, R25, R27, R28, R33, R34, R35, R71; the operand is
log entry 8, the wait of 0 log entry 19, a fetch cut short between two attempts log entry 12). -/
def Obligations.SeekCompleteGoesOn : Prop :=
  (∀ (s : State) (b : Bool), b = false ∨ (s.dsq.state ≠ .seeking ∧ s.dsq.state ≠ .recalibrating) →
    exec (.seekComplete b) s = .next s) ∧
  (∀ (s : State) (q p : Position) (c : Nat), s.dsq.state = .seeking → s.dsq.position = some q →
    s.dsq.seekTarget = some c → p = { q with cyl := c } →
    (∀ g, s.dsq.grant = some g → g.track.cyl = c → spindleOf s.ixm ≠ .unstable →
      ∃ t d, exec (.seekComplete true) s = .next t ∧ ChangesOnly [.dsq, .mcp] s t ∧
        d = { s.dsq with
          position := some ⟨c, g.track.head, g.offset⟩, lastPosition := some ⟨c, g.track.head, g.offset⟩
          seekTarget := none } ∧
        (1 ≤ s.dsq.set.settle →
          t.dsq = { d with state := .settling, expiry := some ⟨s.clock.uptime, s.dsq.set.settle⟩ }) ∧
        (s.dsq.set.settle = 0 → t.dsq = { d with state := .reading, expiry := none })) ∧
    (∀ g, s.dsq.grant = some g → g.phase = .approach → spindleOf s.ixm = .unstable →
      ∃ t, exec (.seekComplete true) s = .next t ∧ ChangesOnly driveBlocks s t ∧ GrantAbandoned g s t ∧
        t.dsq = { s.dsq with
          state := .idle, position := some p, lastPosition := some p, grant := none, seekTarget := none
          expiry := none }) ∧
    (s.dsq.grant = none →
      ∃ u, exec (.seekComplete true) s = .next (afterEvent u) ∧ ChangesOnly [.dsq] s u ∧
        u.dsq = { s.dsq with
          state := if spindleDown s.ixm then .offline else .idle
          position := some p, lastPosition := some p, seekTarget := none, expiry := none })) ∧
  ∀ (s x : State), s.dsq.state = .recalibrating →
    x = { s with dsq := { s.dsq with
      position := some ⟨0, 0, 0⟩, lastPosition := some ⟨0, 0, 0⟩, seekTarget := none, expiry := none } } →
    (∀ g, s.dsq.grant = some g → g.phase = .approach →
      (g.after = .retake → spindleOf s.ixm ≠ .unstable →
        ∃ t d, exec (.seekComplete true) s = .next t ∧ ChangesOnly [.dsq, .mcp] s t ∧
          d = { x.dsq with
            position := some ⟨0, g.track.head, g.offset⟩, lastPosition := some ⟨0, g.track.head, g.offset⟩ } ∧
          (g.track.cyl ≠ 0 → t.dsq = { x.dsq with
            state := .seeking, seekTarget := some g.track.cyl
            expiry := some ⟨s.clock.uptime, s.dsq.set.seekTimeout⟩ }) ∧
          (g.track.cyl = 0 → g.track.head ≠ 0 ∨ g.offset ≠ 0 → 1 ≤ s.dsq.set.settle →
            t.dsq = { d with state := .settling, expiry := some ⟨s.clock.uptime, s.dsq.set.settle⟩ }) ∧
          (g.track.cyl = 0 → (g.track.head = 0 ∧ g.offset = 0) ∨ s.dsq.set.settle = 0 →
            t.dsq = { d with state := .reading })) ∧
      (g.after = .counted → spindleDown s.ixm = false → ∃ w, PassCounted (exec (.seekComplete true) s) g x w) ∧
      (g.after = .finish ∨ (g.after = .retake ∧ spindleOf s.ixm = .unstable) →
        ∃ u, exec (.seekComplete true) s = .next (afterEvent u) ∧ ChangesOnly driveBlocks s u ∧ GrantAbandoned g s u ∧
          u.dsq = { x.dsq with state := if spindleDown s.ixm then .offline else .idle, grant := none })) ∧
    (s.dsq.grant = none ∨ (∃ g, s.dsq.grant = some g ∧ g.phase = .voting) →
      ∃ u, exec (.seekComplete true) s = .next (afterEvent u) ∧ ChangesOnly [.dsq] s u ∧
        u.dsq = { x.dsq with state := if spindleDown s.ixm then .offline else .idle })

/-- A seek fault below the fence limit: F rises by 1, the quiet period begins afresh, the pass and any copy under
assembly end, and the drive recalibrates with its position unknown; the grant keeps its retry for the recalibrate's end
while retries are left and the spindle is RUNNING, and is treated as counted there once they are exhausted, whatever the
spindle state (R24, R34, R35, R52; an exhausted grant under UNSTABLE is log entry 13, retries above a lowered Q log entry
47). -/
def Obligations.SeekFaultRecalibrates : Prop :=
  ∀ (s : State) (c : Instr), SeekFaultBy c s → s.dsq.faults + 1 < s.dsq.set.fenceLimit → spindleDown s.ixm = false →
    ∃ t, exec c s = .next t ∧ ChangesOnly [.dsq, .rdc, .mcp] s t ∧
      t.dsq = { s.dsq with
        state := .recalibrating, position := none, grant := t.dsq.grant, seekTarget := none, faults := s.dsq.faults + 1
        expiry := some ⟨s.clock.uptime, 10 * s.dsq.set.seekTimeout⟩
        quiet := some ⟨s.clock.uptime, 1000 * s.dsq.set.quietPeriod⟩ } ∧
      t.rdc = { s.rdc with pass := none, assembly := none } ∧ (s.dsq.grant = none → t.dsq.grant = none) ∧
      ∀ g, s.dsq.grant = some g → g.phase ≠ .voting → ∃ g', t.dsq.grant = some g' ∧ g'.phase = .approach ∧
        g'.kind = g.kind ∧ g'.track = g.track ∧ g'.openSet = g.openSet ∧
        (g.retries < s.dsq.set.retries → spindleOf s.ixm = .running → g'.after = .retake ∧ g'.retries = g.retries + 1) ∧
        (s.dsq.set.retries ≤ g.retries → g'.after = .counted ∧ g'.retries = g.retries)

/-- The causes of a fence: a seek fault that brings F to the fence limit, the recalibrate timeout, the drive fault line,
contention. Each, with no fence recorded, records its cause, withdraws the drive with its position unknown, ends a grant
unless its batch is running, takes the port to NOT_READY, offers DRIVE_FENCED last, and latches a free snapshot with the
state at the cause's arrival, the granted job's track and step in it, and the position last known: the position as it
stood, or, where it was unknown already, as it was last established (R20, R22, R35, R37, R38, R146, R201, R202; the last
is log entry 44, the order of the event log entry 28, the operands log entry 9). -/
def Obligations.FenceCausesRaiseTheFence : Prop :=
  ∀ (s : State) (c : Instr) (cause : FenceCause), s.dsq.fence = none →
    (SeekFaultBy c s ∧ s.dsq.set.fenceLimit ≤ s.dsq.faults + 1 ∧ cause = .seek ∨
      (c = .recalibrateTimeoutExpiry ∧ Fallen c s ∧ cause = .recal) ∨
      (c = .driveFaultAsserted true ∧ s.dsq.state ≠ .detached ∧ cause = .driveFault) ∨
      (∃ h, c = .contentionSeen h ∧ ContentionOn { s with pins := { s.pins with selectHeld := h } } ∧
        cause = .contention)) →
    ∃ t, exec c s = .next t ∧ ChangesOnly (.pins :: driveBlocks) s t ∧ t.dsq.state = .fenced ∧
      t.dsq.fence = some cause ∧ t.dsq.position = none ∧ t.dsq.expiry = none ∧ t.dsq.seekTarget = none ∧
      t.dsq.faults = (if cause = .seek then s.dsq.faults + 1 else s.dsq.faults) ∧
      (∀ g, s.dsq.grant = some g → t.dsq.grant = if g.phase = .voting then some g else none) ∧
      (s.mcp.state ≠ .detached → t.mcp.state = .notReady) ∧
      LastOffered .driveFenced none (causeByte cause) t ∧
      (s.evq.snapshot = none → ∃ x, t.evq.snapshot = some x ∧ x.cause = .fence cause ∧ x.seqNo + 1 = t.evq.counter ∧
        x.uptime = s.clock.uptime ∧ x.dsqState = s.dsq.state ∧ (∀ q, s.dsq.position = some q → x.position = some q) ∧
        (s.dsq.position = none → x.position = s.dsq.lastPosition) ∧
        (∀ g, s.dsq.grant = some g → g.kind = .jobPass → x.job = some (g.track, g.step)) ∧
        (∀ g, s.dsq.grant = some g → g.kind ≠ .jobPass → x.job = none) ∧ (s.dsq.grant = none → x.job = none) ∧
        x.average = s.ixm.average ∧ x.violations = s.ixm.violations ∧ x.faults = t.dsq.faults ∧
        x.lastDeviation = s.rdc.lastDeviation)

/-- The drive cable and the drive's waits. Unit select is driven active but in FENCED, where every output is inactive, and
in DETACHED, where every output is released; head select and the offset lines are held at the real position; the cylinder
is presented for a seek, restore driven for a recalibrate alone, at head 0 and offset 0; and write gate is active never.
A fault line that goes inactive, or that is asserted in DETACHED, and a select line on which no contention is seen, only
take their level; and in FENCED with a fence recorded no further cause is recorded. The settle wait ends in READING; under
UNSTABLE its grant ends without a pass, in IDLE, and without a grant the sequencer is IDLE and the drive is granted
afresh. A rest ends in a recalibrate, or in OFFLINE while the spindle is STOPPED or STARTING; and the quiet expiry returns
F to 0. Not fallen, or in another state, these ends have no effect, which is log entry 2 (R20, R21, R24, R27, R28, R33,
R34, R36, R37, R41; the operands are log entry 9, that restore is held for the whole of a recalibrate log entry 48, a
fetch cut short between two attempts log entry 12). -/
def Obligations.DriveLinesAndWaitsEnd : Prop :=
  (∀ d : Dsq, (driveOutputs d).writeGate ≠ .active ∧
    (d.state = .fenced → driveOutputs d = ⟨.inactive, .inactive, .inactive, .inactive, .inactive⟩) ∧
    (d.state = .detached → driveOutputs d = ⟨.released, .released, .released, .released, .released⟩) ∧
    (d.state ≠ .fenced → d.state ≠ .detached → (driveOutputs d).unitSelect = .active ∧
      (driveOutputs d).restore = (if d.state = .recalibrating then .active else .inactive) ∧
      (∀ c, d.state = .seeking → d.seekTarget = some c → (driveOutputs d).cylinder = .driven c) ∧
      (d.state = .recalibrating → (driveOutputs d).headAndOffset = .driven (0, ⟨false, false, 0⟩)) ∧
      ∀ q, d.state ≠ .recalibrating → d.position = some q →
        (driveOutputs d).headAndOffset = .driven (q.head, ⟨decide (0 < q.offset), decide (q.offset < 0), q.offset.natAbs⟩))) ∧
  (∀ (s : State) (b : Bool), b = false ∨ s.dsq.state = .detached →
    ∃ t, exec (.driveFaultAsserted b) s = .next t ∧ ChangesOnly [.pins] s t ∧ t.pins = { s.pins with driveFault := b }) ∧
  (∀ (s : State) (h : Option Bool), ¬ ContentionOn { s with pins := { s.pins with selectHeld := h } } →
    ∃ t, exec (.contentionSeen h) s = .next t ∧ ChangesOnly [.pins] s t ∧ t.pins = { s.pins with selectHeld := h }) ∧
  (∀ (s : State) (c : Instr), s.dsq.state = .fenced → s.dsq.fence.isSome →
    c = .driveFaultAsserted true ∨ (∃ h, c = .contentionSeen h) → ∃ t, exec c s = .next t ∧ ChangesOnly [.pins, .mcp] s t) ∧
  (∀ (s : State) (e : Expiry), e.FallenAt s.clock.uptime →
    (∀ g, s.dsq.state = .settling → s.dsq.expiry = some e → s.dsq.grant = some g → spindleOf s.ixm ≠ .unstable →
      ∃ t, exec .settleWaitEnd s = .next t ∧ ChangesOnly [.dsq, .mcp] s t ∧
        t.dsq = { s.dsq with state := .reading, seekTarget := none, expiry := none }) ∧
    (∀ g, s.dsq.state = .settling → s.dsq.expiry = some e → s.dsq.grant = some g → g.phase = .approach →
      spindleOf s.ixm = .unstable →
      ∃ t, exec .settleWaitEnd s = .next t ∧ ChangesOnly driveBlocks s t ∧ GrantAbandoned g s t ∧
        t.dsq = { s.dsq with state := .idle, grant := none, seekTarget := none, expiry := none }) ∧
    (s.dsq.state = .settling → s.dsq.expiry = some e → s.dsq.grant = none →
      ∃ u, exec .settleWaitEnd s = .next (afterEvent u) ∧ ChangesOnly [.dsq] s u ∧
        u.dsq = { s.dsq with
          state := if spindleDown s.ixm then .offline else .idle, seekTarget := none, expiry := none }) ∧
    (s.dsq.state = .resting → s.dsq.expiry = some e →
      ∃ t, exec .restEnd s = .next t ∧ ChangesOnly [.dsq, .mcp] s t ∧ t.dsq.position = none ∧
        (spindleDown s.ixm = true → t.dsq.state = .offline ∧ t.dsq.expiry = none) ∧
        (spindleDown s.ixm = false → t.dsq.state = .recalibrating ∧
          t.dsq.expiry = some ⟨s.clock.uptime, 10 * s.dsq.set.seekTimeout⟩)) ∧
    (s.dsq.quiet = some e →
      ∃ t, exec .quietExpiry s = .next t ∧ ChangesOnly [.dsq] s t ∧ t.dsq = { s.dsq with faults := 0, quiet := none })) ∧
  ∀ (s : State) (c : Instr), c ∈ [.settleWaitEnd, .restEnd, .quietExpiry, .seekTimeoutExpiry, .recalibrateTimeoutExpiry] →
    ¬ Fallen c s → exec c s = .next s

/-- Arbitration (R25): nothing is granted while the sequencer is not IDLE, the spindle not RUNNING, or a batch runs.
Otherwise a holding port whose track has no frame is granted a demand fetch, every sector open as pass 1 of the plain
read, its frame claimed from a free slot, or from the least recently used frame of the first source of R124 that offers
one: its image is retired with IMAGE_DROPPED if export-pending, and the job of sources 4 and 5 ended with reason EVICTED
before. With no such need, the eligible job of the lowest order, the earliest in the queue, is granted a pass with its
step's settings, claiming a frame if it holds none; the prefetch comes before PREFETCH-origin jobs and after all others;
and with no candidate nothing changes (R25, R26, R95, R96, R103, R110, R114, R124, R125, R126). -/
def Obligations.ArbitrationTakesTheFirstCandidate : Prop :=
  (∀ s : State, s.dsq.state ≠ .idle ∨ spindleOf s.ixm ≠ .running ∨ s.vte.batch.isSome → arbitrate s = s) ∧
  ∀ s t : State, s.dsq.state = .idle → spindleOf s.ixm = .running → s.vte.batch = none → t = arbitrate s →
    (s.mcp.state = .seeking → frameOf s.mcp.track s = none →
      (s.tks.frames.length < 8 ∨ ∃ f k, f ∈ s.tks.frames ∧ OfferedBy s f k) →
      (∃ g ft, t.dsq.grant = some g ∧ g.kind = .demandFetch ∧ g.track = s.mcp.track ∧ g.offset = 0 ∧ g.shift = 0 ∧
        g.step = 0 ∧ g.openSet = List.range s.geom.sectors ∧ g.passNo = 1 ∧ g.phase = .approach ∧ g.retries = 0 ∧
        t.jbq.fetch = some ft ∧ ft.starved = false ∧ ∀ x ∈ ft.tallies, x.captured = 0 ∧ x.badHeaders = 0) ∧
      (s.tks.frames.length < 8 → ChangesOnly [.dsq, .jbq, .tks] s t ∧ t.jbq.jobs = s.jbq.jobs ∧
        t.tks = { s.tks with frames := s.tks.frames ++ [emptyFrame s s.mcp.track] }) ∧
      ∀ pre f post k, 8 ≤ s.tks.frames.length → s.tks.frames = pre ++ f :: post → OfferedBy s f k →
        (∀ x ∈ pre, ¬ OfferedBy s x k) → (∀ x ∈ s.tks.frames, ∀ i, i < k → ¬ OfferedBy s x i) →
        (∀ x ∈ pre ++ post, x.track ≠ f.track) →
        t.tks = { s.tks with frames := pre ++ post ++ [emptyFrame s s.mcp.track] } ∧
        (k ≤ 3 → t.jbq.jobs = s.jbq.jobs ∧ ImageRetired f s t) ∧
        ∀ j, 4 ≤ k → jobOf f.track s = some j → j.fill = false →
          t.jbq.jobs = s.jbq.jobs.filter (fun x => x.track != f.track) ∧
          ∃ w, w = endJob (.cause .evicted) false false j s ∧ ImageRetired f w t ∧ t.cps = w.cps) ∧
    (s.mcp.state ≠ .seeking ∨ (frameOf s.mcp.track s).isSome →
      (∀ pre j post, s.jbq.jobs = pre ++ j :: post → Eligible s j → (∀ x ∈ pre ++ post, x.track ≠ j.track) →
        (∀ x ∈ s.jbq.jobs, Eligible s x → jobOrder s j ≤ jobOrder s x) →
        (∀ x ∈ pre, Eligible s x → jobOrder s x ≠ jobOrder s j) → (jobOrder s j = 6 → ∀ tr, ¬ PrefetchFor s tr) →
        (∃ g, t.dsq.grant = some g ∧ g.kind = .jobPass ∧ g.track = j.track ∧ g.step = j.step ∧ g.openSet = j.openSet ∧
          g.passNo = min 65535 (j.counter + 1) ∧ g.fill = j.fill ∧ g.phase = .approach ∧ g.retries = 0 ∧
          (j.step = 0 → g.offset = 0 ∧ g.shift = 0) ∧
          ∀ r, 1 ≤ j.step → s.jbq.ladder[j.step - 1]? = some r → g.offset = r.offset ∧ g.shift = r.shift) ∧
        t.jbq = { s.jbq with jobs := pre ++ { j with state := .active, holdsFrame := true } :: post } ∧
        (j.holdsFrame = true → ChangesOnly [.dsq, .jbq] s t) ∧ (j.holdsFrame = false → SlotTaken j.track s t)) ∧
      (∀ tr, (∀ x ∈ s.jbq.jobs, Eligible s x → jobOrder s x = 6) → PrefetchFor s tr →
        (∃ g ft, t.dsq.grant = some g ∧ g.kind = .prefetch ∧ g.track = tr ∧ g.offset = 0 ∧ g.shift = 0 ∧ g.step = 0 ∧
          g.openSet = List.range s.geom.sectors ∧ g.passNo = 1 ∧ g.phase = .approach ∧ g.retries = 0 ∧
          t.jbq = { s.jbq with fetch := some ft } ∧ ft.starved = false ∧
          ∀ x ∈ ft.tallies, x.captured = 0 ∧ x.badHeaders = 0) ∧
        SlotTaken tr s t) ∧
      ((∀ x ∈ s.jbq.jobs, ¬ Eligible s x) → (∀ tr, ¬ PrefetchFor s tr) → t = s))

/-! ### The Read Channel and the Capture Store (R49 to R68) -/

/-- HEADER: each of the four words is read through the bit window, a cell reading 1 when a transition falls in its window,
the grid moved by the shift, and the transitions in the first and last eighths of the 64 windows are marginal. In a pass,
a check-good header of an open sector of the pass's track begins a copy with its arrival time, its deviation from
H0 + floor(s × A / S), and its marginal count; a check-bad one is counted for the sector whose expected time is nearest,
the lower of two equally near, if that sector is open. Outside a pass, and for a sector not open, nothing happens. A
header that begins no copy leaves the copy under assembly standing, which is log entry 36 beside R56 (R50, R51, R53, R54,
R55, R104; the operands, and that a transition reads 1, are log entry 7). A mark that ended before the opening mark is
not heard, and told by the sign of its distance from it, which is log entry 51. -/
def Obligations.HeadersBeginCopies : Prop :=
  (∀ (shift : Int) (cyl head sector check : List (Fin 128)) (outside : List Int) (h : HeaderRead) (flux : List Int),
    flux = headerFlux cyl head sector check outside → h = readHeader shift flux →
    (∀ x, x ∈ flux ↔ (∃ v ∈ cyl, x = (v.val : Int)) ∨ (∃ v ∈ head, x = 128 + (v.val : Int)) ∨
      (∃ v ∈ sector, x = 256 + (v.val : Int)) ∨ (∃ v ∈ check, x = 384 + (v.val : Int)) ∨ x ∈ outside) ∧
    (∀ (k b : Nat) (w : Word), [h.cylinder, h.head, h.sector, h.check][k]? = some w → b < 16 →
      (w.getMsbD b = true ↔ ∃ x ∈ flux, 8 * ((16 * k + b : Nat) : Int) ≤ x - shift ∧
        x - shift < 8 * ((16 * k + b : Nat) : Int) + 8)) ∧
    h.marginal = flux.countP fun x => decide (0 ≤ x - shift ∧ x - shift < 512 ∧
      ((x - shift) % 8 = 0 ∨ (x - shift) % 8 = 7))) ∧
  ∀ (s : State) (mark : Timer) (cyl head sector check : List (Fin 128)) (outside : List Int) (h : HeaderRead),
    h = readHeader s.rdc.shift (headerFlux cyl head sector check outside) →
    (s.rdc.pass = none → exec (.header mark cyl head sector check outside) s = .next s) ∧
    ∀ p arrival, s.rdc.pass = some p → arrival = (mark - p.reference).toNat →
      (2147483648 ≤ arrival → exec (.header mark cyl head sector check outside) s = .next s) ∧
      (arrival < 2147483648 → check16 [h.cylinder, h.head, h.sector] = h.check → h.cylinder.toNat = p.track.cyl → h.head.toNat = p.track.head →
        (h.sector.toNat < s.geom.sectors → h.sector.toNat ∈ p.openSet →
          ∃ t, exec (.header mark cyl head sector check outside) s = .next t ∧ ChangesOnly [.rdc] s t ∧
            t.rdc = { s.rdc with assembly := some ⟨h.sector.toNat, h.check, arrival,
              max (-32768) (min 32767
                ((arrival : Int) - (p.headerOffset + ((h.sector.toNat : Int) * p.average) / p.sectors))),
              min 255 h.marginal⟩ }) ∧
        (h.sector.toNat ∉ p.openSet → exec (.header mark cyl head sector check outside) s = .next s)) ∧
      (arrival < 2147483648 → check16 [h.cylinder, h.head, h.sector] ≠ h.check → ∀ k, k < p.sectors →
        (∀ x, x < p.sectors → timeDistance p arrival k ≤ timeDistance p arrival x) →
        (∀ x, x < k → timeDistance p arrival k < timeDistance p arrival x) →
        ∃ t, exec (.header mark cyl head sector check outside) s = .next t ∧ ChangesOnly [.jbq] s t ∧
          (k ∉ p.openSet → t = s) ∧
          (k ∈ p.openSet → ∀ g, s.dsq.grant = some g →
            (g.kind = .jobPass → t.jbq = { s.jbq with jobs := s.jbq.jobs.map fun j =>
              if j.track = p.track then { j with tallies := j.tallies.map fun x =>
                if x.sector = k then { x with badHeaders := min 255 (x.badHeaders + 1) } else x } else j }) ∧
            (g.kind ≠ .jobPass → ∀ ft, s.jbq.fetch = some ft → t.jbq = { s.jbq with fetch := some ⟨ft.tallies.map fun x =>
              if x.sector = k then { x with badHeaders := min 255 (x.badHeaders + 1) } else x, ft.starved⟩ })))

/-- COPY_SEAL: the 257 words are read through the bit window, and the transitions in the first and last eighths of the
4,112 windows are marginal (that a transition reads 1, and the operands, are log entry 7). A check-good copy in a pass:
its sector's record takes the data, GOOD in a fetch or a fill and RECOVERED otherwise with the frame export-pending; the
sector's copies are freed, it leaves the pass open set and a job's open set; a fetch counts one copy captured for it; and
an OPEN entry records RETRY_GOOD with the copies held, the step and the pass, clears its exported flag and takes the step
as its success step (R54, R57, R58, R65, R96, R117, R127, R137). -/
def Obligations.GoodCopyResolvesItsSector : Prop :=
  (∀ (shift : Int) (data : List (Fin 32768)) (check : List (Fin 128)) (outside : List Int) (flux : List Int)
    (w : SectorWords), flux = dataFlux data check outside → w = readData shift flux →
    (∀ x, x ∈ flux ↔ (∃ v ∈ data, x = (v.val : Int)) ∨ (∃ v ∈ check, x = 32768 + (v.val : Int)) ∨ x ∈ outside) ∧
    (∀ k b, k < 257 → b < 16 →
      ((if k < 256 then w.data.val.getD k 0 else w.check).getMsbD b = true ↔
        ∃ x ∈ flux, 8 * ((16 * k + b : Nat) : Int) ≤ x - shift ∧ x - shift < 8 * ((16 * k + b : Nat) : Int) + 8)) ∧
    dataMarginals shift flux = flux.countP fun x => decide (0 ≤ x - shift ∧ x - shift < 32896 ∧
      ((x - shift) % 8 = 0 ∨ (x - shift) % 8 = 7))) ∧
  ∀ (s : State) (data : List (Fin 32768)) (check : List (Fin 128)) (outside : List Int) (w : SectorWords)
    (p : PassContext) (a : Assembly) (g : Grant),
    w = readData s.rdc.shift (dataFlux data check outside) →
    s.rdc.pass = some p → s.rdc.assembly = some a → s.dsq.grant = some g → check16 w.data.val = w.check →
    ∃ t, exec (.copySeal data check outside) s = .next t ∧
      ChangesOnly [.dsq, .rdc, .cps, .jbq, .tks, .rct, .mcp] s t ∧
      t.rdc.assembly = none ∧ t.rdc.lastDeviation = a.deviation ∧ copiesOf ⟨p.track, a.sector⟩ t.cps = [] ∧
      (∀ x, x ≠ ⟨p.track, a.sector⟩ → copiesOf x t.cps = copiesOf x s.cps) ∧
      (∃ q, t.rdc.pass = some q ∧ a.sector ∉ q.openSet ∧ ∀ i ∈ p.openSet, i ≠ a.sector → i ∈ q.openSet) ∧
      (∀ f r, frameOf p.track s = some f → f.sectors[a.sector]? = some r → r.unresolved = true →
        ∃ f', frameOf p.track t = some f' ∧
          (g.kind ≠ .jobPass ∨ g.fill = true → f'.sectors = f.sectors.set a.sector (.good w) ∧
            f'.exportPending = f.exportPending) ∧
          (g.kind = .jobPass → g.fill = false → f'.sectors = f.sectors.set a.sector (.recovered w) ∧
            f'.exportPending = true)) ∧
      (g.kind = .jobPass → t.jbq = { s.jbq with jobs := t.jbq.jobs } ∧ ∀ j, jobOf p.track s = some j →
        ∃ j', jobOf p.track t = some j' ∧ j'.openSet = j.openSet.filter fun i => i != a.sector) ∧
      (g.kind ≠ .jobPass → ∀ ft, s.jbq.fetch = some ft → t.jbq = { s.jbq with fetch := some ⟨ft.tallies.map fun x =>
        if x.sector = a.sector then { x with captured := min 255 (x.captured + 1) } else x, ft.starved⟩ }) ∧
      (g.kind = .jobPass → g.fill = false → ∀ e, entryOf p.track s = some e → e.state = .opened →
        ∃ e', entryOf p.track t = some e' ∧ e'.state = .opened ∧ e'.exported = false ∧ e'.successStep = some p.step ∧
          e'.outcomes = e.outcomes.map fun o => if o.sector = a.sector then
            ⟨a.sector, .retryGood (copiesOf ⟨p.track, a.sector⟩ s.cps).length p.step p.passNo⟩ else o) ∧
      (g.kind ≠ .jobPass ∨ g.fill = true → t.rct = s.rct)

/-- COPY_SEAL of a check-bad copy in a pass: below the copy limit it joins the end of its sector's list if a slot is
free, and otherwise marks the job and its OPEN entry, or the fetch, starved; at the limit it takes the place of the
lightest copy held, the earliest of equals, only if strictly heavier. Its weight is 1 when slipped and else
8 − min(7, floor(m/4)). One copy captured is counted for its sector, in the job's tallies or the fetch's, and a copy that
enters a slot brings the size of its deviation to the peak. The record takes it as its best copy if EMPTY, or if the copy
is heavier than the best held (R54, R57, R58, R62, R63, R64, R68, R96, R104, R116, R137, R141; its words and marginal
count are read as log entry 7 says). -/
def Obligations.BadCopyIsPlaced : Prop :=
  ∀ (s : State) (data : List (Fin 32768)) (check : List (Fin 128)) (outside : List Int) (words : SectorWords) (m : Nat)
    (p : PassContext) (a : Assembly) (held : List SealedCopy) (w : Nat) (new : SealedCopy) (starves : Bool) (g : Grant),
    words = readData s.rdc.shift (dataFlux data check outside) →
    m = min 255 (a.marginal + dataMarginals s.rdc.shift (dataFlux data check outside)) →
    s.rdc.pass = some p → s.rdc.assembly = some a → s.dsq.grant = some g → check16 words.data.val ≠ words.check →
    held = copiesOf ⟨p.track, a.sector⟩ s.cps →
    w = (if p.slipLimit < a.deviation.natAbs then 1 else 8 - min 7 (m / 4)) →
    new = ⟨⟨p.track, a.sector⟩, p.passNo, p.step, words, m, a.deviation, w, false⟩ →
    starves = decide (held.length < s.vte.copyLimit ∧ 96 ≤ slotsInUse s.cps) →
    ∃ t, exec (.copySeal data check outside) s = .next t ∧ ChangesOnly [.rdc, .cps, .jbq, .tks, .rct, .mcp] s t ∧
      t.rdc = { s.rdc with assembly := none, lastDeviation := a.deviation } ∧
      (held.length < s.vte.copyLimit → slotsInUse s.cps < 96 →
        copiesOf ⟨p.track, a.sector⟩ t.cps = held ++ [new] ∧ isFresh ⟨p.track, a.sector⟩ t.cps = true ∧
        t.rct = { s.rct with peakDeviation := max s.rct.peakDeviation (min 65535 a.deviation.natAbs) }) ∧
      (starves = true → t.cps = s.cps ∧ t.rct.peakDeviation = s.rct.peakDeviation ∧
        (g.kind = .jobPass → ∀ e, entryOf p.track s = some e → e.state = .opened →
          entryOf p.track t = some { e with starved := true })) ∧
      (g.kind = .jobPass → t.jbq = { s.jbq with jobs := s.jbq.jobs.map fun j =>
        if j.track = p.track then { j with
          starved := j.starved || starves
          tallies := j.tallies.map fun x =>
            if x.sector = a.sector then { x with captured := min 255 (x.captured + 1) } else x } else j }) ∧
      (g.kind ≠ .jobPass → ∀ ft, s.jbq.fetch = some ft → t.jbq = { s.jbq with fetch := some ⟨ft.tallies.map fun x =>
        if x.sector = a.sector then { x with captured := min 255 (x.captured + 1) } else x, ft.starved || starves⟩ }) ∧
      (∀ pre x post, s.vte.copyLimit ≤ held.length → held = pre ++ x :: post → (∀ y ∈ pre, x.weight < y.weight) →
        (∀ y ∈ post, x.weight ≤ y.weight) →
        (x.weight < w → copiesOf ⟨p.track, a.sector⟩ t.cps = pre ++ post ++ [new] ∧
          isFresh ⟨p.track, a.sector⟩ t.cps = true ∧
          t.rct = { s.rct with peakDeviation := max s.rct.peakDeviation (min 65535 a.deviation.natAbs) } ∧
          ((s.cps.lists.map CopyList.addr).Nodup → slotsInUse t.cps = slotsInUse s.cps)) ∧
        (w ≤ x.weight → t.cps = s.cps ∧ t.rct = s.rct)) ∧
      ∀ f r, frameOf p.track s = some f → f.sectors[a.sector]? = some r →
        ∃ f', frameOf p.track t = some f' ∧ f'.exportPending = f.exportPending ∧
          f'.sectors = f.sectors.set a.sector (match r with
            | .empty => .opened words w
            | .opened best k => if k < w then .opened words w else .opened best k
            | r => r)

/-! ### The vote (R71 to R80) -/

/-- The weighted bit vote: at each of the 4,112 positions the voted bit is the bit whose copies weigh more, and the tie
copy's bit at a tie; the sector margin is the least bit margin, at most the whole weight and so at most 40 with five copies of
weight 8, 0 when a tie is anywhere, and at least 2 below the whole weight where both bits have weight; and copies that agree in every word
vote those words, with the whole weight as the margin (R74, R75, R76). -/
def Obligations.VoteFollowsTheWeights : Prop :=
  (∀ (cs : List SealedCopy) (i b : Nat), i < 257 → b < 16 →
    let ones := ((cs.filter fun c => (mediaWord c i).getMsbD b).map SealedCopy.weight).sum
    let zeros := ((cs.filter fun c => !(mediaWord c i).getMsbD b).map SealedCopy.weight).sum
    let voted := (if i < 256 then (votedWords cs).data.val.getD i 0 else (votedWords cs).check).getMsbD b
    (zeros < ones → voted = true) ∧ (ones < zeros → voted = false) ∧
      (∀ pre c post, ones = zeros → cs = pre ++ c :: post → (∀ x ∈ pre, x.weight < c.weight) →
        (∀ x ∈ post, x.weight ≤ c.weight) → voted = (mediaWord c i).getMsbD b) ∧
      sectorMargin cs ≤ max ones zeros - min ones zeros ∧ ones + zeros = totalWeight cs ∧
      sectorMargin cs ≤ totalWeight cs ∧ (ones = zeros → sectorMargin cs = 0) ∧
      (1 ≤ ones → 1 ≤ zeros → sectorMargin cs + 2 ≤ totalWeight cs)) ∧
  (∀ cs : List SealedCopy, ∃ i b, i < 257 ∧ b < 16 ∧ sectorMargin cs = bitMargin (votesAt cs i b)) ∧
  (∀ cs : List SealedCopy, cs.length ≤ 5 → (∀ c ∈ cs, c.weight ≤ 8) → sectorMargin cs ≤ 40) ∧
  ∀ (cs : List SealedCopy) (w : SectorWords), (∀ c ∈ cs, c.words = w) → 0 < totalWeight cs →
    votedWords cs = w ∧ sectorMargin cs = totalWeight cs

/-- A vote's outcome is FAILED_CHECK when the voted check word is not the check over the voted data, else WEAK below the
minimum margin recorded, else VOTED. BATCH_COMPLETION: the batch and the grant end, the sequencer leaving VOTING for
IDLE, or for OFFLINE while the spindle is STOPPED or STARTING. Each VOTED member is RECOVERED in its frame with the voted
words, the frame export-pending and its copies freed; it leaves the open set; and its entry, if OPEN, records VOTED with
the copies counted, the margin, the step and the pass, takes the step as its success step, and is no longer exported.
Each other member keeps its record unless the job ends, stays open while the job stands, with its last vote outcome, and
loses its fresh mark. Arbitration follows. With no batch it has no effect (R23, R25, R31, R65, R77, R78, R79, R80, R118,
R137; the last is log entry 2). -/
def Obligations.BatchCompletionDelivers : Prop :=
  (∀ (least : Nat) (cs : List SealedCopy) (w : SectorWords), w = votedWords cs →
    (check16 w.data.val ≠ w.check → voteOutcome least cs = .failedCheck) ∧
    (check16 w.data.val = w.check → sectorMargin cs < least → voteOutcome least cs = .weak) ∧
    (check16 w.data.val = w.check → least ≤ sectorMargin cs → voteOutcome least cs = .voted w (sectorMargin cs))) ∧
  ∀ s : State, (s.vte.batch = none → exec .batchCompletion s = .next s) ∧
    ∀ b, s.vte.batch = some b →
      ∃ u, exec .batchCompletion s = .next (afterEvent u) ∧ ChangesOnly [.dsq, .cps, .vte, .jbq, .tks, .rct, .evq] s u ∧
        u.vte = { s.vte with batch := none } ∧ u.dsq.grant = none ∧
        u.dsq.state = (if s.dsq.state = .voting then if spindleDown s.ixm then .offline else .idle else s.dsq.state) ∧
        ∀ (m : Member), (b.members.map Member.sector).Nodup → m ∈ b.members →
          (∀ w margin, voteOutcome b.minMargin m.copies = .voted w margin →
            (∀ f r, frameOf b.track s = some f → f.sectors[m.sector]? = some r → ∃ f', frameOf b.track u = some f' ∧
              f'.sectors[m.sector]? = some (.recovered w) ∧ f'.exportPending = true) ∧
            copiesOf ⟨b.track, m.sector⟩ u.cps = [] ∧ (∃ least, u.rct.peakMargin = some least ∧ least ≤ margin) ∧
            (∀ j, jobOf b.track u = some j → m.sector ∉ j.openSet) ∧
            ∀ e j, entryOf b.track s = some e → e.state = .opened → (∃ o ∈ e.outcomes, o.sector = m.sector) →
              jobOf b.track s = some j → j.fill = false → ∃ e', entryOf b.track u = some e' ∧ e'.seqNo = e.seqNo ∧
                ⟨m.sector, .voted m.copies.length margin b.step b.passNo⟩ ∈ e'.outcomes ∧
                e'.successStep = some b.step ∧ e'.exported = false) ∧
          ∀ v, (voteOutcome b.minMargin m.copies = .weak ∧ v = .weak ∨
              voteOutcome b.minMargin m.copies = .failedCheck ∧ v = .failedCheck) →
            isFresh ⟨b.track, m.sector⟩ u.cps = false ∧
            (∀ f r f', frameOf b.track s = some f → f.sectors[m.sector]? = some r → frameOf b.track u = some f' →
              f'.sectors[m.sector]? = some r ∨ f'.sectors[m.sector]? = some (failRecord r)) ∧
            ∀ j j', jobOf b.track s = some j → m.sector ∈ j.openSet → jobOf b.track u = some j' →
              m.sector ∈ j'.openSet ∧ ∀ x ∈ j'.tallies, x.sector = m.sector → x.lastVote = some v

/-! ### Jobs (R105 to R108) -/

/-- The advance of a job after a counted pass and its batch. With its open set empty the job ends RECOVERED; a fill that
ends so on a track without an entry queues JOB_CLEAN first. Otherwise a plain pass leads to the first step and clears fill
pending, and a step is repeated for its passes and then gives way to the next. The walk ends with the last pass of the
last step, at a step above the ladder, and where the first step lies above it: with cycles left the job cools at step 1,
or, with a cooldown of 0, is QUEUED again at once with its cycle incremented (log entry 19); with none left it ends
unresolved, as JobEndHandsOn states. COOLDOWN_EXPIRY queues a cooled job again with its cycle incremented, once its time
has fallen; before, outside COOLING and without a job it has no effect, which is log entry 2 (R91, R105, R106, R107; the
operand is log entry 29). -/
def Obligations.JobsWalkTheLadder : Prop :=
  (∀ (s : State) (j : Job), jobOf j.track s = some j → j.tallies = [] →
    jobOf j.track (advanceJob j.track s) = none ∧
    (j.fill = true → entryOf j.track s = none →
      advanceJob j.track s = endJob .walk false false j (offer .jobClean (some j.track) 0 s)) ∧
    (j.fill = false ∨ (entryOf j.track s).isSome → advanceJob j.track s = endJob .walk false false j s)) ∧
  (∀ (s : State) (j : Job), jobOf j.track s = some j → j.tallies ≠ [] →
    (j.step = 0 → j.first ≤ s.jbq.length → advanceJob j.track s =
      updJob j.track (fun _ => { j with state := .queued, fill := false, step := j.first, done := 0 }) s) ∧
    (∀ r, 1 ≤ j.step → j.step ≤ s.jbq.length → s.jbq.ladder[j.step - 1]? = some r →
      (j.done + 1 < r.passes → advanceJob j.track s =
        updJob j.track (fun _ => { j with state := .queued, done := j.done + 1 }) s) ∧
      (r.passes ≤ j.done + 1 → j.step < s.jbq.length → advanceJob j.track s =
        updJob j.track (fun _ => { j with state := .queued, step := j.step + 1, done := 0 }) s)) ∧
    ∀ j' : Job,
      (j.step = 0 ∧ s.jbq.length < j.first ∧ j' = { j with fill := false }) ∨
        (1 ≤ j.step ∧ s.jbq.length < j.step ∧ j' = j) ∨
        (1 ≤ j.step ∧ j.step = s.jbq.length ∧ j' = j ∧
          ∃ r, s.jbq.ladder[j.step - 1]? = some r ∧ r.passes ≤ j.done + 1) →
      (j.cycle < s.jbq.repeats → 1 ≤ s.jbq.cooldown → advanceJob j.track s = updJob j.track (fun _ => { j' with
        state := .cooling, step := 1, done := 0, cooldown := some ⟨s.clock.uptime, s.jbq.cooldown⟩ }) s) ∧
      (j.cycle < s.jbq.repeats → s.jbq.cooldown = 0 → advanceJob j.track s = updJob j.track (fun _ => { j' with
        state := .queued, step := 1, done := 0, cycle := j.cycle + 1, cooldown := none }) s) ∧
      (s.jbq.repeats ≤ j.cycle → jobOf j.track (advanceJob j.track s) = none ∧
        advanceJob j.track s = endJob .walk false false j' (updJob j.track (fun _ => j') s))) ∧
  (∀ (s : State) (c h : Nat), jobOf ⟨c, h⟩ s = none → exec (.cooldownExpiry c h) s = .next s) ∧
  ∀ (s : State) (c h : Nat) (j : Job) (e : Expiry), jobOf ⟨c, h⟩ s = some j → j.cooldown = some e →
    (j.state = .cooling → e.length ≤ (s.clock.uptime - e.start).toNat →
      ∃ u, exec (.cooldownExpiry c h) s = .next (arbitrate u) ∧ ChangesOnly [.jbq] s u ∧
        jobOf ⟨c, h⟩ u = some { j with state := .queued, cycle := j.cycle + 1, cooldown := none } ∧
        u.jbq.jobs.map Job.track = s.jbq.jobs.map Job.track) ∧
    (j.state ≠ .cooling ∨ (s.clock.uptime - e.start).toNat < e.length → exec (.cooldownExpiry c h) s = .next s)

/-- The ends of jobs, of fetches and of fills. A job that ends, by whatever cause, is handed on: the frame it owns has its
open sectors FAILED, or is released where its fill sealed nothing; the track's copies are freed, also those of a fetch in
flight where the job holds no frame; an OPEN entry closes with a reason for each sector still open and the copies it held,
RECOVERED with TRACK_RECOVERED, or PARTIAL with TRACK_PARTIAL; the peak of passes takes the counter; and the job leaves
the queue. A fetch's end with every sector GOOD frees its copies and makes no job; with sectors not GOOD it makes a job
and opens the entry; in a full queue it ends the latest PREFETCH-origin job that is not ACTIVE, CANCELLED and PARTIAL, to
make room, or else fails the sectors, records PARTIAL and offers QUEUE_FULL last; and it serves the fill of a job the
track has. A fill's end rebuilds the entry's list for the sectors left not GOOD, or, with none left, turns its PENDING
outcomes RETRY_GOOD with success step 0; an entry is created for a track without one; and the job advances. A new entry
joins the end with the next sequence, in a full table in the place of the first closed and exported one, and without one
TABLE_FULL is offered (R66, R96, R97, R98, R107 to R110, R133 to R136, R138; log entries: 14 the sectors open while a fill
is pending, and a removed job's entry PARTIAL even without a FAILED outcome, 15 the exported flag at a clean fill, 17 a frameless job's end during a fetch, 49 a PENDING outcome of a
sector not open). -/
def Obligations.JobEndHandsOn : Prop :=
  (∀ (s u : State) (j : Job) (k : JobEnd) (force quiet : Bool), u = endJob k force quiet j s →
    jobOf j.track s = some j →
    ChangesOnly [.cps, .jbq, .tks, .rct, .evq] s u ∧
    u.jbq = { s.jbq with jobs := s.jbq.jobs.filter fun x => x.track != j.track } ∧
    (∀ i, copiesOf ⟨j.track, i⟩ u.cps = []) ∧ (∀ a, a.track ≠ j.track → copiesOf a u.cps = copiesOf a s.cps) ∧
    u.rct.peakPasses = max s.rct.peakPasses j.counter ∧ (j.holdsFrame = false → u.tks = s.tks) ∧
    (∀ f, j.holdsFrame = true → frameOf j.track s = some f →
      (j.fill = true → f.allEmpty = true →
        u.tks = { s.tks with frames := s.tks.frames.filter fun x => x.track != j.track }) ∧
      (j.fill = false ∨ f.allEmpty = false → ∃ f', frameOf j.track u = some f' ∧ f'.exportPending = f.exportPending ∧
        ∀ i, f'.sectors[i]? = if i ∈ j.openSet then (f.sectors[i]?).map failRecord else f.sectors[i]?)) ∧
    ((∀ e, entryOf j.track s = some e → e.state ≠ .opened) → u.rct.entries = s.rct.entries ∧ u.evq = s.evq) ∧
    ∀ e, entryOf j.track s = some e → e.state = .opened → ∃ e' os, entryOf j.track u = some e' ∧
      e' = { e with state := e'.state, outcomes := os } ∧ e'.state ≠ .opened ∧
      List.Forall₂ (EndedOutcome k j s) e.outcomes os ∧
      (e'.state = .incomplete ↔ force = true ∨ ∃ o ∈ os, o.result.isFailed = true) ∧
      (quiet = true → u.evq = s.evq) ∧
      (quiet = false → e'.state = .recovered → u.evq = (offer .trackRecovered (some j.track) os.length s).evq) ∧
      (quiet = false → e'.state = .incomplete →
        u.evq = (offer .trackPartial (some j.track) (os.countP fun o => o.result.isFailed) s).evq)) ∧
  (∀ (s u : State) (tr : Track) (kind : GrantKind) (f : Frame) (open_ : List Nat) (ft : FetchTallies) (origin : Origin),
    u = endFetch kind tr s → kind = .demandFetch ∧ origin = .machine ∨ kind = .prefetch ∧ origin = .prefetch →
    frameOf tr s = some f → s.jbq.fetch = some ft →
    open_ = (List.range f.sectors.length).filter (fun i => (f.sectors[i]?).any fun r => !r.isGood) →
    u.jbq.fetch = none ∧
    (jobOf tr s = none → open_ = [] → ChangesOnly [.cps, .jbq] s u ∧ u.jbq = { s.jbq with fetch := none } ∧
      (∀ i, copiesOf ⟨tr, i⟩ u.cps = []) ∧ ∀ a, a.track ≠ tr → copiesOf a u.cps = copiesOf a s.cps) ∧
    (jobOf tr s = none → open_ ≠ [] → s.jbq.jobs.length < 16 →
      ChangesOnly [.jbq, .rct, .evq] s u ∧
      u.jbq = { s.jbq with
        fetch := none
        jobs := s.jbq.jobs ++ [⟨tr, origin, .queued, true,
          open_.map fun i => (ft.tallies.find? fun y => y.sector == i).getD ⟨i, 0, 0, none⟩,
          1, 1, false, 0, 0, 1, none, ft.starved⟩] } ∧
      (∀ e, entryOf tr s = some e → u.evq = s.evq ∧ entryOf tr u = some { e with
        state := .opened, origin := origin, runs := min 255 (e.runs + 1), passes := min 65535 (e.passes + 1)
        exported := false, starved := e.starved || ft.starved, outcomes := open_.map fun i => ⟨i, .pending⟩ }) ∧
      (entryOf tr s = none → ∃ x, x = createEntry tr origin .opened 1 ft.starved (open_.map fun i => ⟨i, .pending⟩) s ∧
        u.rct = x.rct ∧ u.evq = x.evq)) ∧
    (∀ pre x post, jobOf tr s = none → open_ ≠ [] → s.jbq.jobs.length = 16 → s.jbq.jobs = pre ++ x :: post →
      x.origin = .prefetch → x.state ≠ .active → (∀ y ∈ post, ¬ (y.origin = .prefetch ∧ y.state ≠ .active)) →
      (∀ y ∈ pre ++ post, y.track ≠ x.track) →
      u = endFetch kind tr (endJob (.cause .cancelled) true false x s)) ∧
    (jobOf tr s = none → open_ ≠ [] → 16 ≤ s.jbq.jobs.length →
      (∀ y ∈ s.jbq.jobs, ¬ (y.origin = .prefetch ∧ y.state ≠ .active)) →
      ChangesOnly [.cps, .jbq, .tks, .rct, .evq] s u ∧ u.jbq = { s.jbq with fetch := none } ∧
      (∀ i, copiesOf ⟨tr, i⟩ u.cps = []) ∧
      (∃ f', frameOf tr u = some f' ∧ f'.exportPending = f.exportPending ∧
        ∀ i, f'.sectors[i]? = if i ∈ open_ then (f.sectors[i]?).map failRecord else f.sectors[i]?) ∧
      LastOffered .queueFull (some tr) open_.length u ∧
      ∀ os, os = open_.map (fun i => (⟨i, .failed (copiesOf ⟨tr, i⟩ s.cps).length .queueFull⟩ : OutcomeRec)) →
        (∀ e, entryOf tr s = some e → u.evq = (offer .queueFull (some tr) open_.length s).evq ∧
          entryOf tr u = some { e with
            state := .incomplete, origin := origin, runs := min 255 (e.runs + 1), passes := min 65535 (e.passes + 1)
            exported := false, starved := e.starved || ft.starved, outcomes := os }) ∧
        (entryOf tr s = none → ∃ x, x = createEntry tr origin .incomplete 1 ft.starved os s ∧
          u.rct = x.rct ∧ u.evq = (offer .queueFull (some tr) open_.length x).evq)) ∧
    ∀ j, jobOf tr s = some j → ∃ w, ChangesOnly [.jbq, .rct] s w ∧
      u = { finishJobPass tr w with jbq := { (finishJobPass tr w).jbq with fetch := none } } ∧
      w.jbq = { s.jbq with jobs := s.jbq.jobs.map fun x => if x.track = tr then { x with
        origin := if 6 ≤ stationFramesHeld s then origin else x.origin, holdsFrame := true, counter := 1
        tallies := open_.map fun i => (ft.tallies.find? fun y => y.sector == i).getD ⟨i, 0, 0, none⟩
        starved := x.starved || ft.starved } else x } ∧
      w.rct = { s.rct with entries := s.rct.entries.map fun e => if e.track = tr ∧ e.state = .opened then { e with
        origin := if 6 ≤ stationFramesHeld s then origin else e.origin, passes := min 65535 (e.passes + 1)
        starved := e.starved || ft.starved } else e }) ∧
  (∀ (s u : State) (tr : Track) (j : Job), u = finishJobPass tr s → jobOf tr s = some j →
    (j.fill = false → u = advanceJob tr s) ∧
    (j.fill = true → ∃ w, u = advanceJob tr w ∧ ChangesOnly [.rct, .evq] s w ∧
      (∀ e, entryOf tr s = some e → w.evq = s.evq ∧
        w.rct = { s.rct with entries := s.rct.entries.map fun e => if e.track = tr then
          if j.tallies = [] then { e with
            outcomes := e.outcomes.map fun o => if o.result = .pending then ⟨o.sector, .retryGood 0 0 1⟩ else o
            successStep := some 0
            exported := e.exported && e.outcomes.all fun o => o.result != .pending }
          else { e with outcomes := j.openSet.map fun i => ⟨i, .pending⟩ }
          else e }) ∧
      (entryOf tr s = none →
        (j.tallies = [] → w = s) ∧
        (j.tallies ≠ [] →
          w = createEntry tr j.origin .opened 1 j.starved (j.openSet.map fun i => ⟨i, .pending⟩) s)))) ∧
  ∀ (s u : State) (tr : Track) (origin : Origin) (st : EntryState) (n : Nat) (starved : Bool) (os : List OutcomeRec),
    u = createEntry tr origin st n starved os s →
    (s.rct.nextSequence ≤ 4294967295 → s.rct.entries.length < 512 → u.evq = s.evq ∧
      u.rct = { s.rct with
        entries := s.rct.entries ++ [newEntry s tr origin st n starved os], nextSequence := s.rct.nextSequence + 1 }) ∧
    (∀ pre x post, s.rct.nextSequence ≤ 4294967295 → 512 ≤ s.rct.entries.length → s.rct.entries = pre ++ x :: post →
      x.exported = true → x.state ≠ .opened → (∀ y ∈ pre, ¬ (y.exported = true ∧ y.state ≠ .opened)) → u.evq = s.evq ∧
      u.rct = { s.rct with
        entries := pre ++ post ++ [newEntry s tr origin st n starved os], nextSequence := s.rct.nextSequence + 1 }) ∧
    (4294967295 < s.rct.nextSequence ∨
        512 ≤ s.rct.entries.length ∧ (∀ y ∈ s.rct.entries, ¬ (y.exported = true ∧ y.state ≠ .opened)) →
      u = offer .tableFull (some tr) os.length s)

/-! ### The Machine Port and the Write Overlay (R145 to R163) -/

/-- The machine's motions, taken while selected in READY and SEEKING, and for RECALIBRATE in SEEK_ERROR: the current
track moves and a hold begins on it, which ends at once if its frame is fully resolved; a track outside the geometry is
READY; and a SEEK of C or above keeps the track and enters SEEK_ERROR. Not selected, or in another state, they are
ignored (R145, R149, R152, R153, R156, R157, R158). -/
def Obligations.MotionsBeginHolds : Prop :=
  ∀ (s : State),
    (s.pins.unitSelect = false ∨ (s.mcp.state ≠ .ready ∧ s.mcp.state ≠ .seeking) →
      (∀ c, exec (.seek c) s = .next s) ∧ (∀ h, exec (.head h) s = .next s) ∧
      (s.pins.unitSelect = false ∨ s.mcp.state ≠ .seekError → exec .recalibrate s = .next s)) ∧
    (s.pins.unitSelect = true → s.mcp.state = .ready ∨ s.mcp.state = .seeking →
      (∀ c, s.geom.cylinders ≤ c.toNat → ∃ t, exec (.seek c) s = .next t ∧ ChangesOnly [.mcp] s t ∧
        t.mcp = { s.mcp with state := .seekError, hold := none, activity := .none }) ∧
      (∀ c, c.toNat < s.geom.cylinders → ∃ u, exec (.seek c) s = .next (arbitrate u) ∧
        HoldOn ⟨c.toNat, s.mcp.track.head⟩ s u) ∧
      (∀ h, h.toNat = s.mcp.track.head → exec (.head h) s = .next s) ∧
      (∀ h, h.toNat ≠ s.mcp.track.head → ∃ u, exec (.head h) s = .next (arbitrate u) ∧ ChangesOnly [.mcp] s u ∧
        u.mcp.track = ⟨s.mcp.track.cyl, h.toNat⟩ ∧
        (s.geom.heads ≤ h.toNat ∨ (∃ f, frameOf ⟨s.mcp.track.cyl, h.toNat⟩ s = some f ∧ f.fullyResolved = true) →
          u.mcp.state = .ready) ∧
        (s.mcp.track.cyl < s.geom.cylinders → h.toNat < s.geom.heads →
          (∀ f, frameOf ⟨s.mcp.track.cyl, h.toNat⟩ s = some f → f.fullyResolved = false) →
          u.mcp.state = .seeking ∧
            u.mcp.hold = if s.mcp.state = .ready then some ⟨s.clock.uptime, s.mcp.holdLimit⟩ else s.mcp.hold))) ∧
    (s.pins.unitSelect = true → s.mcp.state = .ready ∨ s.mcp.state = .seeking ∨ s.mcp.state = .seekError →
      ∃ u, exec .recalibrate s = .next (arbitrate u) ∧ HoldOn ⟨0, s.mcp.track.head⟩ s u)

/-- READY again: HOLD_EXPIRY ends a hold whose time has fallen, and arbitration follows; before its time, and outside
SEEKING, it has no effect, which is log entry 2. FAULT_CLEAR ends FAULT with the track unchanged and no hold, and has no
effect in any other state or while not selected; UNIT_SELECT sets its line, and going inactive cuts off a READ or WRITE
under way, which is log entry 11 (R145, R154, R162). -/
def Obligations.HoldsAndFaultsEnd : Prop :=
  (∀ (s : State) (e : Expiry), s.mcp.state = .seeking → s.mcp.hold = some e →
    (e.length ≤ (s.clock.uptime - e.start).toNat →
      ∃ u, exec .holdExpiry s = .next (arbitrate u) ∧ ChangesOnly [.mcp] s u ∧
        u.mcp = { s.mcp with state := .ready, hold := none }) ∧
    ((s.clock.uptime - e.start).toNat < e.length → exec .holdExpiry s = .next s)) ∧
  (∀ s : State, ¬ Fallen .holdExpiry s → exec .holdExpiry s = .next s) ∧
  (∀ s : State,
    (s.pins.unitSelect = true → s.mcp.state = .fault → ∃ t, exec .faultClear s = .next t ∧ ChangesOnly [.mcp] s t ∧
      t.mcp = { s.mcp with state := .ready, hold := none }) ∧
    (s.pins.unitSelect = false ∨ s.mcp.state ≠ .fault → exec .faultClear s = .next s)) ∧
  ∀ (s : State) (b : Bool), ∃ t, exec (.unitSelect b) s = .next t ∧ ChangesOnly [.pins, .mcp] s t ∧
    t.pins = { s.pins with unitSelect := b } ∧ t.mcp = { s.mcp with activity := if b then s.mcp.activity else .none }

/-- READ and WRITE gates: the first of a passing is taken in READY while selected, and every other is ignored. A READ is
answered from the overlay entry, else from the frame's data, GOOD, RECOVERED, OPEN or FAILED, and else by no address
mark; each answer carries the address with the check of its header; and an answer from the frame refreshes the frame.
A WRITE to a head outside the geometry enters FAULT (R123, R151, R159, R160, R161). -/
def Obligations.GatesAreTakenOncePerPassing : Prop :=
  ∀ (s : State) (a : SectorAddr), a = ⟨s.mcp.track, s.mcp.emu.passing⟩ →
    (s.pins.unitSelect = false ∨ s.mcp.state ≠ .ready ∨ s.mcp.gateTaken = true →
      exec .read s = .next s ∧ exec .write s = .next s) ∧
    (s.pins.unitSelect = true → s.mcp.state = .ready → s.mcp.gateTaken = false →
      (∃ t answer, exec .read s = .next t ∧ ChangesOnly [.mcp, .tks] s t ∧
        t.mcp = { s.mcp with gateTaken := true, activity := .reading answer } ∧
        (∀ e, overlayOf a s = some e → t.tks = s.tks ∧
          answer = some ⟨a, check16 [BitVec.ofNat 16 a.track.cyl, BitVec.ofNat 16 a.track.head, BitVec.ofNat 16 a.sector],
            ⟨e.data, check16 e.data.val⟩⟩) ∧
        (overlayOf a s = none → frameOf a.track s = none ∨ s.geom.heads ≤ a.track.head → answer = none ∧ t.tks = s.tks) ∧
        ∀ pre f post r, overlayOf a s = none → a.track.head < s.geom.heads → s.tks.frames = pre ++ f :: post →
          f.track = a.track → (∀ x ∈ pre ++ post, x.track ≠ a.track) → f.sectors[a.sector]? = some r →
          ((r = .empty ∨ r = .failed none) → answer = none ∧ t.tks = s.tks) ∧
          ∀ w k, r = .good w ∨ r = .recovered w ∨ r = .opened w k ∨ r = .failed (some (w, k)) →
            t.tks = { s.tks with frames := pre ++ post ++ [f] } ∧
            answer = some ⟨a, check16 [BitVec.ofNat 16 a.track.cyl, BitVec.ofNat 16 a.track.head, BitVec.ofNat 16 a.sector], w⟩) ∧
      ∃ t, exec .write s = .next t ∧ ChangesOnly [.mcp] s t ∧
        t.mcp = if s.geom.heads ≤ s.mcp.track.head
          then { s.mcp with gateTaken := true, state := .fault, hold := none, activity := .none }
          else { s.mcp with gateTaken := true, activity := .writing a })

/-- A WRITE to a head outside the geometry enters FAULT at once. WRITE_DATA_COMPLETE: an entry of the address takes the data and one more write, stopping at 255; otherwise a new
entry joins the end with one write; and a full overlay stores nothing, enters FAULT and queues OVERLAY_FULL with the
sector as its detail. Without a WRITE under way it has no effect (R151, R161, R163). -/
def Obligations.WritesAreStored : Prop :=
  (∀ s : State, s.pins.unitSelect = true → s.mcp.state = .ready → s.mcp.gateTaken = false → s.geom.heads ≤ s.mcp.track.head →
    ∃ t, exec .write s = .next t ∧ ChangesOnly [.mcp] s t ∧
      t.mcp = { s.mcp with gateTaken := true, state := .fault, hold := none, activity := .none }) ∧
  ∀ (s : State) (d : SectorData), (s.mcp.activity = .none → exec (.writeDataComplete d) s = .next s) ∧
    ∀ a, s.mcp.activity = .writing a → s.mcp.state = .ready → s.pins.unitSelect = true →
      ∃ t, exec (.writeDataComplete d) s = .next t ∧ ChangesOnly [.mcp, .ovl, .evq] s t ∧
        (∀ x, x ≠ a → overlayOf x t = overlayOf x s) ∧
        (∀ e, overlayOf a s = some e → overlayOf a t = some ⟨a, d, min 255 (e.writes + 1)⟩ ∧
          t.ovl.entries.map OverlayEntry.addr = s.ovl.entries.map OverlayEntry.addr ∧
          t.mcp = { s.mcp with activity := .none } ∧ t.evq = s.evq) ∧
        (overlayOf a s = none → s.ovl.entries.length < 64 → t.ovl = ⟨s.ovl.entries ++ [⟨a, d, 1⟩]⟩ ∧
          t.mcp = { s.mcp with activity := .none } ∧ t.evq = s.evq) ∧
        (overlayOf a s = none → 64 ≤ s.ovl.entries.length → t.ovl = s.ovl ∧
          t.mcp = { s.mcp with state := .fault, hold := none, activity := .none } ∧
          FirstQueued .overlayFull (some a.track) a.sector s t)

/-- The emulated rotation: EMULATED_INDEX, once the period has passed, begins the next revolution that much later, with
P_nom and S read then; SECTOR_PULSE begins the passing of the next sector once floor(s × P / S) µs have passed. Either
allows a gate again and ends what was under way. Before its time neither has an effect, which is log entry 2. The pulses
stand on the cable in READY while selected, as do the other lines by the port's state: all inactive while not selected,
and all released in DETACHED (R145, R150, R151; that the index recurs at exact multiples is log entry 30). -/
def Obligations.EmulatedRotationTurns : Prop :=
  ∀ s : State,
    (s.mcp.emu.period ≤ (s.clock.rotationTimer - s.mcp.emu.indexAt).toNat →
      ∃ t, exec .emulatedIndex s = .next t ∧ ChangesOnly [.mcp] s t ∧
        t.mcp = { s.mcp with
          emu := ⟨s.mcp.emu.indexAt + BitVec.ofNat 32 s.mcp.emu.period, s.ixm.rot.pNom, s.geom.sectors, 0⟩
          gateTaken := false, activity := .none }) ∧
    ((s.clock.rotationTimer - s.mcp.emu.indexAt).toNat < s.mcp.emu.period → exec .emulatedIndex s = .next s) ∧
    (s.mcp.emu.passing + 1 < s.mcp.emu.sectors →
      (s.mcp.emu.passing + 1) * s.mcp.emu.period / s.mcp.emu.sectors ≤ (s.clock.rotationTimer - s.mcp.emu.indexAt).toNat →
      ∃ t, exec .sectorPulse s = .next t ∧ ChangesOnly [.mcp] s t ∧
        t.mcp = { s.mcp with
          emu := { s.mcp.emu with passing := s.mcp.emu.passing + 1 }, gateTaken := false, activity := .none }) ∧
    (s.mcp.emu.sectors ≤ s.mcp.emu.passing + 1 ∨
        (s.clock.rotationTimer - s.mcp.emu.indexAt).toNat <
          (s.mcp.emu.passing + 1) * s.mcp.emu.period / s.mcp.emu.sectors →
      exec .sectorPulse s = .next s) ∧
    (s.mcp.state = .detached →
      portOutputs s = ⟨.released, .released, .released, .released, .released, .released⟩) ∧
    (s.mcp.state ≠ .detached → s.pins.unitSelect = false ∨ s.mcp.state = .notReady →
      portOutputs s = ⟨.inactive, .inactive, .inactive, .inactive, .none, .none⟩) ∧
    (s.pins.unitSelect = true →
      (s.mcp.state = .seeking → portOutputs s = ⟨.active, .inactive, .inactive, .inactive, .none, .none⟩) ∧
      (s.mcp.state = .seekError → portOutputs s = ⟨.active, .inactive, .active, .inactive, .none, .none⟩) ∧
      (s.mcp.state = .fault → portOutputs s = ⟨.active, .active, .inactive, .active, .none, .none⟩) ∧
      (s.mcp.state = .ready → ∃ line, portOutputs s = ⟨.active, .active, .inactive, .inactive, .emulated, line⟩ ∧
        (∀ a, s.mcp.activity = .reading (some a) → line = .answer a) ∧
        ((∀ a, s.mcp.activity ≠ .reading (some a)) → line = .none)))

/-! ### Events and attention (R195 to R200) -/

/-- An event offered takes the counter's value and the counter rises, wrapping; with fewer than 32 records it joins the
end, raises the line in LEVEL mode, and in PULSE mode starts a pulse: at once, or, where one is in progress, after that
one is ended and 2 µs are past; with 32 it is discarded with OVERRUN and nothing else. A pulse ends 20 µs after it began,
leaving the line inactive, with a gap before a pulse still owed; and a gap ends after 2 µs with the next pulse (R195,
R197, R200). That a record queued at the very moment a pulse began, or within a gap, owes a pulse more, each record so
giving a distinct pulse, is log entry 18; that before their times neither end has an effect, log entry 2. -/
def Obligations.EventsAndAttentionFollow : Prop :=
  (∀ (s : State) (k : EventKind) (tr : Option Track) (n : Nat),
    ChangesOnly [.evq] s (offer k tr n s) ∧ (offer k tr n s).evq.counter = s.evq.counter + 1 ∧
    (offer k tr n s).evq.snapshot = s.evq.snapshot ∧
    (s.evq.records.length < 32 →
      (offer k tr n s).evq.records = s.evq.records ++ [⟨s.evq.counter, k, tr, n⟩] ∧
      (offer k tr n s).evq.overrun = s.evq.overrun ∧
      (s.mcp.attnPulse = false → (offer k tr n s).evq.line = true ∧ (offer k tr n s).evq.pulse = s.evq.pulse) ∧
      (s.mcp.attnPulse = true →
        (s.evq.pulse = .none →
          (offer k tr n s).evq.line = true ∧ (offer k tr n s).evq.pulse = .high s.clock.rotationTimer 0) ∧
        (∀ since owed, s.evq.pulse = .high since owed → since ≠ s.clock.rotationTimer →
          (offer k tr n s).evq.line = false ∧ (offer k tr n s).evq.pulse = .gap s.clock.rotationTimer owed) ∧
        (∀ since owed, s.evq.pulse = .high since owed → since = s.clock.rotationTimer →
          (offer k tr n s).evq.line = true ∧ (offer k tr n s).evq.pulse = .high since (owed + 1)) ∧
        ∀ since owed, s.evq.pulse = .gap since owed →
          (offer k tr n s).evq.line = false ∧ (offer k tr n s).evq.pulse = .gap since (owed + 1))) ∧
    (32 ≤ s.evq.records.length → (offer k tr n s).evq =
      { s.evq with counter := s.evq.counter + 1, overrun := true })) ∧
  (∀ s : State, (¬ Fallen .attentionPulseEnd s → exec .attentionPulseEnd s = .next s) ∧
    (¬ Fallen .attentionGapEnd s → exec .attentionGapEnd s = .next s)) ∧
  ∀ (s : State) (since : Timer) (owed : Nat),
    (s.evq.pulse = .high since owed →
      (20 ≤ (s.clock.rotationTimer - since).toNat → ∃ t, exec .attentionPulseEnd s = .next t ∧ ChangesOnly [.evq] s t ∧
        t.evq = { s.evq with line := false, pulse := t.evq.pulse } ∧ (owed = 0 → t.evq.pulse = .none) ∧
        ∀ n, owed = n + 1 → t.evq.pulse = .gap s.clock.rotationTimer n)) ∧
    (s.evq.pulse = .gap since owed →
      (2 ≤ (s.clock.rotationTimer - since).toNat → ∃ t, exec .attentionGapEnd s = .next t ∧ ChangesOnly [.evq] s t ∧
        t.evq = { s.evq with line := true, pulse := .high s.clock.rotationTimer owed }))
end

