-- ==== Sys2Proof/Laws/State.lean ====
section
/-! SUPPORT. One lemma for each field of State and each block's update, true by definition, so that no later proof
unfolds a record update; and the same for taking a command off the queue. -/

namespace Sys2Proof.Machine

variable (s : State)

/-! ### Updates of `clock` -/

@[simp] theorem State.updClock_clock (f : Clock → Clock) : (s.updClock f).clock = f s.clock := rfl
@[simp] theorem State.updClock_pins (f : Clock → Clock) : (s.updClock f).pins = s.pins := rfl
@[simp] theorem State.updClock_geom (f : Clock → Clock) : (s.updClock f).geom = s.geom := rfl
@[simp] theorem State.updClock_ixm (f : Clock → Clock) : (s.updClock f).ixm = s.ixm := rfl
@[simp] theorem State.updClock_dsq (f : Clock → Clock) : (s.updClock f).dsq = s.dsq := rfl
@[simp] theorem State.updClock_rdc (f : Clock → Clock) : (s.updClock f).rdc = s.rdc := rfl
@[simp] theorem State.updClock_cps (f : Clock → Clock) : (s.updClock f).cps = s.cps := rfl
@[simp] theorem State.updClock_vte (f : Clock → Clock) : (s.updClock f).vte = s.vte := rfl
@[simp] theorem State.updClock_jbq (f : Clock → Clock) : (s.updClock f).jbq = s.jbq := rfl
@[simp] theorem State.updClock_tks (f : Clock → Clock) : (s.updClock f).tks = s.tks := rfl
@[simp] theorem State.updClock_rct (f : Clock → Clock) : (s.updClock f).rct = s.rct := rfl
@[simp] theorem State.updClock_mcp (f : Clock → Clock) : (s.updClock f).mcp = s.mcp := rfl
@[simp] theorem State.updClock_ovl (f : Clock → Clock) : (s.updClock f).ovl = s.ovl := rfl
@[simp] theorem State.updClock_stl (f : Clock → Clock) : (s.updClock f).stl = s.stl := rfl
@[simp] theorem State.updClock_evq (f : Clock → Clock) : (s.updClock f).evq = s.evq := rfl
@[simp] theorem State.updClock_pending (f : Clock → Clock) : (s.updClock f).pending = s.pending := rfl

/-! ### Updates of `pins` -/

@[simp] theorem State.updPins_clock (f : Pins → Pins) : (s.updPins f).clock = s.clock := rfl
@[simp] theorem State.updPins_pins (f : Pins → Pins) : (s.updPins f).pins = f s.pins := rfl
@[simp] theorem State.updPins_geom (f : Pins → Pins) : (s.updPins f).geom = s.geom := rfl
@[simp] theorem State.updPins_ixm (f : Pins → Pins) : (s.updPins f).ixm = s.ixm := rfl
@[simp] theorem State.updPins_dsq (f : Pins → Pins) : (s.updPins f).dsq = s.dsq := rfl
@[simp] theorem State.updPins_rdc (f : Pins → Pins) : (s.updPins f).rdc = s.rdc := rfl
@[simp] theorem State.updPins_cps (f : Pins → Pins) : (s.updPins f).cps = s.cps := rfl
@[simp] theorem State.updPins_vte (f : Pins → Pins) : (s.updPins f).vte = s.vte := rfl
@[simp] theorem State.updPins_jbq (f : Pins → Pins) : (s.updPins f).jbq = s.jbq := rfl
@[simp] theorem State.updPins_tks (f : Pins → Pins) : (s.updPins f).tks = s.tks := rfl
@[simp] theorem State.updPins_rct (f : Pins → Pins) : (s.updPins f).rct = s.rct := rfl
@[simp] theorem State.updPins_mcp (f : Pins → Pins) : (s.updPins f).mcp = s.mcp := rfl
@[simp] theorem State.updPins_ovl (f : Pins → Pins) : (s.updPins f).ovl = s.ovl := rfl
@[simp] theorem State.updPins_stl (f : Pins → Pins) : (s.updPins f).stl = s.stl := rfl
@[simp] theorem State.updPins_evq (f : Pins → Pins) : (s.updPins f).evq = s.evq := rfl
@[simp] theorem State.updPins_pending (f : Pins → Pins) : (s.updPins f).pending = s.pending := rfl

/-! ### Updates of `geom` -/

@[simp] theorem State.updGeom_clock (f : Geometry → Geometry) : (s.updGeom f).clock = s.clock := rfl
@[simp] theorem State.updGeom_pins (f : Geometry → Geometry) : (s.updGeom f).pins = s.pins := rfl
@[simp] theorem State.updGeom_geom (f : Geometry → Geometry) : (s.updGeom f).geom = f s.geom := rfl
@[simp] theorem State.updGeom_ixm (f : Geometry → Geometry) : (s.updGeom f).ixm = s.ixm := rfl
@[simp] theorem State.updGeom_dsq (f : Geometry → Geometry) : (s.updGeom f).dsq = s.dsq := rfl
@[simp] theorem State.updGeom_rdc (f : Geometry → Geometry) : (s.updGeom f).rdc = s.rdc := rfl
@[simp] theorem State.updGeom_cps (f : Geometry → Geometry) : (s.updGeom f).cps = s.cps := rfl
@[simp] theorem State.updGeom_vte (f : Geometry → Geometry) : (s.updGeom f).vte = s.vte := rfl
@[simp] theorem State.updGeom_jbq (f : Geometry → Geometry) : (s.updGeom f).jbq = s.jbq := rfl
@[simp] theorem State.updGeom_tks (f : Geometry → Geometry) : (s.updGeom f).tks = s.tks := rfl
@[simp] theorem State.updGeom_rct (f : Geometry → Geometry) : (s.updGeom f).rct = s.rct := rfl
@[simp] theorem State.updGeom_mcp (f : Geometry → Geometry) : (s.updGeom f).mcp = s.mcp := rfl
@[simp] theorem State.updGeom_ovl (f : Geometry → Geometry) : (s.updGeom f).ovl = s.ovl := rfl
@[simp] theorem State.updGeom_stl (f : Geometry → Geometry) : (s.updGeom f).stl = s.stl := rfl
@[simp] theorem State.updGeom_evq (f : Geometry → Geometry) : (s.updGeom f).evq = s.evq := rfl
@[simp] theorem State.updGeom_pending (f : Geometry → Geometry) : (s.updGeom f).pending = s.pending := rfl

/-! ### Updates of `ixm` -/

@[simp] theorem State.updIxm_clock (f : Ixm → Ixm) : (s.updIxm f).clock = s.clock := rfl
@[simp] theorem State.updIxm_pins (f : Ixm → Ixm) : (s.updIxm f).pins = s.pins := rfl
@[simp] theorem State.updIxm_geom (f : Ixm → Ixm) : (s.updIxm f).geom = s.geom := rfl
@[simp] theorem State.updIxm_ixm (f : Ixm → Ixm) : (s.updIxm f).ixm = f s.ixm := rfl
@[simp] theorem State.updIxm_dsq (f : Ixm → Ixm) : (s.updIxm f).dsq = s.dsq := rfl
@[simp] theorem State.updIxm_rdc (f : Ixm → Ixm) : (s.updIxm f).rdc = s.rdc := rfl
@[simp] theorem State.updIxm_cps (f : Ixm → Ixm) : (s.updIxm f).cps = s.cps := rfl
@[simp] theorem State.updIxm_vte (f : Ixm → Ixm) : (s.updIxm f).vte = s.vte := rfl
@[simp] theorem State.updIxm_jbq (f : Ixm → Ixm) : (s.updIxm f).jbq = s.jbq := rfl
@[simp] theorem State.updIxm_tks (f : Ixm → Ixm) : (s.updIxm f).tks = s.tks := rfl
@[simp] theorem State.updIxm_rct (f : Ixm → Ixm) : (s.updIxm f).rct = s.rct := rfl
@[simp] theorem State.updIxm_mcp (f : Ixm → Ixm) : (s.updIxm f).mcp = s.mcp := rfl
@[simp] theorem State.updIxm_ovl (f : Ixm → Ixm) : (s.updIxm f).ovl = s.ovl := rfl
@[simp] theorem State.updIxm_stl (f : Ixm → Ixm) : (s.updIxm f).stl = s.stl := rfl
@[simp] theorem State.updIxm_evq (f : Ixm → Ixm) : (s.updIxm f).evq = s.evq := rfl
@[simp] theorem State.updIxm_pending (f : Ixm → Ixm) : (s.updIxm f).pending = s.pending := rfl

/-! ### Updates of `dsq` -/

@[simp] theorem State.updDsq_clock (f : Dsq → Dsq) : (s.updDsq f).clock = s.clock := rfl
@[simp] theorem State.updDsq_pins (f : Dsq → Dsq) : (s.updDsq f).pins = s.pins := rfl
@[simp] theorem State.updDsq_geom (f : Dsq → Dsq) : (s.updDsq f).geom = s.geom := rfl
@[simp] theorem State.updDsq_ixm (f : Dsq → Dsq) : (s.updDsq f).ixm = s.ixm := rfl
@[simp] theorem State.updDsq_dsq (f : Dsq → Dsq) : (s.updDsq f).dsq = f s.dsq := rfl
@[simp] theorem State.updDsq_rdc (f : Dsq → Dsq) : (s.updDsq f).rdc = s.rdc := rfl
@[simp] theorem State.updDsq_cps (f : Dsq → Dsq) : (s.updDsq f).cps = s.cps := rfl
@[simp] theorem State.updDsq_vte (f : Dsq → Dsq) : (s.updDsq f).vte = s.vte := rfl
@[simp] theorem State.updDsq_jbq (f : Dsq → Dsq) : (s.updDsq f).jbq = s.jbq := rfl
@[simp] theorem State.updDsq_tks (f : Dsq → Dsq) : (s.updDsq f).tks = s.tks := rfl
@[simp] theorem State.updDsq_rct (f : Dsq → Dsq) : (s.updDsq f).rct = s.rct := rfl
@[simp] theorem State.updDsq_mcp (f : Dsq → Dsq) : (s.updDsq f).mcp = s.mcp := rfl
@[simp] theorem State.updDsq_ovl (f : Dsq → Dsq) : (s.updDsq f).ovl = s.ovl := rfl
@[simp] theorem State.updDsq_stl (f : Dsq → Dsq) : (s.updDsq f).stl = s.stl := rfl
@[simp] theorem State.updDsq_evq (f : Dsq → Dsq) : (s.updDsq f).evq = s.evq := rfl
@[simp] theorem State.updDsq_pending (f : Dsq → Dsq) : (s.updDsq f).pending = s.pending := rfl

/-! ### Updates of `rdc` -/

@[simp] theorem State.updRdc_clock (f : Rdc → Rdc) : (s.updRdc f).clock = s.clock := rfl
@[simp] theorem State.updRdc_pins (f : Rdc → Rdc) : (s.updRdc f).pins = s.pins := rfl
@[simp] theorem State.updRdc_geom (f : Rdc → Rdc) : (s.updRdc f).geom = s.geom := rfl
@[simp] theorem State.updRdc_ixm (f : Rdc → Rdc) : (s.updRdc f).ixm = s.ixm := rfl
@[simp] theorem State.updRdc_dsq (f : Rdc → Rdc) : (s.updRdc f).dsq = s.dsq := rfl
@[simp] theorem State.updRdc_rdc (f : Rdc → Rdc) : (s.updRdc f).rdc = f s.rdc := rfl
@[simp] theorem State.updRdc_cps (f : Rdc → Rdc) : (s.updRdc f).cps = s.cps := rfl
@[simp] theorem State.updRdc_vte (f : Rdc → Rdc) : (s.updRdc f).vte = s.vte := rfl
@[simp] theorem State.updRdc_jbq (f : Rdc → Rdc) : (s.updRdc f).jbq = s.jbq := rfl
@[simp] theorem State.updRdc_tks (f : Rdc → Rdc) : (s.updRdc f).tks = s.tks := rfl
@[simp] theorem State.updRdc_rct (f : Rdc → Rdc) : (s.updRdc f).rct = s.rct := rfl
@[simp] theorem State.updRdc_mcp (f : Rdc → Rdc) : (s.updRdc f).mcp = s.mcp := rfl
@[simp] theorem State.updRdc_ovl (f : Rdc → Rdc) : (s.updRdc f).ovl = s.ovl := rfl
@[simp] theorem State.updRdc_stl (f : Rdc → Rdc) : (s.updRdc f).stl = s.stl := rfl
@[simp] theorem State.updRdc_evq (f : Rdc → Rdc) : (s.updRdc f).evq = s.evq := rfl
@[simp] theorem State.updRdc_pending (f : Rdc → Rdc) : (s.updRdc f).pending = s.pending := rfl

/-! ### Updates of `cps` -/

@[simp] theorem State.updCps_clock (f : Cps → Cps) : (s.updCps f).clock = s.clock := rfl
@[simp] theorem State.updCps_pins (f : Cps → Cps) : (s.updCps f).pins = s.pins := rfl
@[simp] theorem State.updCps_geom (f : Cps → Cps) : (s.updCps f).geom = s.geom := rfl
@[simp] theorem State.updCps_ixm (f : Cps → Cps) : (s.updCps f).ixm = s.ixm := rfl
@[simp] theorem State.updCps_dsq (f : Cps → Cps) : (s.updCps f).dsq = s.dsq := rfl
@[simp] theorem State.updCps_rdc (f : Cps → Cps) : (s.updCps f).rdc = s.rdc := rfl
@[simp] theorem State.updCps_cps (f : Cps → Cps) : (s.updCps f).cps = f s.cps := rfl
@[simp] theorem State.updCps_vte (f : Cps → Cps) : (s.updCps f).vte = s.vte := rfl
@[simp] theorem State.updCps_jbq (f : Cps → Cps) : (s.updCps f).jbq = s.jbq := rfl
@[simp] theorem State.updCps_tks (f : Cps → Cps) : (s.updCps f).tks = s.tks := rfl
@[simp] theorem State.updCps_rct (f : Cps → Cps) : (s.updCps f).rct = s.rct := rfl
@[simp] theorem State.updCps_mcp (f : Cps → Cps) : (s.updCps f).mcp = s.mcp := rfl
@[simp] theorem State.updCps_ovl (f : Cps → Cps) : (s.updCps f).ovl = s.ovl := rfl
@[simp] theorem State.updCps_stl (f : Cps → Cps) : (s.updCps f).stl = s.stl := rfl
@[simp] theorem State.updCps_evq (f : Cps → Cps) : (s.updCps f).evq = s.evq := rfl
@[simp] theorem State.updCps_pending (f : Cps → Cps) : (s.updCps f).pending = s.pending := rfl

/-! ### Updates of `vte` -/

@[simp] theorem State.updVte_clock (f : Vte → Vte) : (s.updVte f).clock = s.clock := rfl
@[simp] theorem State.updVte_pins (f : Vte → Vte) : (s.updVte f).pins = s.pins := rfl
@[simp] theorem State.updVte_geom (f : Vte → Vte) : (s.updVte f).geom = s.geom := rfl
@[simp] theorem State.updVte_ixm (f : Vte → Vte) : (s.updVte f).ixm = s.ixm := rfl
@[simp] theorem State.updVte_dsq (f : Vte → Vte) : (s.updVte f).dsq = s.dsq := rfl
@[simp] theorem State.updVte_rdc (f : Vte → Vte) : (s.updVte f).rdc = s.rdc := rfl
@[simp] theorem State.updVte_cps (f : Vte → Vte) : (s.updVte f).cps = s.cps := rfl
@[simp] theorem State.updVte_vte (f : Vte → Vte) : (s.updVte f).vte = f s.vte := rfl
@[simp] theorem State.updVte_jbq (f : Vte → Vte) : (s.updVte f).jbq = s.jbq := rfl
@[simp] theorem State.updVte_tks (f : Vte → Vte) : (s.updVte f).tks = s.tks := rfl
@[simp] theorem State.updVte_rct (f : Vte → Vte) : (s.updVte f).rct = s.rct := rfl
@[simp] theorem State.updVte_mcp (f : Vte → Vte) : (s.updVte f).mcp = s.mcp := rfl
@[simp] theorem State.updVte_ovl (f : Vte → Vte) : (s.updVte f).ovl = s.ovl := rfl
@[simp] theorem State.updVte_stl (f : Vte → Vte) : (s.updVte f).stl = s.stl := rfl
@[simp] theorem State.updVte_evq (f : Vte → Vte) : (s.updVte f).evq = s.evq := rfl
@[simp] theorem State.updVte_pending (f : Vte → Vte) : (s.updVte f).pending = s.pending := rfl

/-! ### Updates of `jbq` -/

@[simp] theorem State.updJbq_clock (f : Jbq → Jbq) : (s.updJbq f).clock = s.clock := rfl
@[simp] theorem State.updJbq_pins (f : Jbq → Jbq) : (s.updJbq f).pins = s.pins := rfl
@[simp] theorem State.updJbq_geom (f : Jbq → Jbq) : (s.updJbq f).geom = s.geom := rfl
@[simp] theorem State.updJbq_ixm (f : Jbq → Jbq) : (s.updJbq f).ixm = s.ixm := rfl
@[simp] theorem State.updJbq_dsq (f : Jbq → Jbq) : (s.updJbq f).dsq = s.dsq := rfl
@[simp] theorem State.updJbq_rdc (f : Jbq → Jbq) : (s.updJbq f).rdc = s.rdc := rfl
@[simp] theorem State.updJbq_cps (f : Jbq → Jbq) : (s.updJbq f).cps = s.cps := rfl
@[simp] theorem State.updJbq_vte (f : Jbq → Jbq) : (s.updJbq f).vte = s.vte := rfl
@[simp] theorem State.updJbq_jbq (f : Jbq → Jbq) : (s.updJbq f).jbq = f s.jbq := rfl
@[simp] theorem State.updJbq_tks (f : Jbq → Jbq) : (s.updJbq f).tks = s.tks := rfl
@[simp] theorem State.updJbq_rct (f : Jbq → Jbq) : (s.updJbq f).rct = s.rct := rfl
@[simp] theorem State.updJbq_mcp (f : Jbq → Jbq) : (s.updJbq f).mcp = s.mcp := rfl
@[simp] theorem State.updJbq_ovl (f : Jbq → Jbq) : (s.updJbq f).ovl = s.ovl := rfl
@[simp] theorem State.updJbq_stl (f : Jbq → Jbq) : (s.updJbq f).stl = s.stl := rfl
@[simp] theorem State.updJbq_evq (f : Jbq → Jbq) : (s.updJbq f).evq = s.evq := rfl
@[simp] theorem State.updJbq_pending (f : Jbq → Jbq) : (s.updJbq f).pending = s.pending := rfl

/-! ### Updates of `tks` -/

@[simp] theorem State.updTks_clock (f : Tks → Tks) : (s.updTks f).clock = s.clock := rfl
@[simp] theorem State.updTks_pins (f : Tks → Tks) : (s.updTks f).pins = s.pins := rfl
@[simp] theorem State.updTks_geom (f : Tks → Tks) : (s.updTks f).geom = s.geom := rfl
@[simp] theorem State.updTks_ixm (f : Tks → Tks) : (s.updTks f).ixm = s.ixm := rfl
@[simp] theorem State.updTks_dsq (f : Tks → Tks) : (s.updTks f).dsq = s.dsq := rfl
@[simp] theorem State.updTks_rdc (f : Tks → Tks) : (s.updTks f).rdc = s.rdc := rfl
@[simp] theorem State.updTks_cps (f : Tks → Tks) : (s.updTks f).cps = s.cps := rfl
@[simp] theorem State.updTks_vte (f : Tks → Tks) : (s.updTks f).vte = s.vte := rfl
@[simp] theorem State.updTks_jbq (f : Tks → Tks) : (s.updTks f).jbq = s.jbq := rfl
@[simp] theorem State.updTks_tks (f : Tks → Tks) : (s.updTks f).tks = f s.tks := rfl
@[simp] theorem State.updTks_rct (f : Tks → Tks) : (s.updTks f).rct = s.rct := rfl
@[simp] theorem State.updTks_mcp (f : Tks → Tks) : (s.updTks f).mcp = s.mcp := rfl
@[simp] theorem State.updTks_ovl (f : Tks → Tks) : (s.updTks f).ovl = s.ovl := rfl
@[simp] theorem State.updTks_stl (f : Tks → Tks) : (s.updTks f).stl = s.stl := rfl
@[simp] theorem State.updTks_evq (f : Tks → Tks) : (s.updTks f).evq = s.evq := rfl
@[simp] theorem State.updTks_pending (f : Tks → Tks) : (s.updTks f).pending = s.pending := rfl

/-! ### Updates of `rct` -/

@[simp] theorem State.updRct_clock (f : Rct → Rct) : (s.updRct f).clock = s.clock := rfl
@[simp] theorem State.updRct_pins (f : Rct → Rct) : (s.updRct f).pins = s.pins := rfl
@[simp] theorem State.updRct_geom (f : Rct → Rct) : (s.updRct f).geom = s.geom := rfl
@[simp] theorem State.updRct_ixm (f : Rct → Rct) : (s.updRct f).ixm = s.ixm := rfl
@[simp] theorem State.updRct_dsq (f : Rct → Rct) : (s.updRct f).dsq = s.dsq := rfl
@[simp] theorem State.updRct_rdc (f : Rct → Rct) : (s.updRct f).rdc = s.rdc := rfl
@[simp] theorem State.updRct_cps (f : Rct → Rct) : (s.updRct f).cps = s.cps := rfl
@[simp] theorem State.updRct_vte (f : Rct → Rct) : (s.updRct f).vte = s.vte := rfl
@[simp] theorem State.updRct_jbq (f : Rct → Rct) : (s.updRct f).jbq = s.jbq := rfl
@[simp] theorem State.updRct_tks (f : Rct → Rct) : (s.updRct f).tks = s.tks := rfl
@[simp] theorem State.updRct_rct (f : Rct → Rct) : (s.updRct f).rct = f s.rct := rfl
@[simp] theorem State.updRct_mcp (f : Rct → Rct) : (s.updRct f).mcp = s.mcp := rfl
@[simp] theorem State.updRct_ovl (f : Rct → Rct) : (s.updRct f).ovl = s.ovl := rfl
@[simp] theorem State.updRct_stl (f : Rct → Rct) : (s.updRct f).stl = s.stl := rfl
@[simp] theorem State.updRct_evq (f : Rct → Rct) : (s.updRct f).evq = s.evq := rfl
@[simp] theorem State.updRct_pending (f : Rct → Rct) : (s.updRct f).pending = s.pending := rfl

/-! ### Updates of `mcp` -/

@[simp] theorem State.updMcp_clock (f : Mcp → Mcp) : (s.updMcp f).clock = s.clock := rfl
@[simp] theorem State.updMcp_pins (f : Mcp → Mcp) : (s.updMcp f).pins = s.pins := rfl
@[simp] theorem State.updMcp_geom (f : Mcp → Mcp) : (s.updMcp f).geom = s.geom := rfl
@[simp] theorem State.updMcp_ixm (f : Mcp → Mcp) : (s.updMcp f).ixm = s.ixm := rfl
@[simp] theorem State.updMcp_dsq (f : Mcp → Mcp) : (s.updMcp f).dsq = s.dsq := rfl
@[simp] theorem State.updMcp_rdc (f : Mcp → Mcp) : (s.updMcp f).rdc = s.rdc := rfl
@[simp] theorem State.updMcp_cps (f : Mcp → Mcp) : (s.updMcp f).cps = s.cps := rfl
@[simp] theorem State.updMcp_vte (f : Mcp → Mcp) : (s.updMcp f).vte = s.vte := rfl
@[simp] theorem State.updMcp_jbq (f : Mcp → Mcp) : (s.updMcp f).jbq = s.jbq := rfl
@[simp] theorem State.updMcp_tks (f : Mcp → Mcp) : (s.updMcp f).tks = s.tks := rfl
@[simp] theorem State.updMcp_rct (f : Mcp → Mcp) : (s.updMcp f).rct = s.rct := rfl
@[simp] theorem State.updMcp_mcp (f : Mcp → Mcp) : (s.updMcp f).mcp = f s.mcp := rfl
@[simp] theorem State.updMcp_ovl (f : Mcp → Mcp) : (s.updMcp f).ovl = s.ovl := rfl
@[simp] theorem State.updMcp_stl (f : Mcp → Mcp) : (s.updMcp f).stl = s.stl := rfl
@[simp] theorem State.updMcp_evq (f : Mcp → Mcp) : (s.updMcp f).evq = s.evq := rfl
@[simp] theorem State.updMcp_pending (f : Mcp → Mcp) : (s.updMcp f).pending = s.pending := rfl

/-! ### Updates of `ovl` -/

@[simp] theorem State.updOvl_clock (f : Ovl → Ovl) : (s.updOvl f).clock = s.clock := rfl
@[simp] theorem State.updOvl_pins (f : Ovl → Ovl) : (s.updOvl f).pins = s.pins := rfl
@[simp] theorem State.updOvl_geom (f : Ovl → Ovl) : (s.updOvl f).geom = s.geom := rfl
@[simp] theorem State.updOvl_ixm (f : Ovl → Ovl) : (s.updOvl f).ixm = s.ixm := rfl
@[simp] theorem State.updOvl_dsq (f : Ovl → Ovl) : (s.updOvl f).dsq = s.dsq := rfl
@[simp] theorem State.updOvl_rdc (f : Ovl → Ovl) : (s.updOvl f).rdc = s.rdc := rfl
@[simp] theorem State.updOvl_cps (f : Ovl → Ovl) : (s.updOvl f).cps = s.cps := rfl
@[simp] theorem State.updOvl_vte (f : Ovl → Ovl) : (s.updOvl f).vte = s.vte := rfl
@[simp] theorem State.updOvl_jbq (f : Ovl → Ovl) : (s.updOvl f).jbq = s.jbq := rfl
@[simp] theorem State.updOvl_tks (f : Ovl → Ovl) : (s.updOvl f).tks = s.tks := rfl
@[simp] theorem State.updOvl_rct (f : Ovl → Ovl) : (s.updOvl f).rct = s.rct := rfl
@[simp] theorem State.updOvl_mcp (f : Ovl → Ovl) : (s.updOvl f).mcp = s.mcp := rfl
@[simp] theorem State.updOvl_ovl (f : Ovl → Ovl) : (s.updOvl f).ovl = f s.ovl := rfl
@[simp] theorem State.updOvl_stl (f : Ovl → Ovl) : (s.updOvl f).stl = s.stl := rfl
@[simp] theorem State.updOvl_evq (f : Ovl → Ovl) : (s.updOvl f).evq = s.evq := rfl
@[simp] theorem State.updOvl_pending (f : Ovl → Ovl) : (s.updOvl f).pending = s.pending := rfl

/-! ### Updates of `stl` -/

@[simp] theorem State.updStl_clock (f : Stl → Stl) : (s.updStl f).clock = s.clock := rfl
@[simp] theorem State.updStl_pins (f : Stl → Stl) : (s.updStl f).pins = s.pins := rfl
@[simp] theorem State.updStl_geom (f : Stl → Stl) : (s.updStl f).geom = s.geom := rfl
@[simp] theorem State.updStl_ixm (f : Stl → Stl) : (s.updStl f).ixm = s.ixm := rfl
@[simp] theorem State.updStl_dsq (f : Stl → Stl) : (s.updStl f).dsq = s.dsq := rfl
@[simp] theorem State.updStl_rdc (f : Stl → Stl) : (s.updStl f).rdc = s.rdc := rfl
@[simp] theorem State.updStl_cps (f : Stl → Stl) : (s.updStl f).cps = s.cps := rfl
@[simp] theorem State.updStl_vte (f : Stl → Stl) : (s.updStl f).vte = s.vte := rfl
@[simp] theorem State.updStl_jbq (f : Stl → Stl) : (s.updStl f).jbq = s.jbq := rfl
@[simp] theorem State.updStl_tks (f : Stl → Stl) : (s.updStl f).tks = s.tks := rfl
@[simp] theorem State.updStl_rct (f : Stl → Stl) : (s.updStl f).rct = s.rct := rfl
@[simp] theorem State.updStl_mcp (f : Stl → Stl) : (s.updStl f).mcp = s.mcp := rfl
@[simp] theorem State.updStl_ovl (f : Stl → Stl) : (s.updStl f).ovl = s.ovl := rfl
@[simp] theorem State.updStl_stl (f : Stl → Stl) : (s.updStl f).stl = f s.stl := rfl
@[simp] theorem State.updStl_evq (f : Stl → Stl) : (s.updStl f).evq = s.evq := rfl
@[simp] theorem State.updStl_pending (f : Stl → Stl) : (s.updStl f).pending = s.pending := rfl

/-! ### Updates of `evq` -/

@[simp] theorem State.updEvq_clock (f : Evq → Evq) : (s.updEvq f).clock = s.clock := rfl
@[simp] theorem State.updEvq_pins (f : Evq → Evq) : (s.updEvq f).pins = s.pins := rfl
@[simp] theorem State.updEvq_geom (f : Evq → Evq) : (s.updEvq f).geom = s.geom := rfl
@[simp] theorem State.updEvq_ixm (f : Evq → Evq) : (s.updEvq f).ixm = s.ixm := rfl
@[simp] theorem State.updEvq_dsq (f : Evq → Evq) : (s.updEvq f).dsq = s.dsq := rfl
@[simp] theorem State.updEvq_rdc (f : Evq → Evq) : (s.updEvq f).rdc = s.rdc := rfl
@[simp] theorem State.updEvq_cps (f : Evq → Evq) : (s.updEvq f).cps = s.cps := rfl
@[simp] theorem State.updEvq_vte (f : Evq → Evq) : (s.updEvq f).vte = s.vte := rfl
@[simp] theorem State.updEvq_jbq (f : Evq → Evq) : (s.updEvq f).jbq = s.jbq := rfl
@[simp] theorem State.updEvq_tks (f : Evq → Evq) : (s.updEvq f).tks = s.tks := rfl
@[simp] theorem State.updEvq_rct (f : Evq → Evq) : (s.updEvq f).rct = s.rct := rfl
@[simp] theorem State.updEvq_mcp (f : Evq → Evq) : (s.updEvq f).mcp = s.mcp := rfl
@[simp] theorem State.updEvq_ovl (f : Evq → Evq) : (s.updEvq f).ovl = s.ovl := rfl
@[simp] theorem State.updEvq_stl (f : Evq → Evq) : (s.updEvq f).stl = s.stl := rfl
@[simp] theorem State.updEvq_evq (f : Evq → Evq) : (s.updEvq f).evq = f s.evq := rfl
@[simp] theorem State.updEvq_pending (f : Evq → Evq) : (s.updEvq f).pending = s.pending := rfl

end Sys2Proof.Machine
end

