-- ==== Sys2Proof/Laws/Changes.lean ====
section
/-! SUPPORT. Which blocks each shared operation may change, said once for each operation; a proof about what stands
unchanged cites these and unfolds no operation. -/

namespace Sys2Proof.Machine

variable {s t u : State} {bs cs : List Block}

/-! ### The relation -/

theorem ChangesOnly.refl (bs : List Block) (s : State) : ChangesOnly bs s s :=
  ⟨rfl, fun b _ => by cases b <;> rfl⟩

theorem ChangesOnly.mono (h : ChangesOnly bs s t) (sub : bs ⊆ cs) : ChangesOnly cs s t :=
  ⟨h.1, fun b hb => h.2 b fun hm => hb (sub hm)⟩

theorem Block.Same.trans {b : Block} (h : b.Same s t) (k : b.Same t u) : b.Same s u := by
  cases b <;> exact Eq.trans k h

theorem ChangesOnly.trans (h : ChangesOnly bs s t) (k : ChangesOnly bs t u) : ChangesOnly bs s u :=
  ⟨k.1.trans h.1, fun b hb => (h.2 b hb).trans (k.2 b hb)⟩

/-- A change within `bs` followed by one within a part of `bs`. -/
theorem ChangesOnly.andThen (h : ChangesOnly bs s t) (k : ChangesOnly cs t u) (sub : cs ⊆ bs) : ChangesOnly bs s u :=
  h.trans (k.mono sub)

theorem ChangesOnly.ite {p : Prop} [Decidable p] (h : ChangesOnly bs s t) (k : ChangesOnly bs s u) :
    ChangesOnly bs s (if p then t else u) := by
  split <;> assumption

/-! ### The updates -/

theorem updClock_changes (f : Clock → Clock) : ChangesOnly [.clock] s (s.updClock f) :=
  ⟨rfl, fun b hb => by cases b <;> first | rfl | simp at hb⟩

theorem updPins_changes (f : Pins → Pins) : ChangesOnly [.pins] s (s.updPins f) :=
  ⟨rfl, fun b hb => by cases b <;> first | rfl | simp at hb⟩

theorem updGeom_changes (f : Geometry → Geometry) : ChangesOnly [.geom] s (s.updGeom f) :=
  ⟨rfl, fun b hb => by cases b <;> first | rfl | simp at hb⟩

theorem updIxm_changes (f : Ixm → Ixm) : ChangesOnly [.ixm] s (s.updIxm f) :=
  ⟨rfl, fun b hb => by cases b <;> first | rfl | simp at hb⟩

theorem updDsq_changes (f : Dsq → Dsq) : ChangesOnly [.dsq] s (s.updDsq f) :=
  ⟨rfl, fun b hb => by cases b <;> first | rfl | simp at hb⟩

theorem updRdc_changes (f : Rdc → Rdc) : ChangesOnly [.rdc] s (s.updRdc f) :=
  ⟨rfl, fun b hb => by cases b <;> first | rfl | simp at hb⟩

theorem updCps_changes (f : Cps → Cps) : ChangesOnly [.cps] s (s.updCps f) :=
  ⟨rfl, fun b hb => by cases b <;> first | rfl | simp at hb⟩

theorem updVte_changes (f : Vte → Vte) : ChangesOnly [.vte] s (s.updVte f) :=
  ⟨rfl, fun b hb => by cases b <;> first | rfl | simp at hb⟩

theorem updJbq_changes (f : Jbq → Jbq) : ChangesOnly [.jbq] s (s.updJbq f) :=
  ⟨rfl, fun b hb => by cases b <;> first | rfl | simp at hb⟩

theorem updTks_changes (f : Tks → Tks) : ChangesOnly [.tks] s (s.updTks f) :=
  ⟨rfl, fun b hb => by cases b <;> first | rfl | simp at hb⟩

theorem updRct_changes (f : Rct → Rct) : ChangesOnly [.rct] s (s.updRct f) :=
  ⟨rfl, fun b hb => by cases b <;> first | rfl | simp at hb⟩

theorem updMcp_changes (f : Mcp → Mcp) : ChangesOnly [.mcp] s (s.updMcp f) :=
  ⟨rfl, fun b hb => by cases b <;> first | rfl | simp at hb⟩

theorem updOvl_changes (f : Ovl → Ovl) : ChangesOnly [.ovl] s (s.updOvl f) :=
  ⟨rfl, fun b hb => by cases b <;> first | rfl | simp at hb⟩

theorem updStl_changes (f : Stl → Stl) : ChangesOnly [.stl] s (s.updStl f) :=
  ⟨rfl, fun b hb => by cases b <;> first | rfl | simp at hb⟩

theorem updEvq_changes (f : Evq → Evq) : ChangesOnly [.evq] s (s.updEvq f) :=
  ⟨rfl, fun b hb => by cases b <;> first | rfl | simp at hb⟩

/-! ### Events, jobs, frames and entries -/

theorem offer_changes (k : EventKind) (tr : Option Track) (n : Nat) : ChangesOnly [.evq] s (offer k tr n s) :=
  updEvq_changes _

theorem offerLatching_changes (k : EventKind) (n : Nat) (x : Snapshot) : ChangesOnly [.evq] s (offerLatching k n x s) :=
  (offer_changes k none n).trans (updEvq_changes _)

theorem updJob_changes (tr : Track) (f : Job → Job) : ChangesOnly [.jbq] s (updJob tr f s) :=
  updJbq_changes _

theorem updFrame_changes (tr : Track) (f : Frame → Frame) : ChangesOnly [.tks] s (updFrame tr f s) :=
  updTks_changes _

theorem updEntry_changes (tr : Track) (f : Entry → Entry) : ChangesOnly [.rct] s (updEntry tr f s) :=
  updRct_changes _

theorem reportMargin_changes (n : Nat) : ChangesOnly [.rct] s (reportMargin n s) :=
  updRct_changes _

/-- A new entry reaches the table, or TABLE_FULL the queue (R133, R134). -/
theorem createEntry_changes (tr : Track) (o : Origin) (st : EntryState) (n : Nat) (b : Bool) (os : List OutcomeRec) :
    ChangesOnly [.rct, .evq] s (createEntry tr o st n b os s) := by
  unfold createEntry
  split
  · exact (updRct_changes _).mono (by decide)
  · exact (offer_changes _ _ _).mono (by decide)

theorem closingEvent_changes (e : Entry) : ChangesOnly [.evq] s (closingEvent e s) := by
  unfold closingEvent
  split <;> exact offer_changes _ _ _

/-- A closing reaches the table and the queue (R138). -/
theorem closeEntry_changes (tr : Track) (falls : OutcomeRec → Bool) (reason : Nat → FailReason) (held : Nat → Nat)
    (p q : Bool) : ChangesOnly [.rct, .evq] s (closeEntry tr falls reason held p q s) := by
  unfold closeEntry
  split
  · split
    · have h : ChangesOnly [.rct, .evq] s (updEntry tr (Entry.close falls reason held p) s) :=
        (updEntry_changes _ _).mono (by decide)
      exact .ite h (h.andThen (closingEvent_changes _) (by decide))
    · exact .refl _ _
  · exact .refl _ _

/-! ### Jobs -/

/-- The blocks that the end of a job may reach (R108). -/
def workBlocks : List Block :=
  [.cps, .jbq, .tks, .rct, .evq]

theorem releaseFrame_changes (tr : Track) : ChangesOnly [.tks] s (releaseFrame tr s) :=
  updTks_changes _

theorem endFrame_changes (j : Job) : ChangesOnly [.tks] s (endFrame j s) :=
  .ite (.ite (releaseFrame_changes _) (updFrame_changes _ _)) (.refl _ _)

theorem endCopies_changes (j : Job) : ChangesOnly [.cps] s (endCopies j s) :=
  updCps_changes _

/-- The five parts of a job's end reach five blocks (R108). -/
theorem endJob_changes (k : JobEnd) (p q : Bool) (j : Job) : ChangesOnly workBlocks s (endJob k p q j s) :=
  ((endFrame_changes j).mono (by decide)).andThen (endCopies_changes j) (by decide)
    |>.andThen (closeEntry_changes _ _ _ _ _ _) (by decide)
    |>.andThen (updRct_changes _) (by decide)
    |>.andThen (updJbq_changes _) (by decide)

theorem endWalk_changes (j : Job) : ChangesOnly workBlocks s (endWalk j s) :=
  .ite ((updJob_changes _ _).mono (by decide)) (endJob_changes _ _ _ _)

theorem endRecovered_changes (j : Job) : ChangesOnly workBlocks s (endRecovered j s) :=
  (ChangesOnly.ite ((offer_changes _ _ _).mono (by decide)) (.refl _ _)).trans (endJob_changes _ _ _ _)

theorem advanceJob_changes (tr : Track) : ChangesOnly workBlocks s (advanceJob tr s) := by
  unfold advanceJob
  split
  · split
    · exact endRecovered_changes _
    · dsimp only
      split
      · exact ((updJob_changes _ _).mono (by decide)).trans (endWalk_changes _)
      · exact (updJob_changes _ _).mono (by decide)
  · exact .refl _ _

theorem recordRefill_changes (j : Job) : ChangesOnly [.rct, .evq] s (recordRefill j s) := by
  unfold recordRefill
  split
  · exact .ite ((updEntry_changes _ _).mono (by decide)) ((updEntry_changes _ _).mono (by decide))
  · exact .ite (.refl _ _) (createEntry_changes _ _ _ _ _ _)

theorem finishJobPass_changes (tr : Track) : ChangesOnly workBlocks s (finishJobPass tr s) := by
  unfold finishJobPass
  split
  · exact (ChangesOnly.ite ((recordRefill_changes _).mono (by decide)) (.refl _ _)).trans (advanceJob_changes _)
  · exact .refl _ _

theorem createFetchedJob_changes (k : GrantKind) (tr : Track) (os : List Nat) :
    ChangesOnly workBlocks s (createFetchedJob k tr os s) := by
  unfold createFetchedJob
  have h : ChangesOnly workBlocks s (addJob (fetchedJob k tr os (fetchTallies s)) s) :=
    (updJbq_changes _).mono (by decide)
  dsimp only
  split
  · exact h.andThen (updEntry_changes _ _) (by decide)
  · exact h.andThen (createEntry_changes _ _ _ _ _ _) (by decide)

theorem serveFill_changes (k : GrantKind) (tr : Track) (os : List Nat) :
    ChangesOnly workBlocks s (serveFill k tr os s) := by
  unfold serveFill
  exact ((updJob_changes _ _).mono (by decide)).andThen (updEntry_changes _ _) (by decide)
    |>.trans (.ite ((updEntry_changes _ _).mono (by decide)) (.refl _ _))
    |>.trans (finishJobPass_changes _)

theorem failFetch_changes (k : GrantKind) (tr : Track) (os : List Nat) :
    ChangesOnly workBlocks s (failFetch k tr os s) := by
  unfold failFetch
  have h : ChangesOnly workBlocks s (updFrame tr (failSectors os) s) := (updFrame_changes _ _).mono (by decide)
  dsimp only
  refine .andThen (.andThen (?_ : ChangesOnly workBlocks s _) (offer_changes _ _ _) (by decide)) (updCps_changes _)
    (by decide)
  split
  · exact h.andThen (updEntry_changes _ _) (by decide)
  · exact h.andThen (createEntry_changes _ _ _ _ _ _) (by decide)

/-- The end of a fetch reaches the blocks of a job's end (R96 to R98). -/
theorem endFetch_changes (k : GrantKind) (tr : Track) : ChangesOnly workBlocks s (endFetch k tr s) := by
  unfold endFetch
  dsimp only
  refine .andThen (?_ : ChangesOnly workBlocks s _) (updJbq_changes _) (by decide)
  refine .ite (serveFill_changes _ _ _) (.ite ((updCps_changes _).mono (by decide)) (.ite (createFetchedJob_changes _ _ _) ?_))
  split
  · exact (endJob_changes _ _ _ _).trans (createFetchedJob_changes _ _ _)
  · exact failFetch_changes _ _ _

/-! ### Votes and claims -/

theorem deliverVoted_changes (b : Batch) (m : Member) (d : SectorWords) (n : Nat) :
    ChangesOnly workBlocks s (deliverVoted b m d n s) := by
  unfold deliverVoted
  refine .andThen ?_ (updJob_changes _ _) (by decide)
  refine .andThen ?_ (reportMargin_changes n) (by decide)
  refine .andThen ?_ (updEntry_changes _ _) (by decide)
  refine .andThen ?_ (updCps_changes _) (by decide)
  exact (updFrame_changes _ _).mono (by decide)

theorem deliverOpen_changes (b : Batch) (m : Member) (v : LastVote) : ChangesOnly workBlocks s (deliverOpen b m v s) := by
  unfold deliverOpen
  refine .andThen ?_ (updJob_changes _ _) (by decide)
  exact (updCps_changes _).mono (by decide)

theorem deliverOutcome_changes (b : Batch) (m : Member) (o : VoteOutcome) :
    ChangesOnly workBlocks s (deliverOutcome b m s o) := by
  cases o
  · exact deliverVoted_changes _ _ _ _
  · exact deliverOpen_changes _ _ _
  · exact deliverOpen_changes _ _ _

theorem deliverMember_changes (b : Batch) (m : Member) : ChangesOnly workBlocks s (deliverMember b s m) :=
  deliverOutcome_changes b m _

/-- The delivery of a batch reaches the blocks of a job's end (R79, R80). -/
theorem deliverBatch_changes (b : Batch) : ChangesOnly workBlocks s (deliverBatch b s) := by
  unfold deliverBatch
  generalize b.members = ms
  induction ms generalizing s with
  | nil => exact .refl _ _
  | cons m ms ih =>
    rw [List.foldl_cons]
    exact (deliverMember_changes b m).trans (ih (s := deliverMember b s m))

theorem dropImage_changes (f : Frame) : ChangesOnly [.rct, .evq] s (dropImage f s) := by
  unfold dropImage
  refine .ite (.andThen ?_ (updEntry_changes _ _) (by decide)) (.refl _ _)
  exact (offer_changes _ _ _).mono (by decide)

theorem retire_changes (src : ClaimFrom) : ChangesOnly workBlocks s (retire src s) := by
  have out : ∀ (v : State) (tr : Track) (f : Frame), ChangesOnly workBlocks v (releaseFrame tr (dropImage f v)) :=
    fun v tr f => ((dropImage_changes f).mono (by decide)).andThen (releaseFrame_changes tr) (by decide)
  unfold retire
  split
  · exact .refl _ _
  · split
    · exact out _ _ _
    · exact .refl _ _
  · dsimp only
    have j : ∀ tr, ChangesOnly workBlocks s
        (match jobOf tr s with
          | some j => endJob (.cause .evicted) false false j s
          | none => s) := by
      intro tr
      split
      · exact endJob_changes _ _ _ _
      · exact .refl _ _
    split
    · exact (j _).trans (out _ _ _)
    · exact j _

/-- A claim reaches the blocks of a job's end (R114). -/
theorem claim_changes (src : ClaimFrom) (tr : Track) : ChangesOnly workBlocks s (claim src tr s) :=
  (retire_changes src).andThen (updTks_changes _) (by decide)

/-! ### The Drive Sequencer -/

/-- The blocks that a grant may reach: the sequencer's, and those of a job's end. -/
def grantBlocks : List Block :=
  .dsq :: workBlocks

theorem setDsqState_changes (st : DsqState) : ChangesOnly [.dsq] s (setDsqState st s) :=
  updDsq_changes _

theorem setGrant_changes (g : Option Grant) : ChangesOnly [.dsq] s (setGrant g s) :=
  updDsq_changes _

theorem endUnpassed_changes (g : Grant) : ChangesOnly grantBlocks s (endUnpassed g s) := by
  have h : ChangesOnly grantBlocks s (setGrant none s) := (setGrant_changes none).mono (by decide)
  unfold endUnpassed
  exact .ite (h.andThen (updJob_changes _ _) (by decide))
    (.ite (h.andThen (endFetch_changes _ _) (by decide))
      ((h.andThen (releaseFrame_changes _) (by decide)).andThen (updJbq_changes _) (by decide)))

theorem abortPass_changes (g : Grant) : ChangesOnly (.rdc :: grantBlocks) s (abortPass g s) := by
  have h : ChangesOnly (.rdc :: grantBlocks) s (setGrant none (endPassContext s)) :=
    ((updRdc_changes _).mono (by decide)).andThen (setGrant_changes none) (by decide)
  unfold abortPass
  exact .ite (h.andThen (updJob_changes _ _) (by decide)) (h.andThen (endFetch_changes _ _) (by decide))

theorem abandonWork_changes : ChangesOnly (.rdc :: grantBlocks) s (abandonWork s) := by
  unfold abandonWork
  refine .andThen (?_ : ChangesOnly (.rdc :: grantBlocks) s _) (updDsq_changes _) (by decide)
  split
  · split
    · exact (endUnpassed_changes _).mono (by decide)
    · exact abortPass_changes _
    · exact .refl _ _
  · exact .refl _ _

theorem completeBatch_changes (b : Batch) : ChangesOnly (.vte :: grantBlocks) s (completeBatch b s) := by
  have h : ChangesOnly (.vte :: grantBlocks) s
      (setGrant none (finishJobPass b.track ((deliverBatch b s).updVte fun v => { v with batch := none }))) :=
    (((deliverBatch_changes b).mono (by decide)).andThen (updVte_changes _) (by decide)).andThen
      (finishJobPass_changes _) (by decide) |>.andThen (setGrant_changes none) (by decide)
  exact .ite (h.andThen (setDsqState_changes _) (by decide)) h

theorem countPass_changes (g : Grant) : ChangesOnly (.rdc :: .vte :: grantBlocks) s (countPass g s) := by
  have r : ChangesOnly (.rdc :: .vte :: grantBlocks) s (endPassContext s) := (updRdc_changes _).mono (by decide)
  have j : ∀ v : State, ChangesOnly (.rdc :: .vte :: grantBlocks) v (countJobPass g v) := by
    intro v
    have h := (updJob_changes (s := v) g.track fun j => { j with counter := bump 65535 j.counter }).mono
      (show _ ⊆ Block.rdc :: .vte :: grantBlocks by decide)
    have k := h.andThen (updEntry_changes g.track Entry.countPass) (by decide)
    unfold countJobPass
    dsimp only
    have l := (k.andThen (setGrant_changes (some { g with phase := .voting })) (by decide)).andThen
      (setDsqState_changes .voting) (by decide)
    have m := fun f => l.andThen (updVte_changes f) (by decide)
    exact .ite ((m _).andThen (completeBatch_changes _) (by decide)) (m _)
  unfold countPass
  exact .ite (r.trans (j _)) ((r.andThen (setGrant_changes none) (by decide)).andThen (endFetch_changes _ _) (by decide)
    |>.andThen (setDsqState_changes _) (by decide))

theorem beginRecalibrate_changes : ChangesOnly [.dsq] s (beginRecalibrate s) :=
  .ite (((updDsq_changes _).trans (updDsq_changes _)).trans (updDsq_changes _)) (updDsq_changes _)

theorem endSettle_changes : ChangesOnly grantBlocks s (endSettle s) := by
  have c : ChangesOnly grantBlocks s (clearOperation s) := (updDsq_changes _).mono (by decide)
  unfold endSettle
  split
  · exact .ite ((c.trans (endUnpassed_changes _)).andThen (setDsqState_changes _) (by decide))
      (c.andThen (setDsqState_changes _) (by decide))
  · exact c.andThen (setDsqState_changes _) (by decide)

theorem beginSettle_changes (g : Grant) : ChangesOnly grantBlocks s (beginSettle g s) := by
  unfold beginSettle
  dsimp only
  have h := (updDsq_changes (s := s) fun d =>
    { d.establish ⟨g.track.cyl, g.track.head, g.offset⟩ with
      state := .settling, seekTarget := none, expiry := some (uptimeExpiry s d.set.settle) }).mono (show _ ⊆ grantBlocks by decide)
  exact .ite (h.trans endSettle_changes) h

theorem takeUpGrant_changes (g : Grant) : ChangesOnly grantBlocks s (takeUpGrant g s) := by
  unfold takeUpGrant
  split
  · exact beginRecalibrate_changes.mono (by decide)
  · exact .ite ((updDsq_changes _).mono (by decide))
      (.ite (beginSettle_changes _) (((updDsq_changes _).mono (by decide)).andThen (setDsqState_changes _) (by decide)))

/-- Arbitration reaches the sequencer, and the blocks a claim may reach (R25, R114). -/
theorem arbitrate_changes : ChangesOnly grantBlocks s (arbitrate s) := by
  unfold arbitrate
  refine .ite ?_ (.refl _ _)
  split
  · rename_i c _
    refine .trans (.andThen (?_ : ChangesOnly grantBlocks s (prepareGrant c s)) (setGrant_changes _) (by decide))
      (takeUpGrant_changes _)
    unfold prepareGrant
    split
    · exact ((claim_changes _ _).mono (by decide)).andThen (updJbq_changes _) (by decide)
    · dsimp only
      split
      · exact ((claim_changes _ _).mono (by decide)).andThen (updJob_changes _ _) (by decide)
      · exact (updJob_changes _ _).mono (by decide)
  · exact .refl _ _

theorem raiseFence_changes (cause : FenceCause) (before : State) :
    ChangesOnly (.rdc :: grantBlocks) s (raiseFence cause before s) :=
  .ite (.refl _ _) ((abandonWork_changes.andThen (updDsq_changes _) (by decide)).andThen (offerLatching_changes _ _ _)
    (by decide))

theorem seekFault_changes : ChangesOnly (.rdc :: grantBlocks) s (seekFault s) := by
  unfold seekFault
  have h := (updDsq_changes (s := s) fun d =>
    { d with faults := d.faults + 1, quiet := some (uptimeExpiry s (1000 * d.set.quietPeriod)) }).mono
    (show _ ⊆ Block.rdc :: grantBlocks by decide)
  exact .ite (h.trans (raiseFence_changes _ _))
    ((((h.andThen (setGrant_changes _) (by decide)).andThen (updRdc_changes _) (by decide)).andThen (updDsq_changes _)
      (by decide)).andThen beginRecalibrate_changes (by decide))

/-- Following a spindle change reaches the sequencer, the Read Channel, and the blocks of a job's end (R23, R24). -/
theorem followSpindle_changes (old : Spindle) : ChangesOnly (.rdc :: grantBlocks) s (followSpindle old s) := by
  have a : ChangesOnly (.rdc :: grantBlocks) s (abandonWork s) := abandonWork_changes
  have d : ∀ st, ChangesOnly (.rdc :: grantBlocks) s (setDsqState st s) := fun st =>
    (setDsqState_changes st).mono (by decide)
  have e : ∀ st, ChangesOnly (.rdc :: grantBlocks) s (setDsqState st (abandonWork s)) := fun st =>
    a.andThen (setDsqState_changes st) (by decide)
  have f : ∀ st, ChangesOnly (.rdc :: grantBlocks) s (setDsqState st (losePosition (abandonWork s))) := fun st =>
    (a.andThen (updDsq_changes _) (by decide)).andThen (setDsqState_changes st) (by decide)
  have down : ChangesOnly (.rdc :: grantBlocks) s (followDown s) := by
    unfold followDown
    split
    · exact d _
    · exact f _
    · exact f _
    · exact f _
    · exact e _
    · exact .refl _ _
  unfold followSpindle
  refine .ite (.refl _ _) ?_
  split
  · exact down
  · exact down
  · unfold followUnstable
    split
    · exact e _
    · exact .refl _ _
  · unfold followRunning
    split
    · exact beginRecalibrate_changes.mono (by decide)
    · exact .refl _ _

theorem takeMark_changes (r : Timer) : ChangesOnly (.rdc :: .vte :: grantBlocks) s (takeMark r s) := by
  unfold takeMark
  split
  · split
    · exact countPass_changes _
    · exact .ite (((setGrant_changes _).mono (by decide)).andThen (updRdc_changes _) (by decide)) (.refl _ _)
    · exact .refl _ _
  · exact .refl _ _

theorem takeLateExpiry_changes : ChangesOnly (.rdc :: .vte :: grantBlocks) s (takeLateExpiry s) := by
  unfold takeLateExpiry
  split
  · exact .ite (countPass_changes _) (.refl _ _)
  · exact .refl _ _

/-! ### The Machine Port -/

theorem testHold_changes : ChangesOnly [.mcp] s (testHold s) :=
  .ite (updMcp_changes _) (.refl _ _)

theorem beginHold_changes : ChangesOnly [.mcp] s (beginHold s) :=
  .ite ((updMcp_changes _).trans testHold_changes) (updMcp_changes _)

theorem followReady_changes : ChangesOnly [.mcp] s (followReady s) := by
  unfold followReady
  split
  · exact .refl _ _
  · exact .ite ((updMcp_changes _).trans beginHold_changes) (.refl _ _)
  · exact .ite (.refl _ _) (updMcp_changes _)

/-- The end of an event reaches the port, the sequencer, and the blocks a claim may reach (log entry 26). -/
theorem afterEvent_changes : ChangesOnly (.mcp :: grantBlocks) s (afterEvent s) :=
  ((followReady_changes.trans testHold_changes).mono (by decide)).andThen arbitrate_changes (by decide)

/-- After a job request the port and the sequencer may change, and the blocks a claim may reach. -/
theorem afterJobs_changes : ChangesOnly (.mcp :: grantBlocks) s (afterJobs s) :=
  (testHold_changes.mono (by decide)).andThen arbitrate_changes (by decide)

/-! ### Requests -/

theorem answer_changes (r : ResultCode) (code : Byte) (p : List Byte) : ChangesOnly [.stl] s (answer r code p s) :=
  updStl_changes _

theorem refuse_changes (r : ResultCode) (code : Byte) : ChangesOnly [.stl] s (refuse r code s) :=
  updStl_changes _

/-- The answer is in the buffer, with the request code first, and the request is cleared (R173, R176). -/
theorem answer_answered (r : ResultCode) (code : Byte) (p : List Byte) : Answered r code p s (answer r code p s) := rfl

/-- A request ready to be taken is acted on by its entry (R173). -/
theorem takeRequest_of_taking {code : Byte} {p : List Byte} (act : List Byte → State → State) (h : Taking code p s) :
    takeRequest code act s = act p s := by
  obtain ⟨r, h1, h2, h3, h4, rfl⟩ := h
  subst h3
  simp [takeRequest, h1, h2, h4]

/-- All that a taking can do: nothing, BAD_LENGTH, or the request's own entry on its payload (R173; log entry 4). -/
theorem takeRequest_cases (code : Byte) (act : List Byte → State → State) (s : State) :
    takeRequest code act s = s ∨ takeRequest code act s = refuse .badLength code s ∨
      ∃ p, Taking code p s ∧ takeRequest code act s = act p s := by
  unfold takeRequest
  split
  · rename_i r h
    split
    · rename_i hc
      split
      · rename_i hl
        exact .inr (.inr ⟨r.payload, ⟨r, h, hc.1, hc.2, hl, rfl⟩, rfl⟩)
      · exact .inr (.inl rfl)
    · exact .inl rfl
  · exact .inl rfl

end Sys2Proof.Machine
end

