-- ==== Sys2Proof/Laws/Commands.lean ====
section
/-! SUPPORT. Each command completes, and which blocks it may change: one lemma for each command, from the lemmas of
the shared operations. -/

namespace Sys2Proof.Machine

variable {s : State} {bs : List Block}

/-- The command completes, changing no block but those listed. -/
def CompletesWithin (bs : List Block) (c : Instr) (s : State) : Prop :=
  ∃ t, exec c s = .next t ∧ ChangesOnly bs s t

theorem CompletesWithin.mono {cs : List Block} {c : Instr} (h : CompletesWithin bs c s) (sub : bs ⊆ cs) :
    CompletesWithin cs c s :=
  h.imp fun _ k => ⟨k.1, k.2.mono sub⟩

/-- What a request row may change, from what its own entry may change. -/
theorem takeRequest_changes {code : Byte} {act : List Byte → State → State}
    (h : ∀ p, ChangesOnly (.stl :: bs) s (act p s)) : ChangesOnly (.stl :: bs) s (takeRequest code act s) := by
  rcases takeRequest_cases code act s with e | e | ⟨p, -, e⟩ <;> rw [e]
  · exact .refl _ _
  · exact (refuse_changes _ _).mono (by simp)
  · exact h p

/-! ### Rotation -/

theorem badEvent_changes (x : Ixm) : ChangesOnly [.ixm, .rct, .evq] s (badEvent x s) := by
  have h : ChangesOnly [.ixm, .rct, .evq] s
      (reportViolations x.violations (s.updIxm fun _ => { x with latched := x.latched || latches x })) :=
    ((updIxm_changes _).mono (by decide)).andThen (updRct_changes _) (by decide)
  exact .ite (h.andThen (offerLatching_changes _ _ _) (by decide)) h

theorem goodEvent_changes (now : Timer) : ChangesOnly [.ixm, .evq] s (goodEvent now s) := by
  have h : ChangesOnly [.ixm, .evq] s (s.updIxm (goodIndex now)) := (updIxm_changes _).mono (by decide)
  exact .ite (h.andThen (offer_changes _ _ _) (by decide)) h

theorem monitorIndex_changes (now : Timer) : ChangesOnly [.ixm, .rct, .evq] s (monitorIndex now s) := by
  unfold monitorIndex
  split
  · exact (updIxm_changes _).mono (by decide)
  · refine .andThen ?_ (offer_changes _ _ _) (by decide)
    exact (updIxm_changes _).mono (by decide)
  · exact badEvent_changes _
  · exact (goodEvent_changes _).mono (by decide)
  · exact (updIxm_changes _).mono (by decide)

/-- The blocks that a rotation event may reach. -/
def rotationBlocks : List Block :=
  .ixm :: driveBlocks

theorem qualifiedIndex_changes : ChangesOnly rotationBlocks s (qualifiedIndex s) := by
  unfold qualifiedIndex
  refine .andThen ?_ afterEvent_changes (by decide)
  have h : ChangesOnly rotationBlocks s
      (followSpindle (spindleOf s.ixm) (monitorIndex s.clock.rotationTimer (s.updIxm markTaken))) :=
    (((updIxm_changes _).mono (by decide)).andThen (monitorIndex_changes _) (by decide)).andThen
      (followSpindle_changes _) (by decide)
  exact .ite (h.andThen (takeMark_changes _) (by decide)) h

theorem indexQualified_within (n : Nat) : CompletesWithin rotationBlocks (.indexQualified n) s :=
  ⟨_, rfl, .ite qualifiedIndex_changes (.refl _ _)⟩

theorem startupWindowExpiry_within : CompletesWithin rotationBlocks .startupWindowExpiry s := by
  refine ⟨_, rfl, .ite ?_ (.refl _ _)⟩
  refine .andThen ?_ afterEvent_changes (by decide)
  exact ((badEvent_changes _).mono (by decide)).andThen (followSpindle_changes _) (by decide)

theorem closedWindowExpiry_within : CompletesWithin [.ixm] .closedWindowExpiry s :=
  ⟨_, rfl, .ite (updIxm_changes _) (.refl _ _)⟩

theorem openWindowExpiry_within : CompletesWithin rotationBlocks .openWindowExpiry s := by
  refine ⟨_, rfl, .ite ?_ (.refl _ _)⟩
  refine .andThen ?_ afterEvent_changes (by decide)
  refine .andThen ?_ takeLateExpiry_changes (by decide)
  exact ((badEvent_changes _).mono (by decide)).andThen (followSpindle_changes _) (by decide)

theorem resyncLimitExpiry_within : CompletesWithin rotationBlocks .resyncLimitExpiry s := by
  refine ⟨_, rfl, .ite ?_ (.refl _ _)⟩
  refine .andThen ?_ afterEvent_changes (by decide)
  refine .andThen ?_ (followSpindle_changes _) (by decide)
  refine .andThen ?_ (offer_changes _ _ _) (by decide)
  exact (updIxm_changes _).mono (by decide)

/-! ### The drive -/

/-- The blocks that an event of the sequencer and the end of the event may reach. -/
def sequencerBlocks : List Block :=
  .mcp :: .rdc :: grantBlocks

theorem seekFault_after : ChangesOnly sequencerBlocks s (afterEvent (seekFault s)) :=
  (seekFault_changes.mono (by decide)).andThen afterEvent_changes (by decide)

theorem enterIdle_changes : ChangesOnly [.dsq] s (enterIdle s) :=
  setDsqState_changes _

theorem completeSeek_changes : ChangesOnly grantBlocks s (completeSeek s) := by
  unfold completeSeek
  have h : ∀ f, ChangesOnly grantBlocks s (clearOperation (s.updDsq f)) := fun f =>
    ((updDsq_changes f).mono (by decide)).andThen (updDsq_changes _) (by decide)
  dsimp only
  split
  · refine .ite ?_ ((h _).trans (beginSettle_changes _))
    exact ((h _).trans (endUnpassed_changes _)).andThen enterIdle_changes (by decide)
  · exact (h _).andThen enterIdle_changes (by decide)

theorem resumeGrant_changes (g : Grant) : ChangesOnly (.rdc :: .vte :: grantBlocks) s (resumeGrant g s) := by
  have e : ChangesOnly (.rdc :: .vte :: grantBlocks) s (enterIdle (endUnpassed g s)) :=
    ((endUnpassed_changes g).mono (by decide)).andThen enterIdle_changes (by decide)
  unfold resumeGrant
  split
  · exact countPass_changes _
  · exact e
  · exact .ite e ((takeUpGrant_changes _).mono (by decide))

theorem completeRecalibrate_changes : ChangesOnly (.rdc :: .vte :: grantBlocks) s (completeRecalibrate s) := by
  unfold completeRecalibrate
  have h : ∀ f, ChangesOnly (.rdc :: .vte :: grantBlocks) s (clearOperation (s.updDsq f)) := fun f =>
    ((updDsq_changes f).mono (by decide)).andThen (updDsq_changes _) (by decide)
  dsimp only
  split
  · exact .ite ((h _).trans (resumeGrant_changes _)) ((h _).andThen enterIdle_changes (by decide))
  · exact (h _).andThen enterIdle_changes (by decide)

theorem seekComplete_within (b : Bool) : CompletesWithin driveBlocks (.seekComplete b) s := by
  refine ⟨_, rfl, .ite ?_ (.refl _ _)⟩
  split
  · exact (completeSeek_changes.mono (by decide)).andThen afterEvent_changes (by decide)
  · exact (completeRecalibrate_changes.mono (by decide)).andThen afterEvent_changes (by decide)
  · exact .refl _ _

theorem seekError_within : CompletesWithin sequencerBlocks .seekError s := by
  refine ⟨_, rfl, ?_⟩
  split
  · exact seekFault_after
  · exact seekFault_after
  · exact seekFault_after
  · exact .refl _ _

theorem seekTimeoutExpiry_within : CompletesWithin sequencerBlocks .seekTimeoutExpiry s :=
  ⟨_, rfl, .ite seekFault_after (.refl _ _)⟩

theorem recalibrateTimeoutExpiry_within : CompletesWithin sequencerBlocks .recalibrateTimeoutExpiry s :=
  ⟨_, rfl, .ite (((raiseFence_changes _ _).mono (by decide)).andThen afterEvent_changes (by decide)) (.refl _ _)⟩

theorem settleWaitEnd_within : CompletesWithin (.mcp :: grantBlocks) .settleWaitEnd s :=
  ⟨_, rfl, .ite ((endSettle_changes.mono (by decide)).andThen afterEvent_changes (by decide)) (.refl _ _)⟩

theorem restEnd_within : CompletesWithin (.mcp :: grantBlocks) .restEnd s :=
  ⟨_, rfl, .ite ((beginRecalibrate_changes.mono (by decide)).andThen afterEvent_changes (by decide)) (.refl _ _)⟩

theorem quietExpiry_within : CompletesWithin [.dsq] .quietExpiry s :=
  ⟨_, rfl, .ite (updDsq_changes _) (.refl _ _)⟩

theorem driveFaultAsserted_within (b : Bool) :
    CompletesWithin (.pins :: sequencerBlocks) (.driveFaultAsserted b) s := by
  refine ⟨_, rfl, ?_⟩
  have h : ∀ f, ChangesOnly (.pins :: sequencerBlocks) s (s.updPins f) := fun f => (updPins_changes f).mono (by decide)
  exact .ite (((h _).andThen (raiseFence_changes _ _) (by decide)).andThen afterEvent_changes (by decide)) (h _)

/-- The comparison of the select line reaches what a fence reaches (R20, R38). -/
theorem watchSelect_changes : ChangesOnly sequencerBlocks s (watchSelect s) :=
  .ite (((raiseFence_changes _ _).mono (by decide)).andThen afterEvent_changes (by decide)) (.refl _ _)

/-- Nothing is done where no contention is seen (R20). -/
theorem watchSelect_eq_self (h : contentionNow s = false) : watchSelect s = s :=
  if_neg (by simp [h])

theorem contentionSeen_within (held : Option Bool) :
    CompletesWithin (.pins :: sequencerBlocks) (.contentionSeen held) s := by
  refine ⟨_, rfl, .andThen ?_ watchSelect_changes (by decide)⟩
  exact (updPins_changes _).mono (by decide)

/-! ### The Read Channel -/

theorem tallyPass_changes (tr : Track) (i : Nat) (f : Tally → Tally) : ChangesOnly [.jbq] s (tallyPass tr i f s) :=
  .ite (updJbq_changes _) (updJob_changes _ _)

theorem takeHeader_changes (p : PassContext) (mark : Timer) (h : HeaderRead) :
    ChangesOnly sequencerBlocks s (takeHeader p mark h s) := by
  unfold takeHeader
  refine .ite (.refl _ _) (.ite ?_ (.ite seekFault_after (.ite ((updRdc_changes _).mono (by decide)) (.refl _ _))))
  exact .ite ((tallyPass_changes _ _ _).mono (by decide)) (.refl _ _)

theorem header_within (mark : Timer) (c h i ck : List (Fin 128)) (out : List Int) :
    CompletesWithin sequencerBlocks (.header mark c h i ck out) s := by
  refine ⟨_, rfl, ?_⟩
  split
  · exact takeHeader_changes _ _ _
  · exact .refl _ _

/-- The blocks that a seal may reach. -/
def sealBlocks : List Block :=
  [.dsq, .rdc, .cps, .jbq, .tks, .rct, .mcp]

theorem closeInPass_changes (i : Nat) : ChangesOnly [.rdc, .dsq] s (closeInPass i s) :=
  ((updRdc_changes _).mono (by decide)).andThen (updDsq_changes _) (by decide)

theorem deliverGood_changes (c : SealedCopy) : ChangesOnly sealBlocks s (deliverGood c s) := by
  unfold deliverGood
  dsimp only
  have f : ChangesOnly sealBlocks s (updFrame c.addr.track (Frame.sealGood (plainPass s.dsq) c.addr.sector c.words) s) :=
    (updFrame_changes _ _).mono (by decide)
  have e := ChangesOnly.ite (p := plainPass s.dsq = true) f (f.andThen (updEntry_changes c.addr.track
    (Entry.resolve c.addr.sector (.retryGood (copyCount s c.addr.track c.addr.sector) c.step c.passNo) c.step))
      (by decide))
  have k := (e.andThen (closeInPass_changes c.addr.sector) (by decide)).andThen (updCps_changes (freeSector c.addr))
    (by decide)
  exact .ite k (k.andThen (updJob_changes _ _) (by decide))

theorem markStarved_changes (tr : Track) : ChangesOnly [.jbq, .rct] s (markStarved tr s) := by
  unfold markStarved
  refine .ite ((updJbq_changes _).mono (by decide)) ?_
  refine .andThen ?_ (updEntry_changes _ _) (by decide)
  exact (updJob_changes _ _).mono (by decide)

theorem deliverBad_changes (c : SealedCopy) : ChangesOnly sealBlocks s (deliverBad c s) := by
  unfold deliverBad
  dsimp only
  have f : ChangesOnly sealBlocks s (updFrame c.addr.track (Frame.updSector c.addr.sector (recordBad c.words c.weight)) s) :=
    (updFrame_changes _ _).mono (by decide)
  have k := f.andThen (updCps_changes (placeCopy s.vte.copyLimit c)) (by decide)
  split
  · exact k.andThen (updRct_changes _) (by decide)
  · exact k.andThen (updRct_changes _) (by decide)
  · exact k.andThen (markStarved_changes _) (by decide)
  · exact k

theorem deliverCopy_changes (c : SealedCopy) : ChangesOnly sealBlocks s (deliverCopy c s) := by
  unfold deliverCopy
  dsimp only
  refine .andThen ?_ testHold_changes (by decide)
  have h := ((updRdc_changes (s := s) fun r => { r with lastDeviation := c.deviation, assembly := none }).mono
    (show _ ⊆ sealBlocks by decide)).andThen (tallyPass_changes c.addr.track c.addr.sector Tally.countCopy) (by decide)
  exact .ite (h.trans (deliverGood_changes _)) (h.trans (deliverBad_changes _))

theorem copySeal_within (d : List (Fin 32768)) (ck : List (Fin 128)) (out : List Int) :
    CompletesWithin sealBlocks (.copySeal d ck out) s := by
  refine ⟨_, rfl, ?_⟩
  split
  · exact deliverCopy_changes _
  · exact .refl _ _

theorem batchCompletion_within : CompletesWithin (.mcp :: .vte :: grantBlocks) .batchCompletion s := by
  refine ⟨_, rfl, ?_⟩
  split
  · exact ((completeBatch_changes _).mono (by decide)).andThen afterEvent_changes (by decide)
  · exact .refl _ _

theorem cooldownExpiry_within (c h : Nat) : CompletesWithin grantBlocks (.cooldownExpiry c h) s := by
  refine ⟨_, rfl, ?_⟩
  split
  · refine .ite ?_ (.refl _ _)
    refine .trans ?_ arbitrate_changes
    exact (updJob_changes _ _).mono (by decide)
  · exact .refl _ _

/-! ### The Machine Port -/

/-- The blocks that a motion of the machine may reach. -/
def portBlocks : List Block :=
  .mcp :: grantBlocks

theorem arbitrate_after {t : State} (h : ChangesOnly [.mcp] s t) : ChangesOnly portBlocks s (arbitrate t) :=
  (h.mono (by decide)).andThen arbitrate_changes (by decide)

theorem holdExpiry_within : CompletesWithin portBlocks .holdExpiry s :=
  ⟨_, rfl, .ite (arbitrate_after (updMcp_changes _)) (.refl _ _)⟩

theorem emulatedIndex_within : CompletesWithin [.mcp] .emulatedIndex s :=
  ⟨_, rfl, .ite (updMcp_changes _) (.refl _ _)⟩

theorem sectorPulse_within : CompletesWithin [.mcp] .sectorPulse s :=
  ⟨_, rfl, .ite (updMcp_changes _) (.refl _ _)⟩

theorem setTrack_changes (tr : Track) : ChangesOnly [.mcp] s (setTrack tr s) :=
  updMcp_changes _

theorem seek_within (c : BitVec 10) : CompletesWithin portBlocks (.seek c) s :=
  ⟨_, rfl, .ite (.ite (arbitrate_after ((setTrack_changes _).trans beginHold_changes))
    ((updMcp_changes _).mono (by decide))) (.refl _ _)⟩

theorem head_within (h : BitVec 4) : CompletesWithin portBlocks (.head h) s := by
  refine ⟨_, rfl, .ite (arbitrate_after ?_) (.refl _ _)⟩
  have t : ChangesOnly [.mcp] s (setTrack ⟨s.mcp.track.cyl, h.toNat⟩ s) := setTrack_changes _
  exact .ite (t.trans (updMcp_changes _)) (.ite (.ite t (t.trans beginHold_changes)) (t.trans testHold_changes))

theorem recalibrate_within : CompletesWithin portBlocks .recalibrate s :=
  ⟨_, rfl, .ite (arbitrate_after ((setTrack_changes _).trans beginHold_changes)) (.refl _ _)⟩

theorem read_within : CompletesWithin [.mcp, .tks] .read s := by
  refine ⟨_, rfl, .ite ?_ (.refl _ _)⟩
  unfold takeRead
  dsimp only
  have h := (updMcp_changes (s := s) fun m =>
    { m with gateTaken := true, activity := .reading (readAnswer (passingAddr s) s) }).mono
    (show _ ⊆ [Block.mcp, .tks] by decide)
  exact .ite (h.andThen (updTks_changes _) (by decide)) h

theorem write_within : CompletesWithin [.mcp] .write s :=
  ⟨_, rfl, .ite (.ite (updMcp_changes _) (updMcp_changes _)) (.refl _ _)⟩

theorem writeDataComplete_within (d : SectorData) : CompletesWithin [.mcp, .ovl, .evq] (.writeDataComplete d) s := by
  refine ⟨_, rfl, ?_⟩
  split
  · refine .ite ?_ (.refl _ _)
    have c : ChangesOnly [.mcp, .ovl, .evq] s (s.updMcp cutActivity) := (updMcp_changes _).mono (by decide)
    unfold storeWrite
    refine .ite (c.andThen (updOvl_changes _) (by decide)) (.ite (c.andThen (updOvl_changes _) (by decide)) ?_)
    refine .andThen ?_ (offer_changes _ _ _) (by decide)
    exact c.andThen (updMcp_changes _) (by decide)
  · exact .refl _ _

theorem faultClear_within : CompletesWithin [.mcp] .faultClear s :=
  ⟨_, rfl, .ite (updMcp_changes _) (.refl _ _)⟩

theorem unitSelect_within (b : Bool) : CompletesWithin [.pins, .mcp] (.unitSelect b) s := by
  refine ⟨_, rfl, ?_⟩
  have h := (updPins_changes (s := s) fun p => { p with unitSelect := b }).mono (show _ ⊆ [Block.pins, .mcp] by decide)
  exact .ite h (h.andThen (updMcp_changes _) (by decide))

/-! ### The Station Link and the attention line -/

theorem transferStart_within : CompletesWithin [.stl] .transferStart s := by
  refine ⟨_, rfl, ?_⟩
  split
  · exact updStl_changes _
  · exact .refl _ _

theorem requestCodeByte_within (c : Byte) : CompletesWithin [.stl] (.requestCodeByte c) s :=
  ⟨_, rfl, .ite (.ite (updStl_changes _) (updStl_changes _)) (.refl _ _)⟩

theorem frameComplete_within (l : Word) (p : List Byte) (c : Byte) : CompletesWithin [.stl] (.frameComplete l p c) s := by
  refine ⟨_, rfl, ?_⟩
  split
  · exact .ite (updStl_changes _) (.refl _ _)
  · exact .refl _ _

theorem selectRise_within : CompletesWithin [.stl] .selectRise s :=
  ⟨_, rfl, updStl_changes _⟩

theorem fetchFirstByte_within : CompletesWithin [.stl] .fetchFirstByte s :=
  ⟨_, rfl, .ite (updStl_changes _) (.refl _ _)⟩

theorem responseReleased_within : CompletesWithin [.stl] .responseReleased s :=
  ⟨_, rfl, .ite (updStl_changes _) (.refl _ _)⟩

theorem unknownRequest_within : CompletesWithin [.stl] .unknownRequest s := by
  refine ⟨_, rfl, ?_⟩
  split
  · exact .ite (refuse_changes _ _) (.refl _ _)
  · exact .refl _ _

theorem frameError_within : CompletesWithin [.stl] .frameError s := by
  refine ⟨_, rfl, ?_⟩
  split
  · exact .ite (refuse_changes _ _) (.refl _ _)
  · exact .refl _ _

theorem attentionPulseEnd_within : CompletesWithin [.evq] .attentionPulseEnd s :=
  ⟨_, rfl, .ite (updEvq_changes _) (.refl _ _)⟩

theorem attentionGapEnd_within : CompletesWithin [.evq] .attentionGapEnd s :=
  ⟨_, rfl, .ite (updEvq_changes _) (.refl _ _)⟩

/-! ### The requests that report -/

theorem status_within : CompletesWithin [.stl] .status s :=
  ⟨_, rfl, takeRequest_changes fun _ => answer_changes _ _ _⟩

theorem getEvents_within : CompletesWithin [.stl, .evq] .getEvents s := by
  refine ⟨_, rfl, takeRequest_changes fun p => ?_⟩
  unfold takeGetEvents
  refine .andThen ?_ (answer_changes _ _ _) (by decide)
  exact (updEvq_changes _).mono (by decide)

theorem getSnapshot_within : CompletesWithin [.stl, .evq] .getSnapshot s := by
  refine ⟨_, rfl, takeRequest_changes fun p => ?_⟩
  unfold takeGetSnapshot
  refine .andThen ?_ (answer_changes _ _ _) (by decide)
  exact (updEvq_changes _).mono (by decide)

theorem getStats_within : CompletesWithin [.stl] .getStats s :=
  ⟨_, rfl, takeRequest_changes fun _ => answer_changes _ _ _⟩

theorem clearStats_within : CompletesWithin [.stl, .rct] .clearStats s := by
  refine ⟨_, rfl, takeRequest_changes fun p => ?_⟩
  refine .andThen ?_ (answer_changes _ _ _) (by decide)
  exact (updRct_changes _).mono (by decide)

theorem listEntries_within : CompletesWithin [.stl] .listEntries s :=
  ⟨_, rfl, takeRequest_changes fun _ => answer_changes _ _ _⟩

theorem getEntry_within : CompletesWithin [.stl] .getEntry s := by
  refine ⟨_, rfl, takeRequest_changes fun p => ?_⟩
  unfold takeGetEntry
  split
  · exact answer_changes _ _ _
  · exact refuse_changes _ _

theorem markExported_within : CompletesWithin (.stl :: grantBlocks) .markExported s := by
  refine ⟨_, rfl, takeRequest_changes fun p => ?_⟩
  unfold takeMarkExported
  refine .ite ?_ ((refuse_changes _ _).mono (by decide))
  refine .andThen ?_ (answer_changes _ _ _) (by decide)
  refine .andThen ?_ arbitrate_changes (by decide)
  refine .andThen ?_ (updFrame_changes _ _) (by decide)
  exact (updEntry_changes _ _).mono (by decide)

theorem readSector_within : CompletesWithin [.stl, .tks] .readSector s := by
  refine ⟨_, rfl, takeRequest_changes fun p => ?_⟩
  unfold takeReadSector
  refine .ite ?_ ((refuse_changes _ _).mono (by decide))
  split
  · refine .andThen ?_ (answer_changes _ _ _) (by decide)
    exact (updTks_changes _).mono (by decide)
  · exact (refuse_changes _ _).mono (by decide)

theorem listFrames_within : CompletesWithin [.stl] .listFrames s :=
  ⟨_, rfl, takeRequest_changes fun _ => answer_changes _ _ _⟩

theorem listJobs_within : CompletesWithin [.stl] .listJobs s :=
  ⟨_, rfl, takeRequest_changes fun _ => answer_changes _ _ _⟩

theorem listOverlay_within : CompletesWithin [.stl] .listOverlay s :=
  ⟨_, rfl, takeRequest_changes fun _ => answer_changes _ _ _⟩

theorem readOverlay_within : CompletesWithin [.stl] .readOverlay s := by
  refine ⟨_, rfl, takeRequest_changes fun p => ?_⟩
  unfold takeReadOverlay
  split
  · exact answer_changes _ _ _
  · exact refuse_changes _ _

theorem dropOverlay_within : CompletesWithin [.stl, .ovl] .dropOverlay s := by
  refine ⟨_, rfl, takeRequest_changes fun p => ?_⟩
  unfold takeDropOverlay
  split
  · refine .andThen ?_ (answer_changes _ _ _) (by decide)
    exact (updOvl_changes _).mono (by decide)
  · exact (refuse_changes _ _).mono (by decide)

theorem getSettings_within : CompletesWithin [.stl] .getSettings s :=
  ⟨_, rfl, takeRequest_changes fun _ => answer_changes _ _ _⟩

/-! ### The requests that store settings -/

theorem setGeometry_within : CompletesWithin (.stl :: .geom :: portBlocks) .setGeometry s := by
  refine ⟨_, rfl, takeRequest_changes fun p => ?_⟩
  unfold takeSetGeometry
  refine .ite (.ite ?_ ((refuse_changes _ _).mono (by decide))) ((refuse_changes _ _).mono (by decide))
  refine .andThen ?_ (answer_changes _ _ _) (by decide)
  unfold storeGeometry
  refine .andThen ?_ arbitrate_changes (by decide)
  have h : ∀ f g, ChangesOnly (.stl :: .geom :: portBlocks) s ((s.updGeom f).updDsq g) := fun f g =>
    ((updGeom_changes f).mono (by decide)).andThen (updDsq_changes g) (by decide)
  unfold portNewGeometry startPort
  split
  · exact (h _ _).andThen (setTrack_changes _) (by decide)
  · exact (h _ _).andThen (setTrack_changes _) (by decide)
  · exact ((h _ _).andThen (updMcp_changes _) (by decide)).andThen beginHold_changes (by decide)

theorem setRotation_within : CompletesWithin (.stl :: .ixm :: sequencerBlocks) .setRotation s := by
  refine ⟨_, rfl, takeRequest_changes fun p => ?_⟩
  unfold takeSetRotation
  refine .ite ?_ ((refuse_changes _ _).mono (by decide))
  refine .andThen ?_ (answer_changes _ _ _) (by decide)
  unfold storeRotation
  refine .andThen ?_ afterEvent_changes (by decide)
  refine .andThen ?_ (followSpindle_changes _) (by decide)
  exact (updIxm_changes _).mono (by decide)

theorem setRead_within : CompletesWithin [.stl, .rdc] .setRead s := by
  refine ⟨_, rfl, takeRequest_changes fun p => ?_⟩
  unfold takeSetRead
  refine .andThen ?_ (answer_changes _ _ _) (by decide)
  exact (updRdc_changes _).mono (by decide)

theorem setVote_within : CompletesWithin [.stl, .vte, .cps] .setVote s := by
  refine ⟨_, rfl, takeRequest_changes fun p => ?_⟩
  unfold takeSetVote storeVote
  refine .andThen ?_ (answer_changes _ _ _) (by decide)
  refine .andThen ?_ (updCps_changes _) (by decide)
  exact (updVte_changes _).mono (by decide)

theorem setLadderStep_within : CompletesWithin [.stl, .jbq] .setLadderStep s := by
  refine ⟨_, rfl, takeRequest_changes fun p => ?_⟩
  unfold takeSetLadderStep
  refine .ite ?_ ((refuse_changes _ _).mono (by decide))
  refine .andThen ?_ (answer_changes _ _ _) (by decide)
  exact (updJbq_changes _).mono (by decide)

theorem setLadderShape_within : CompletesWithin [.stl, .jbq] .setLadderShape s := by
  refine ⟨_, rfl, takeRequest_changes fun p => ?_⟩
  unfold takeSetLadderShape
  refine .andThen ?_ (answer_changes _ _ _) (by decide)
  exact (updJbq_changes _).mono (by decide)

theorem setDrive_within : CompletesWithin (.stl :: grantBlocks) .setDrive s := by
  refine ⟨_, rfl, takeRequest_changes fun p => ?_⟩
  unfold takeSetDrive
  refine .andThen ?_ (answer_changes _ _ _) (by decide)
  refine .andThen ?_ arbitrate_changes (by decide)
  exact (updDsq_changes _).mono (by decide)

theorem setPort_within : CompletesWithin (.stl :: portBlocks) .setPort s := by
  refine ⟨_, rfl, takeRequest_changes fun p => ?_⟩
  unfold takeSetPort storePort
  refine .andThen ?_ (answer_changes _ _ _) (by decide)
  refine .andThen ?_ arbitrate_changes (by decide)
  refine .andThen ?_ (updTks_changes _) (by decide)
  refine .andThen ?_ (updMcp_changes _) (by decide)
  exact (updEvq_changes _).mono (by decide)

/-! ### The job requests -/

theorem createKeptJob_changes (tr : Track) (f : Frame) (n : Nat) :
    ChangesOnly [.jbq, .tks, .rct, .evq] s (createKeptJob tr f n s) := by
  unfold createKeptJob
  dsimp only
  have h : ∀ j, ChangesOnly [.jbq, .tks, .rct, .evq] s (updFrame tr Frame.reopen (addJob j s)) := fun j =>
    ChangesOnly.andThen ((updJbq_changes _).mono (by decide)) (updFrame_changes _ _) (by decide)
  split
  · exact (h _).andThen (updEntry_changes _ _) (by decide)
  · exact (h _).andThen (createEntry_changes _ _ _ _ _ _) (by decide)

theorem createFramelessJob_changes (tr : Track) (n : Nat) : ChangesOnly [.jbq, .rct] s (createFramelessJob tr n s) := by
  unfold createFramelessJob
  refine .andThen ?_ (updEntry_changes _ _) (by decide)
  exact (updJbq_changes _).mono (by decide)

/-- The blocks that a job request may reach. -/
def jobRequestBlocks : List Block :=
  .stl :: portBlocks

theorem queueAnswer_changes (n : Nat) (tr : Track) : ChangesOnly [.stl] s (queueAnswer n tr s) :=
  answer_changes _ _ _

theorem queueTrack_within : CompletesWithin jobRequestBlocks .queueTrack s := by
  refine ⟨_, rfl, takeRequest_changes fun p => ?_⟩
  have no : ∀ r, ChangesOnly jobRequestBlocks s (refuse r 0x20 s) := fun r => (refuse_changes _ _).mono (by decide)
  have after : ∀ (t : State) n tr, ChangesOnly jobRequestBlocks s t →
      ChangesOnly jobRequestBlocks s (queueAnswer n tr (afterJobs t)) := fun t n tr h =>
    (h.andThen afterJobs_changes (by decide)).andThen (queueAnswer_changes _ _) (by decide)
  unfold takeQueueTrack
  refine .ite ?_ (no _)
  split
  · unfold mergeJob
    refine .ite ((queueAnswer_changes _ _).mono (by decide)) (.ite (no _) (after _ _ _ ?_))
    refine .andThen ?_ (updEntry_changes _ _) (by decide)
    exact (updJob_changes _ _).mono (by decide)
  · refine .ite (no _) ?_
    split
    · unfold queueKept
      refine .ite (no _) (.ite ?_ (after _ _ _ ((createKeptJob_changes _ _ _).mono (by decide))))
      refine .andThen ?_ (answer_changes _ _ _) (by decide)
      exact (offer_changes _ _ _).mono (by decide)
    · exact after _ _ _ ((createFramelessJob_changes _ _).mono (by decide))

theorem retryTrack_within : CompletesWithin jobRequestBlocks .retryTrack s := by
  refine ⟨_, rfl, takeRequest_changes fun p => ?_⟩
  have no : ∀ r, ChangesOnly jobRequestBlocks s (refuse r 0x21 s) := fun r => (refuse_changes _ _).mono (by decide)
  unfold takeRetryTrack
  refine .ite ?_ (no _)
  split
  · refine .ite (.ite (no _) ?_) (no _)
    refine .andThen ?_ (answer_changes _ _ _) (by decide)
    refine .andThen ?_ afterJobs_changes (by decide)
    exact (createKeptJob_changes _ _ _).mono (by decide)
  · exact no _
  · exact no _

theorem cancelGrant_changes (tr : Track) : ChangesOnly [.dsq, .rdc, .vte] s (cancelGrant tr s) := by
  unfold cancelGrant
  split
  · refine .ite ?_ (.refl _ _)
    have h : ChangesOnly [.dsq, .rdc, .vte] s (setGrant none (endPassContext s)) :=
      ChangesOnly.andThen ((updRdc_changes _).mono (by decide)) (setGrant_changes none) (by decide)
    have v := ChangesOnly.ite (p := (‹Grant› : Grant).phase = .voting)
      (h.andThen (updVte_changes fun v => { v with batch := none }) (by decide)) h
    exact .ite (v.andThen (setDsqState_changes _) (by decide)) v
  · exact .refl _ _

theorem cancelJob_within : CompletesWithin (.stl :: driveBlocks) .cancelJob s := by
  refine ⟨_, rfl, takeRequest_changes fun p => ?_⟩
  have no : ∀ r, ChangesOnly (.stl :: driveBlocks) s (refuse r 0x22 s) := fun r => (refuse_changes _ _).mono (by decide)
  unfold takeCancelJob
  refine .ite ?_ (no _)
  split
  · refine .andThen ?_ (answer_changes _ _ _) (by decide)
    unfold cancelJob
    refine .andThen ?_ afterJobs_changes (by decide)
    exact ((cancelGrant_changes _).mono (by decide)).andThen (endJob_changes _ _ _ _) (by decide)
  · exact no _

/-! ### The control requests -/

theorem clearFence_within : CompletesWithin (.stl :: sequencerBlocks) .clearFence s := by
  refine ⟨_, rfl, takeRequest_changes fun p => ?_⟩
  unfold takeClearFence
  refine .ite ((refuse_changes _ _).mono (by decide)) ?_
  split
  · refine .andThen ?_ (answer_changes _ _ _) (by decide)
    unfold clearFence
    dsimp only
    have h : ∀ f k n, ChangesOnly (.stl :: sequencerBlocks) s (offer k none n (s.updDsq f)) := fun f k n =>
      ((updDsq_changes f).mono (by decide)).andThen (offer_changes _ _ _) (by decide)
    exact .ite ((((h _ _ _).andThen beginRecalibrate_changes (by decide)).andThen afterEvent_changes (by decide)).andThen
      watchSelect_changes (by decide)) (h _ _ _)
  · exact (answer_changes _ _ _).mono (by decide)

theorem restDrive_within : CompletesWithin (.stl :: sequencerBlocks) .restDrive s := by
  refine ⟨_, rfl, takeRequest_changes fun p => ?_⟩
  unfold takeRestDrive
  refine .ite ((refuse_changes _ _).mono (by decide)) ?_
  refine .andThen ?_ (answer_changes _ _ _) (by decide)
  unfold restDrive
  refine .andThen ?_ afterEvent_changes (by decide)
  have h : ∀ f, ChangesOnly (.stl :: sequencerBlocks) s ((abandonWork s).updDsq f) := fun f =>
    (abandonWork_changes.mono (by decide)).andThen (updDsq_changes f) (by decide)
  exact .ite ((h _).andThen beginRecalibrate_changes (by decide)) (h _)

theorem bypassOn_within : CompletesWithin (.stl :: sequencerBlocks) .bypassOn s := by
  refine ⟨_, rfl, takeRequest_changes fun p => .ite ?_ (.refl _ _)⟩
  unfold takeBypassOn
  refine .andThen (.ite (.refl _ _) ?_) (answer_changes _ _ _) (by decide)
  unfold bypassOn
  refine .andThen ?_ (updMcp_changes _) (by decide)
  exact (abandonWork_changes.mono (by decide)).andThen (updDsq_changes _) (by decide)

theorem bypassOff_within : CompletesWithin (.stl :: sequencerBlocks) .bypassOff s := by
  refine ⟨_, rfl, takeRequest_changes fun p => .ite (.refl _ _) ?_⟩
  unfold takeBypassOff
  refine .andThen (.ite ?_ (.refl _ _)) (answer_changes _ _ _) (by decide)
  refine .andThen ?_ arbitrate_changes (by decide)
  have d : ChangesOnly (.stl :: sequencerBlocks) s (reattachDrive s) := by
    unfold reattachDrive
    have h : ∀ f, ChangesOnly (.stl :: sequencerBlocks) s (s.updDsq f) := fun f => (updDsq_changes f).mono (by decide)
    exact .ite ((h _).andThen (setDsqState_changes _) (by decide))
      (.ite ((h _).andThen (raiseFence_changes _ _) (by decide))
        (.ite ((h _).andThen (raiseFence_changes _ _) (by decide)) ((h _).andThen beginRecalibrate_changes (by decide))))
  refine d.andThen (?_ : ChangesOnly [.mcp] _ _) (by decide)
  exact .ite ((updMcp_changes _).trans beginHold_changes) (updMcp_changes _)

theorem resetJobs_changes : ChangesOnly workBlocks s (resetJobs s) := by
  unfold resetJobs
  generalize s.jbq.jobs = js
  induction js generalizing s with
  | nil => exact .refl _ _
  | cons j js ih =>
    rw [List.foldl_cons]
    exact (endJob_changes _ _ _ j).trans (ih (s := endJob (.cause .cancelled) true true j s))

theorem softReset_within : CompletesWithin ([.stl, .ixm] ++ driveBlocks) .softReset s := by
  refine ⟨_, rfl, takeRequest_changes fun p => ?_⟩
  refine .andThen ?_ (answer_changes _ _ _) (by decide)
  unfold softReset
  refine .andThen ?_ (offer_changes _ _ _) (by decide)
  have h := resetJobs_changes (s := s)
  refine ⟨h.1, fun b hb => ?_⟩
  cases b with
  | clock => exact h.2 .clock (by decide)
  | pins => exact h.2 .pins (by decide)
  | geom => exact h.2 .geom (by decide)
  | ovl => exact h.2 .ovl (by decide)
  | _ => exact absurd (by decide) hb

/-! ### Power-on -/

/-- POWER_ON_RESET completes and keeps the waiting commands; it may change every block (R46). -/
theorem powerOnReset_completes : ∃ t, exec .powerOnReset s = .next t ∧ t.pending = s.pending := by
  have f : ∀ c, (raiseFence c (powerOn s) (powerOn s)).pending = s.pending := fun c =>
    (raiseFence_changes c (powerOn s)).1
  refine ⟨_, rfl, ?_⟩
  split
  · exact f _
  · split
    · exact f _
    · rfl

end Sys2Proof.Machine
end

