-- ==== Sys2Proof/Laws/Operations.lean ====
section
/-! SUPPORT. What the shared operations leave in the keyed collections, the copy lists, the queue and the link: one
lemma for each lookup after each operation, cited in place of unfolding. -/

namespace Sys2Proof.Machine

variable {s : State}

/-! ### Keyed lists -/

section Keyed

variable {α κ : Type} [DecidableEq κ] (key : α → κ)

theorem find_key_some {l : List α} {k : κ} {x : α} (h : l.find? (fun y => key y == k) = some x) : key x = k := by
  simpa using List.find?_some h

/-- The member under a key, after the members under it are changed in place. -/
theorem find_change_self (l : List α) (k : κ) (f : α → α) (hf : ∀ x, key (f x) = key x) :
    (l.map fun x => if key x = k then f x else x).find? (fun y => key y == k) =
      (l.find? fun y => key y == k).map f := by
  induction l with
  | nil => rfl
  | cons x l ih =>
    by_cases h : key x = k
    · simp [h, hf]
    · simp [h, ih]

/-- The member under another key stands. -/
theorem find_change_ne (l : List α) {k k' : κ} (f : α → α) (hf : ∀ x, key (f x) = key x) (h : k' ≠ k) :
    (l.map fun x => if key x = k then f x else x).find? (fun y => key y == k') = l.find? fun y => key y == k' := by
  induction l with
  | nil => rfl
  | cons x l ih =>
    by_cases hx : key x = k
    · have : key (f x) ≠ k' := by rw [hf, hx]; exact h.symm
      simp [hx, this, h.symm, ih]
    · by_cases hk : key x = k'
      · simp [hk, h]
      · simp [hx, hk, ih]

/-- No member under a key is left once they are removed. -/
theorem find_remove_self (l : List α) (k : κ) : (l.filter fun x => key x != k).find? (fun y => key y == k) = none := by
  simp [List.find?_eq_none]

/-- The member under another key stands through a removal. -/
theorem find_remove_ne (l : List α) {k k' : κ} (h : k' ≠ k) :
    (l.filter fun x => key x != k).find? (fun y => key y == k') = l.find? fun y => key y == k' := by
  induction l with
  | nil => rfl
  | cons x l ih =>
    by_cases hx : key x = k
    · have h' : key x ≠ k' := by rw [hx]; exact h.symm
      simp [hx, h.symm, ih]
    · by_cases hk : key x = k'
      · subst hk; simp [hx]
      · simp [hx, hk, ih]

/-- A member that joins the end under a new key is found there. -/
theorem find_join_self (l : List α) (x : α) (h : l.find? (fun y => key y == key x) = none) :
    (l ++ [x]).find? (fun y => key y == key x) = some x := by
  rw [List.find?_append, h]; simp

/-- Another key finds what it found. -/
theorem find_join_ne (l : List α) (x : α) {k : κ} (h : k ≠ key x) :
    (l ++ [x]).find? (fun y => key y == k) = l.find? fun y => key y == k := by
  rw [List.find?_append]; simp [h.symm]

/-- The members' keys stand when members are changed in place. -/
theorem keys_change (l : List α) (k : κ) (f : α → α) (hf : ∀ x, key (f x) = key x) :
    (l.map fun x => if key x = k then f x else x).map key = l.map key := by
  rw [List.map_map]
  refine List.map_congr_left fun x _ => ?_
  by_cases h : key x = k
  · simp [h, hf]
  · simp [h]

end Keyed

/-! ### Jobs, frames, entries, overlay entries -/

theorem jobOf_track {t : Track} {j : Job} (h : jobOf t s = some j) : j.track = t :=
  find_key_some Job.track h

theorem frameOf_track {t : Track} {f : Frame} (h : frameOf t s = some f) : f.track = t :=
  find_key_some Frame.track h

theorem entryOf_track {t : Track} {e : Entry} (h : entryOf t s = some e) : e.track = t :=
  find_key_some Entry.track h

theorem overlayOf_addr {a : SectorAddr} {e : OverlayEntry} (h : overlayOf a s = some e) : e.addr = a :=
  find_key_some OverlayEntry.addr h

theorem jobOf_updJob (t : Track) (f : Job → Job) (hf : ∀ j, (f j).track = j.track) :
    jobOf t (updJob t f s) = (jobOf t s).map f :=
  find_change_self Job.track _ _ _ hf

theorem jobOf_updJob_ne {t t' : Track} (f : Job → Job) (hf : ∀ j, (f j).track = j.track) (h : t' ≠ t) :
    jobOf t' (updJob t f s) = jobOf t' s :=
  find_change_ne Job.track _ _ hf h

theorem frameOf_updFrame (t : Track) (f : Frame → Frame) (hf : ∀ x, (f x).track = x.track) :
    frameOf t (updFrame t f s) = (frameOf t s).map f :=
  find_change_self Frame.track _ _ _ hf

theorem frameOf_updFrame_ne {t t' : Track} (f : Frame → Frame) (hf : ∀ x, (f x).track = x.track) (h : t' ≠ t) :
    frameOf t' (updFrame t f s) = frameOf t' s :=
  find_change_ne Frame.track _ _ hf h

theorem entryOf_updEntry (t : Track) (f : Entry → Entry) (hf : ∀ x, (f x).track = x.track) :
    entryOf t (updEntry t f s) = (entryOf t s).map f :=
  find_change_self Entry.track _ _ _ hf

theorem entryOf_updEntry_ne {t t' : Track} (f : Entry → Entry) (hf : ∀ x, (f x).track = x.track) (h : t' ≠ t) :
    entryOf t' (updEntry t f s) = entryOf t' s :=
  find_change_ne Entry.track _ _ hf h

theorem jobOf_removeJob (t : Track) : jobOf t (removeJob t s) = none :=
  find_remove_self Job.track _ _

theorem jobOf_removeJob_ne {t t' : Track} (h : t' ≠ t) : jobOf t' (removeJob t s) = jobOf t' s :=
  find_remove_ne Job.track _ h

theorem jobOf_addJob (j : Job) (h : jobOf j.track s = none) : jobOf j.track (addJob j s) = some j :=
  find_join_self Job.track _ _ h

theorem jobOf_addJob_ne (j : Job) {t : Track} (h : t ≠ j.track) : jobOf t (addJob j s) = jobOf t s :=
  find_join_ne Job.track _ _ h

theorem frameOf_releaseFrame (t : Track) : frameOf t (releaseFrame t s) = none :=
  find_remove_self Frame.track _ _

theorem frameOf_releaseFrame_ne {t t' : Track} (h : t' ≠ t) : frameOf t' (releaseFrame t s) = frameOf t' s :=
  find_remove_ne Frame.track _ h

/-- A lookup reads its own block alone. -/
theorem jobOf_congr {u : State} (t : Track) (h : u.jbq.jobs = s.jbq.jobs) : jobOf t u = jobOf t s := by
  unfold jobOf; rw [h]

theorem frameOf_congr {u : State} (t : Track) (h : u.tks.frames = s.tks.frames) : frameOf t u = frameOf t s := by
  unfold frameOf; rw [h]

theorem entryOf_congr {u : State} (t : Track) (h : u.rct.entries = s.rct.entries) : entryOf t u = entryOf t s := by
  unfold entryOf; rw [h]

theorem overlayOf_congr {u : State} (a : SectorAddr) (h : u.ovl.entries = s.ovl.entries) :
    overlayOf a u = overlayOf a s := by
  unfold overlayOf; rw [h]

/-! ### Copy lists (R61 to R66) -/

theorem copiesOf_freeSector (a : SectorAddr) (c : Cps) : copiesOf a (freeSector a c) = [] := by
  simp [copiesOf, copyListOf, freeSector, find_remove_self CopyList.addr]

theorem copiesOf_freeSector_ne {a b : SectorAddr} (c : Cps) (h : b ≠ a) :
    copiesOf b (freeSector a c) = copiesOf b c := by
  simp [copiesOf, copyListOf, freeSector, find_remove_ne CopyList.addr _ h]

theorem copiesOf_freeTrack (t : Track) (i : Nat) (c : Cps) : copiesOf ⟨t, i⟩ (freeTrack t c) = [] := by
  have : (freeTrack t c).lists.find? (fun l => l.addr == ⟨t, i⟩) = none := by
    simp only [freeTrack, List.find?_eq_none, List.mem_filter]
    rintro l ⟨-, h⟩ e
    simp only [beq_iff_eq] at e
    simp [e] at h
  simp [copiesOf, copyListOf, this]

/-- A job's end leaves no copy of its track (R66). -/
theorem copiesOf_endCopies (j : Job) (i : Nat) : copiesOf ⟨j.track, i⟩ (endCopies j s).cps = [] :=
  copiesOf_freeTrack _ _ _

theorem copiesOf_setCopies (a : SectorAddr) (f : CopyList → CopyList) (c : Cps) (hf : ∀ l, (f l).addr = l.addr) :
    copiesOf a (setCopies a f c) = ((copyListOf a c).map fun l => (f l).copies).getD [] := by
  simp only [copiesOf, copyListOf, setCopies, find_change_self CopyList.addr _ _ _ hf, Option.map_map]
  rfl

theorem isFresh_clearFresh (a : SectorAddr) (c : Cps) : isFresh a (clearFresh a c) = false := by
  simp only [isFresh, clearFresh, copyListOf, setCopies,
    find_change_self CopyList.addr _ _ (fun l => { l with fresh := false }) fun _ => rfl]
  cases List.find? (fun l => l.addr == a) c.lists <;> rfl

/-- A copy that joins its sector's list stands at its end, and the sector is fresh (R62, R63). -/
theorem copiesOf_appendCopy (x : SealedCopy) (c : Cps) :
    copiesOf x.addr (appendCopy x c) = copiesOf x.addr c ++ [x] ∧ isFresh x.addr (appendCopy x c) = true := by
  unfold appendCopy
  cases h : copyListOf x.addr c with
  | some l =>
    have e := find_change_self CopyList.addr c.lists x.addr (fun l => { l with copies := l.copies ++ [x], fresh := true })
      fun _ => rfl
    simp only [copyListOf] at h
    simp only [Option.isSome_some, if_true, copiesOf, isFresh, copyListOf, setCopies, e, h]
    simp
  | none =>
    have e := find_join_self CopyList.addr c.lists ⟨x.addr, [x], true⟩ h
    simp only [copyListOf] at h
    simp only [Option.isSome_none, Bool.false_eq_true, if_false, copiesOf, isFresh, copyListOf, e, h]
    simp

/-! ### The event queue (R195, R197) -/

/-- All that offering an event does to the records, the counter, OVERRUN and the snapshot. -/
theorem offer_cases (k : EventKind) (tr : Option Track) (n : Nat) (s : State) :
    (offer k tr n s).evq.counter = s.evq.counter + 1 ∧ (offer k tr n s).evq.snapshot = s.evq.snapshot ∧
      ((s.evq.records.length < 32 ∧ (offer k tr n s).evq.records = s.evq.records ++ [⟨s.evq.counter, k, tr, n⟩] ∧
          (offer k tr n s).evq.overrun = s.evq.overrun) ∨
        (32 ≤ s.evq.records.length ∧
          (offer k tr n s).evq = { s.evq with counter := s.evq.counter + 1, overrun := true })) := by
  by_cases h : s.evq.records.length < 32
  · have e : (offer k tr n s).evq = attentionForRecord s.mcp.attnPulse s.clock.rotationTimer
        { s.evq with records := s.evq.records ++ [⟨s.evq.counter, k, tr, n⟩], counter := s.evq.counter + 1 } :=
      if_pos h
    rw [e]
    unfold attentionForRecord
    split <;> exact ⟨rfl, rfl, .inl ⟨h, rfl, rfl⟩⟩
  · have e : (offer k tr n s).evq = { s.evq with counter := s.evq.counter + 1, overrun := true } := if_neg h
    rw [e]
    exact ⟨rfl, rfl, .inr ⟨Nat.le_of_not_lt h, rfl⟩⟩

/-- The records held stay at the front of the queue. -/
theorem offer_prefix (k : EventKind) (tr : Option Track) (n : Nat) (s : State) :
    s.evq.records <+: (offer k tr n s).evq.records := by
  rcases (offer_cases k tr n s).2.2 with ⟨-, h, -⟩ | ⟨-, h⟩ <;> rw [h]
  exact List.prefix_append _ _

/-- OVERRUN, once set, stands. -/
theorem offer_overrun (k : EventKind) (tr : Option Track) (n : Nat) (s : State) (h : s.evq.overrun = true) :
    (offer k tr n s).evq.overrun = true := by
  rcases (offer_cases k tr n s).2.2 with ⟨-, -, e⟩ | ⟨-, e⟩
  · rw [e, h]
  · rw [e]

/-! ### The clock (R1; log entry 1) -/

theorem advanceClock_cases (c : Clock) :
    (advanceClock c).rotationTimer = c.rotationTimer + 1 ∧
      ((c.subMs + 1 < 1000 ∧ (advanceClock c).uptime = c.uptime ∧ (advanceClock c).subMs = c.subMs + 1) ∨
        (1000 ≤ c.subMs + 1 ∧ (advanceClock c).uptime = c.uptime + 1 ∧ (advanceClock c).subMs = 0)) := by
  by_cases h : c.subMs + 1 < 1000
  · rw [show advanceClock c = _ from if_pos h]; exact ⟨rfl, .inl ⟨h, rfl, rfl⟩⟩
  · rw [show advanceClock c = _ from if_neg h]; exact ⟨rfl, .inr ⟨Nat.le_of_not_lt h, rfl, rfl⟩⟩

/-! ### The index line (R3, R17, R18; log entry 6) -/

theorem qualifies_iff (width asserted : Nat) (l : IndexLine) :
    l.qualifies width asserted = true ↔ asserted < l.taken ∧ min asserted l.since = l.restarted.getD width := by
  simp [IndexLine.qualifies]

/-- A pulse taken is no index again at the same moment (R3). -/
theorem qualifies_markTaken (width asserted : Nat) (x : Ixm) : (markTaken x).line.qualifies width asserted = false := by
  simp [markTaken, IndexLine.qualifies]

@[simp] theorem tick_restarted (l : IndexLine) : l.tick.restarted = none := rfl

@[simp] theorem restart_since (width : Nat) (l : IndexLine) : (l.restart width).since = l.since := rfl

@[simp] theorem restart_taken (width : Nat) (l : IndexLine) : (l.restart width).taken = l.taken := rfl

/-! ### Contention (R20, R37) -/

/-- Contention is seen exactly where another master holds the line against the level driven (R20). -/
theorem contentionNow_iff :
    contentionNow s = true ↔
      ∃ h, s.pins.selectHeld = some h ∧ s.dsq.state ≠ .detached ∧ (h = true ↔ s.dsq.state = .fenced) := by
  unfold contentionNow selectDriven
  cases hs : s.pins.selectHeld with
  | none => cases s.dsq.state <;> simp
  | some h => cases s.dsq.state <;> cases h <;> simp

/-- What the comparison of the select line can do: nothing, or a fence (R20, R37). -/
theorem watchSelect_cases (s : State) :
    (contentionNow s = false ∧ watchSelect s = s) ∨
      (contentionNow s = true ∧ watchSelect s = afterEvent (raiseFence .contention s s)) := by
  cases h : contentionNow s
  · exact .inl ⟨rfl, if_neg (by simp [h])⟩
  · exact .inr ⟨rfl, if_pos h⟩

/-! ### Bytes of a transfer (R169, R175) -/

theorem linkOutput_request (h : s.stl.transfer = .request ∨ s.stl.transfer = .discarded) (n : Nat) :
    linkOutput (n + 1) s = some (statusByteOf s) := by
  unfold linkOutput; rcases h with h | h <;> rw [h]

theorem linkOutput_fetch {held : Bool} (h : s.stl.transfer = .fetch held) (n : Nat) :
    linkOutput (n + 1) s = some ((s.stl.shifting[n]?).getD (statusByteOf s)) := by
  unfold linkOutput; rw [h]

/-! ### The position and what is last known of it (R22, R38) -/

@[simp] theorem Dsq.establish_position (p : Position) (d : Dsq) : (d.establish p).position = some p := rfl
@[simp] theorem Dsq.establish_lastPosition (p : Position) (d : Dsq) : (d.establish p).lastPosition = some p := rfl
@[simp] theorem Dsq.establish_state (p : Position) (d : Dsq) : (d.establish p).state = d.state := rfl
@[simp] theorem Dsq.establish_grant (p : Position) (d : Dsq) : (d.establish p).grant = d.grant := rfl
@[simp] theorem Dsq.establish_seekTarget (p : Position) (d : Dsq) : (d.establish p).seekTarget = d.seekTarget := rfl
@[simp] theorem Dsq.establish_set (p : Position) (d : Dsq) : (d.establish p).set = d.set := rfl

theorem lastKnown_of_known {d : Dsq} {p : Position} (h : d.position = some p) : lastKnown d = some p := by
  simp [lastKnown, h]

theorem lastKnown_of_unknown {d : Dsq} (h : d.position = none) : lastKnown d = d.lastPosition := by
  simp [lastKnown, h]

/-- A seek's end establishes the position with the cylinder sought. -/
theorem reachTarget_eq {d : Dsq} {p : Position} {c : Nat} (hp : d.position = some p) (hc : d.seekTarget = some c) :
    d.reachTarget = d.establish { p with cyl := c } := by
  simp [Dsq.reachTarget, hp, hc]

/-! ### A mark before the opening mark (R50; log entry 51) -/

theorem beforeOpening_iff (mark reference : Timer) :
    beforeOpening mark reference = true ↔ 2147483648 ≤ (mark - reference).toNat := by
  simp [beforeOpening, BitVec.msb_eq_decide]

theorem takeHeader_beforeOpening {p : PassContext} {mark : Timer} (h : HeaderRead)
    (b : beforeOpening mark p.reference = true) : takeHeader p mark h s = s :=
  if_pos b

/-! ### Outcomes at a job's end (R138) -/

theorem fallsWith_iff (j : Job) (o : OutcomeRec) : fallsWith j o = true ↔ FallsWith j o := by
  unfold fallsWith FallsWith
  split <;> rename_i h
  · cases hr : o.result <;> simp [h, OutcomeResult.isPending]
  · simp [h]

/-! ### Clamping (R177) -/

theorem clampNat_eq (lo hi x : Nat) (h : lo ≤ hi) : clampNat lo hi x = max lo (min hi x) := by
  unfold clampNat; split <;> [skip; split] <;> omega

theorem clampInt_eq (lo hi x : Int) (h : lo ≤ hi) : clampInt lo hi x = max lo (min hi x) := by
  unfold clampInt; split <;> [skip; split] <;> omega

/-! ### Arbitration and holds -/

/-- Nothing is granted while the drive is not IDLE, the spindle not RUNNING, or a batch runs (R25, R72). -/
theorem arbitrate_eq_self (h : s.dsq.state ≠ .idle ∨ spindleOf s.ixm ≠ .running ∨ s.vte.batch.isSome) :
    arbitrate s = s := by
  refine if_neg fun ⟨a, b, c⟩ => ?_
  rcases h with h | h | h
  · exact h a
  · exact h b
  · simp [c] at h

/-- Nothing is granted without a candidate. -/
theorem arbitrate_of_no_candidate (h : candidate s = none) : arbitrate s = s := by
  unfold arbitrate; split <;> [rw [h]; rfl]

/-- Otherwise the drive is granted to the first candidate (R25). -/
theorem arbitrate_of_candidate {c : Candidate} (h1 : s.dsq.state = .idle) (h2 : spindleOf s.ixm = .running)
    (h3 : s.vte.batch = none) (h : candidate s = some c) : arbitrate s = giveGrant c s := by
  rw [show arbitrate s = _ from if_pos ⟨h1, h2, h3⟩, h]

/-- A hold is tested only while the port is SEEKING (R153). -/
theorem testHold_eq_self (h : s.mcp.state ≠ .seeking) : testHold s = s :=
  if_neg fun k => h k.1

/-- What a test of the hold can do: nothing, or READY with the hold over (R153). -/
theorem testHold_cases (s : State) : testHold s = s ∨ (s.mcp.state = .seeking ∧ testHold s = s.updMcp enterReady) := by
  by_cases h : s.mcp.state = .seeking ∧ currentResolved s
  · exact .inr ⟨h.1, if_pos h⟩
  · exact .inl (if_neg h)

/-- The port follows nothing in DETACHED (R148). -/
theorem followReady_detached (h : s.mcp.state = .detached) : followReady s = s := by
  unfold followReady; rw [h]

/-- A port that stands as its readiness says stays where it is (R146, R147). -/
theorem followReady_eq_self (h : s.mcp.state = .notReady ↔ readyToServe s = false) : followReady s = s := by
  unfold followReady
  split
  · rfl
  · rename_i e; rw [if_neg (by rw [h.mp e]; simp)]
  · rename_i e
    refine if_pos ?_
    cases k : readyToServe s
    · exact absurd (h.mpr k) e
    · rfl

end Sys2Proof.Machine
end

