-- ==== Sys2Proof/WellFormed.lean ====
section
/-! DEFINITION. Which commands can be sent at all: the checks on operands that the types do not carry. -/

namespace Sys2Proof

/-- A command whose operands the spec allows: a request code is not 00h (R169), a request frame's payload has
its declared length (R171), and a job's track lies where a track can lie (R163, R190). -/
def Instr.wellFormed : Instr → Bool
  | .requestCodeByte code => code != 0
  | .frameComplete length payload _ => payload.length == length.toNat
  | .cooldownExpiry c h => decide (c < 1024) && decide (h < 16)
  | _ => true

end Sys2Proof
end

