-- ==== Sys2Proof/Laws/PerInstr.lean ====
section
/-! SUPPORT. The family Sendable: for each command, exactly which operands make it well formed. -/

namespace Sys2Proof.Laws.Sendable

-- One lemma at a time: all wait for the equations of Instr.wellFormed.
set_option Elab.async false

/-- What well-formedness asks of a command, said without the check: a request code other than 00h, a payload of its
declared length, and a track within 0..1023 and 0..15; of any other command nothing. -/
def Statement (i : Instr) : Prop :=
  i.wellFormed = true ↔
    (∀ code, i = .requestCodeByte code → code ≠ 0) ∧
    (∀ length payload check, i = .frameComplete length payload check → payload.length = length.toNat) ∧
    ∀ c h, i = .cooldownExpiry c h → c < 1024 ∧ h < 16

theorem powerOnReset : Statement .powerOnReset := by
  simp [Statement, Instr.wellFormed]

theorem indexQualified (asserted : Nat) : Statement (.indexQualified asserted) := by
  simp [Statement, Instr.wellFormed]

theorem startupWindowExpiry : Statement .startupWindowExpiry := by
  simp [Statement, Instr.wellFormed]

theorem closedWindowExpiry : Statement .closedWindowExpiry := by
  simp [Statement, Instr.wellFormed]

theorem openWindowExpiry : Statement .openWindowExpiry := by
  simp [Statement, Instr.wellFormed]

theorem resyncLimitExpiry : Statement .resyncLimitExpiry := by
  simp [Statement, Instr.wellFormed]

theorem seekComplete (current : Bool) : Statement (.seekComplete current) := by
  simp [Statement, Instr.wellFormed]

theorem seekError : Statement .seekError := by
  simp [Statement, Instr.wellFormed]

theorem seekTimeoutExpiry : Statement .seekTimeoutExpiry := by
  simp [Statement, Instr.wellFormed]

theorem recalibrateTimeoutExpiry : Statement .recalibrateTimeoutExpiry := by
  simp [Statement, Instr.wellFormed]

theorem settleWaitEnd : Statement .settleWaitEnd := by
  simp [Statement, Instr.wellFormed]

theorem restEnd : Statement .restEnd := by
  simp [Statement, Instr.wellFormed]

theorem quietExpiry : Statement .quietExpiry := by
  simp [Statement, Instr.wellFormed]

theorem driveFaultAsserted (line : Bool) : Statement (.driveFaultAsserted line) := by
  simp [Statement, Instr.wellFormed]

theorem contentionSeen (held : Option Bool) : Statement (.contentionSeen held) := by
  simp [Statement, Instr.wellFormed]

theorem header (markTime : Timer) (cylinder head sector check : List (Fin 128)) (outside : List Int) :
    Statement (.header markTime cylinder head sector check outside) := by
  simp [Statement, Instr.wellFormed]

theorem copySeal (data : List (Fin 32768)) (check : List (Fin 128)) (outside : List Int) :
    Statement (.copySeal data check outside) := by
  simp [Statement, Instr.wellFormed]

theorem batchCompletion : Statement .batchCompletion := by
  simp [Statement, Instr.wellFormed]

theorem cooldownExpiry (cylinder : Nat) (head : Nat) : Statement (.cooldownExpiry cylinder head) := by
  simp [Statement, Instr.wellFormed]

theorem holdExpiry : Statement .holdExpiry := by
  simp [Statement, Instr.wellFormed]

theorem emulatedIndex : Statement .emulatedIndex := by
  simp [Statement, Instr.wellFormed]

theorem sectorPulse : Statement .sectorPulse := by
  simp [Statement, Instr.wellFormed]

theorem seek (cylinder : BitVec 10) : Statement (.seek cylinder) := by
  simp [Statement, Instr.wellFormed]

theorem head (number : BitVec 4) : Statement (.head number) := by
  simp [Statement, Instr.wellFormed]

theorem recalibrate : Statement .recalibrate := by
  simp [Statement, Instr.wellFormed]

theorem read : Statement .read := by
  simp [Statement, Instr.wellFormed]

theorem write : Statement .write := by
  simp [Statement, Instr.wellFormed]

theorem writeDataComplete (data : SectorData) : Statement (.writeDataComplete data) := by
  simp [Statement, Instr.wellFormed]

theorem faultClear : Statement .faultClear := by
  simp [Statement, Instr.wellFormed]

theorem transferStart : Statement .transferStart := by
  simp [Statement, Instr.wellFormed]

theorem requestCodeByte (code : Byte) : Statement (.requestCodeByte code) := by
  simp [Statement, Instr.wellFormed]

theorem frameComplete (length : Word) (payload : List Byte) (check : Byte) : Statement (.frameComplete length payload check) := by
  simp [Statement, Instr.wellFormed]

theorem selectRise : Statement .selectRise := by
  simp [Statement, Instr.wellFormed]

theorem fetchFirstByte : Statement .fetchFirstByte := by
  simp [Statement, Instr.wellFormed]

theorem responseReleased : Statement .responseReleased := by
  simp [Statement, Instr.wellFormed]

theorem unknownRequest : Statement .unknownRequest := by
  simp [Statement, Instr.wellFormed]

theorem status : Statement .status := by
  simp [Statement, Instr.wellFormed]

theorem getEvents : Statement .getEvents := by
  simp [Statement, Instr.wellFormed]

theorem getSnapshot : Statement .getSnapshot := by
  simp [Statement, Instr.wellFormed]

theorem getStats : Statement .getStats := by
  simp [Statement, Instr.wellFormed]

theorem clearStats : Statement .clearStats := by
  simp [Statement, Instr.wellFormed]

theorem listEntries : Statement .listEntries := by
  simp [Statement, Instr.wellFormed]

theorem getEntry : Statement .getEntry := by
  simp [Statement, Instr.wellFormed]

theorem markExported : Statement .markExported := by
  simp [Statement, Instr.wellFormed]

theorem readSector : Statement .readSector := by
  simp [Statement, Instr.wellFormed]

theorem listFrames : Statement .listFrames := by
  simp [Statement, Instr.wellFormed]

theorem queueTrack : Statement .queueTrack := by
  simp [Statement, Instr.wellFormed]

theorem retryTrack : Statement .retryTrack := by
  simp [Statement, Instr.wellFormed]

theorem cancelJob : Statement .cancelJob := by
  simp [Statement, Instr.wellFormed]

theorem listJobs : Statement .listJobs := by
  simp [Statement, Instr.wellFormed]

theorem listOverlay : Statement .listOverlay := by
  simp [Statement, Instr.wellFormed]

theorem readOverlay : Statement .readOverlay := by
  simp [Statement, Instr.wellFormed]

theorem dropOverlay : Statement .dropOverlay := by
  simp [Statement, Instr.wellFormed]

theorem setGeometry : Statement .setGeometry := by
  simp [Statement, Instr.wellFormed]

theorem setRotation : Statement .setRotation := by
  simp [Statement, Instr.wellFormed]

theorem setRead : Statement .setRead := by
  simp [Statement, Instr.wellFormed]

theorem setVote : Statement .setVote := by
  simp [Statement, Instr.wellFormed]

theorem setLadderStep : Statement .setLadderStep := by
  simp [Statement, Instr.wellFormed]

theorem setLadderShape : Statement .setLadderShape := by
  simp [Statement, Instr.wellFormed]

theorem setDrive : Statement .setDrive := by
  simp [Statement, Instr.wellFormed]

theorem setPort : Statement .setPort := by
  simp [Statement, Instr.wellFormed]

theorem getSettings : Statement .getSettings := by
  simp [Statement, Instr.wellFormed]

theorem clearFence : Statement .clearFence := by
  simp [Statement, Instr.wellFormed]

theorem restDrive : Statement .restDrive := by
  simp [Statement, Instr.wellFormed]

theorem bypassOn : Statement .bypassOn := by
  simp [Statement, Instr.wellFormed]

theorem bypassOff : Statement .bypassOff := by
  simp [Statement, Instr.wellFormed]

theorem softReset : Statement .softReset := by
  simp [Statement, Instr.wellFormed]

theorem attentionPulseEnd : Statement .attentionPulseEnd := by
  simp [Statement, Instr.wellFormed]

theorem attentionGapEnd : Statement .attentionGapEnd := by
  simp [Statement, Instr.wellFormed]

theorem frameError : Statement .frameError := by
  simp [Statement, Instr.wellFormed]

theorem unitSelect (active : Bool) : Statement (.unitSelect active) := by
  simp [Statement, Instr.wellFormed]

end Sys2Proof.Laws.Sendable
end

