-- ==== Sys2Proof/Tests/Slice0.lean ====
section
/-! SUPPORT. The model's own tests: the refusals of Instr.wellFormed, the worked values of spec/, and for every
obligation with hypotheses a concrete state and operands that meet them. -/

namespace Sys2Proof.Tests

open Sys2Proof Sys2Proof.Machine

-- One theorem at a time: each waits for the kernel on those before it.
set_option Elab.async false

/-! ### Small states -/

/-- The state a command leaves. -/
def after (c : Instr) (s : State) : State :=
  match exec c s with
  | .next t => t
  | _ => s

/-- 256 words of zeros. -/
def zeros : SectorData :=
  ⟨List.replicate 256 0, List.length_replicate⟩

/-- A request in progress, intact, with its code's payload. -/
def requesting (code : Byte) (p : List Byte) (s : State) : State :=
  { s with stl := { s.stl with request := some ⟨code, p.length, p, 0, 0⟩ } }

/-- The result and payload of the response held. -/
def reply (s : State) : Option (ResultCode × List Byte) :=
  s.stl.response.map fun r => (r.result, r.payload)

/-- The spindle RUNNING, the drive IDLE at 0/0, the port READY and selected. -/
def running : State :=
  { State.reset with
    pins := ⟨false, none, true⟩
    ixm := ⟨.closed, some 0, some ⟨0, 16334⟩, 0, false, 16667, ⟨16667, 20, 3, 3, 2, 4⟩, ⟨100000, 100000, none⟩⟩
    dsq := { State.reset.dsq with state := .idle, position := some ⟨0, 0, 0⟩, lastPosition := some ⟨0, 0, 0⟩ }
    mcp := { State.reset.mcp with state := .ready } }

/-- The index line with no index taken and no restart in the last 100 ms. -/
def settled (s : State) : State :=
  { s with ixm := { s.ixm with line := ⟨100000, 100000, none⟩ } }

/-- The spindle UNSTABLE. -/
def unstable (s : State) : State :=
  { s with ixm := { s.ixm with violations := 3, latched := true } }

/-- The rotation timer and the uptime counter at given times. -/
def atTime (us ms : Nat) (s : State) : State :=
  { s with clock := ⟨BitVec.ofNat 32 us, BitVec.ofNat 32 ms, 0⟩ }

/-- The sequencer in a state, with an operation expiry. -/
def driveIn (st : DsqState) (g : Option Grant) (target : Option Nat) (e : Option Expiry) (s : State) : State :=
  { s with dsq := { s.dsq with state := st, grant := g, seekTarget := target, expiry := e } }

/-- A grant over sectors 0 and 1. -/
def grantOf (k : GrantKind) (t : Track) (ph : GrantPhase) : Grant :=
  ⟨k, t, 0, 0, if k = .jobPass then 1 else 0, [0, 1], 1, false, 0, ph, ph != .approach, .retake⟩

/-- A MACHINE job that owns its frame, with two open sectors. -/
def jobOn (t : Track) (st : JobState) : Job :=
  ⟨t, .machine, st, true, [⟨0, 0, 0, none⟩, ⟨1, 0, 0, none⟩], 1, 1, false, 0, 0, 1, none, false⟩

/-- A frame with sectors 0 and 1 EMPTY and OPEN, the others GOOD. -/
def frameOn (t : Track) : Frame :=
  ⟨t, [.empty, .opened ⟨zeros, 1⟩ 5] ++ List.replicate 18 (.good ⟨zeros, 0⟩), false⟩

/-- A frame with sectors 0 and 1 FAILED, the others GOOD. -/
def failedFrame (t : Track) : Frame :=
  ⟨t, [.failed none, .failed (some (⟨zeros, 1⟩, 5))] ++ List.replicate 18 (.good ⟨zeros, 0⟩), true⟩

/-- A frame with every sector GOOD. -/
def goodFrame (t : Track) : Frame :=
  ⟨t, List.replicate 20 (.good ⟨zeros, 0⟩), false⟩

/-- An entry with two outcomes. -/
def entryOn (t : Track) (st : EntryState) (r : OutcomeResult) : Entry :=
  ⟨1, t, st, .machine, 1, 1, none, false, false, false, [⟨0, r⟩, ⟨1, r⟩]⟩

/-- Frames, jobs and entries put in place. -/
def holding (fs : List Frame) (js : List Job) (es : List Entry) (s : State) : State :=
  { s with
    tks := { s.tks with frames := fs }, jbq := { s.jbq with jobs := js }
    rct := { s.rct with entries := es, nextSequence := 1 + es.length } }

/-- A sealed copy of a sector with a weight. -/
def copyOf (a : SectorAddr) (w : Nat) (k : Word) : SealedCopy :=
  ⟨a, 1, 1, ⟨zeros, k⟩, 0, 0, w, false⟩

/-- The transitions of a word: one in the middle of each cell that reads 1. -/
def fluxOf (w : Word) : List (Fin 128) :=
  ((List.finRange 16).filter fun b => w.getMsbD b.val).map fun b => ⟨8 * b.val + 4, by omega⟩

/-- A header whose words read as given when nothing is shifted. -/
def header (mark : Timer) (cyl head sector check : Word) : Instr :=
  .header mark (fluxOf cyl) (fluxOf head) (fluxOf sector) (fluxOf check) []

/-- A pass in flight on 0/0, with sector 0 under assembly. -/
def passing : State :=
  { driveIn .reading (some (grantOf .jobPass ⟨0, 0⟩ .inPass)) none none
      (holding [frameOn ⟨0, 0⟩] [jobOn ⟨0, 0⟩ .active] [entryOn ⟨0, 0⟩ .opened .pending] running) with
    rdc := ⟨some ⟨⟨0, 0⟩, [0, 1], 0, 16667, 0, 1, 2, 120, 150, 20⟩, 0, some ⟨0, 0, 120, 0, 0⟩, 0, 120, 150⟩ }

/-! ### Commands that cannot be sent -/

theorem test_code_byte_00h_is_refused : (Instr.requestCodeByte 0).wellFormed = false := by decide

theorem test_payload_shorter_than_declared_is_refused :
    (Instr.frameComplete 2 [1] 0).wellFormed = false := by decide

theorem test_cooldown_of_no_track_is_refused :
    (Instr.cooldownExpiry 1024 0).wellFormed = false ∧ (Instr.cooldownExpiry 0 16).wellFormed = false := by decide

/-! ### The check functions (R49, R172) -/

/-- A last bit of 1 gives the polynomial; each place further back shifts it on. -/
theorem test_check16 :
    check16 [0, 0, 0] = 0 ∧ check16 [0, 0, 1] = 0x8005 ∧ check16 [0, 0, 2] = 0x800F ∧
      check16 [0, 0, 3] = 0x000A := by decide +kernel

theorem test_check8 : check8 [1] = 0x07 ∧ check8 [1, 0] = 0x15 ∧ check8 [1, 0, 0] = 0x6B := by decide +kernel

/-! ### Rotation (spec/01, the tolerance table and the worked sequence) -/

theorem test_tolerance_table :
    (⟨16667, 20, 3, 3, 2, 4⟩ : RotationSettings).slack = 333 ∧
      (⟨16667, 20, 3, 3, 2, 4⟩ : RotationSettings).longLimit = 66668 ∧
      (⟨8000, 1, 3, 3, 2, 4⟩ : RotationSettings).slack = 8 ∧
      (⟨50000, 100, 3, 3, 2, 4⟩ : RotationSettings).slack = 5000 := by decide

theorem test_worked_averages :
    averageAfter 16667 16700 2 = 16675 ∧ averageAfter 16675 16640 2 = 16667 ∧ averageAfter 16667 16680 2 = 16670 ∧
      averageAfter 16670 16660 2 = 16668 ∧ averageAfter 16668 16671 2 = 16668 := by decide

/-- The monitor before row 4 of the worked sequence: OPEN from 16,690, at 33,390. -/
def row4 : State :=
  { atTime 33390 33 running with
    ixm := { running.ixm with window := .opened, reference := some 16690, expiry := some ⟨16690, 17000⟩ } }

/-- Row 4: a good event at x = 16,700. -/
theorem test_index_good :
    (after (.indexQualified 4) row4).ixm.average = 16675 ∧
      (after (.indexQualified 4) row4).ixm.reference = some 33390 ∧
      (after (.indexQualified 3) row4).ixm = row4.ixm := by decide +kernel

/-- Row 11: an early index with the count at 2 latches UNSTABLE and queues SPINDLE_UNSTABLE with detail 3. -/
theorem test_index_early_latches :
    (after (.indexQualified 4) { atTime 12000 12 running with ixm := { running.ixm with violations := 2 } }).ixm.latched =
        true ∧
      (after (.indexQualified 4) { atTime 12000 12 running with ixm := { running.ixm with violations := 2 } }).evq.records =
        [⟨0, .spindleUnstable, none, 3⟩] := by decide +kernel

/-- One pulse is one index: sent again at once, or still asserted a microsecond later, it is none (R3). A pulse restarted
by SET_ROTATION qualifies at the width counted from there, and not from its edge (R17). -/
theorem test_index_qualifies_once :
    (after (.indexQualified 4) (after (.indexQualified 4) running)).ixm = (after (.indexQualified 4) running).ixm ∧
      (after (.indexQualified 5) (passTime (after (.indexQualified 4) running))).ixm.violations = 1 ∧
      (let s := passTime (after .setRotation (requesting 0x41 [65, 27, 20, 3, 3, 2, 6] running));
        (after (.indexQualified 6) s).ixm.window = .idle ∧
        (after (.indexQualified 9) (passTime (passTime (passTime (passTime (passTime s)))))).ixm.window = .startup) := by
  decide +kernel

/-- The second index from reset: RUNNING, SPINDLE_RUNNING, and the first recalibrate begins (R6, R23). -/
theorem test_index_starts_the_drive :
    let s := after (.indexQualified 4)
      (settled { after (.indexQualified 4) (settled State.reset) with clock := ⟨16690, 16, 0⟩ })
    s.ixm.window = .closed ∧ s.evq.records = [⟨0, .spindleRunning, none, 0⟩] ∧ s.dsq.state = .recalibrating ∧
      s.mcp.state = .seeking := by decide +kernel

theorem test_startup_expiry :
    (after .startupWindowExpiry
      { atTime 66668 66 (after (.indexQualified 4) (settled State.reset)) with pending := [] }).ixm.window = .idle := by
  decide +kernel

theorem test_closed_expiry : (after .closedWindowExpiry (atTime 16334 16 running)).ixm.window = .opened := by
  decide +kernel

/-- Row 9: the open window expires at 17,000 after the reference. -/
theorem test_open_expiry :
    (after .openWindowExpiry { row4 with clock := ⟨33690, 33, 0⟩ }).ixm.window = .resync ∧
      (after .openWindowExpiry { row4 with clock := ⟨33690, 33, 0⟩ }).ixm.violations = 1 ∧
      (after .openWindowExpiry { row4 with clock := ⟨33689, 33, 0⟩ }).ixm.window = .opened := by decide +kernel

theorem test_resync_expiry :
    let s := { atTime 66668 66 running with
      ixm := { running.ixm with window := .resync, expiry := some ⟨0, 66668⟩, violations := 1 } }
    (after .resyncLimitExpiry s).ixm.window = .idle ∧ (after .resyncLimitExpiry s).dsq.state = .offline ∧
      (after .resyncLimitExpiry s).mcp.state = .notReady ∧
      (after .resyncLimitExpiry s).evq.records = [⟨0, .spindleStopped, none, 1⟩] := by decide +kernel

/-! ### The drive (spec/02) -/

/-- A drive SEEKING cylinder 5 for a job pass. -/
def seeking : State :=
  driveIn .seeking (some (grantOf .jobPass ⟨5, 2⟩ .approach)) (some 5) (some ⟨0, 100⟩)
    (holding [frameOn ⟨5, 2⟩] [jobOn ⟨5, 2⟩ .active] [] running)

theorem test_seek_complete_settles :
    (after (.seekComplete true) seeking).dsq.state = .settling ∧
      (after (.seekComplete true) seeking).dsq.position = some ⟨5, 2, 0⟩ ∧
      (after (.seekComplete false) seeking).dsq.state = .seeking := by decide +kernel

theorem test_seek_error_recalibrates :
    (after .seekError seeking).dsq.state = .recalibrating ∧ (after .seekError seeking).dsq.faults = 1 ∧
      ((after .seekError seeking).dsq.grant.map Grant.retries) = some 1 ∧
      (after .seekError running).dsq.faults = 0 := by decide +kernel

theorem test_seek_timeout :
    (after .seekTimeoutExpiry (atTime 0 100 seeking)).dsq.faults = 1 ∧
      (after .seekTimeoutExpiry (atTime 0 99 seeking)).dsq.faults = 0 := by decide +kernel

theorem test_recalibrate_timeout_fences :
    let s := atTime 0 1000 (driveIn .recalibrating none none (some ⟨0, 1000⟩) running)
    (after .recalibrateTimeoutExpiry s).dsq.fence = some .recal ∧
      (after .recalibrateTimeoutExpiry s).evq.records = [⟨0, .driveFenced, none, 2⟩] ∧
      (after .recalibrateTimeoutExpiry s).mcp.state = .notReady := by decide +kernel

/-- A fence raised in RESTING reports the position last known, and one before any is known reports none (R38, R202). -/
theorem test_fence_reports_the_position_last_known :
    let s := after .restDrive (requesting 0x51 [1, 0] (after (.seekComplete true) seeking))
    s.dsq.position = none ∧
      ((after (.driveFaultAsserted true) s).evq.snapshot.map fun x => (x.dsqState, x.position)) =
        some (.resting, some ⟨5, 2, 0⟩) ∧
      ((after (.driveFaultAsserted true) State.reset).evq.snapshot.map Snapshot.position) = some none := by
  decide +kernel

theorem test_settle_wait_end :
    (after .settleWaitEnd (atTime 0 15
      (driveIn .settling (some (grantOf .jobPass ⟨0, 1⟩ .approach)) none (some ⟨0, 15⟩)
        (holding [frameOn ⟨0, 1⟩] [jobOn ⟨0, 1⟩ .active] [] running)))).dsq.state = .reading := by decide +kernel

theorem test_rest_end :
    (after .restEnd (atTime 0 500 (driveIn .resting none none (some ⟨0, 500⟩) running))).dsq.state =
      .recalibrating := by decide +kernel

theorem test_quiet_expiry :
    (after .quietExpiry (atTime 0 60000
      { running with dsq := { running.dsq with faults := 3, quiet := some ⟨0, 60000⟩ } })).dsq.faults = 0 := by
  decide +kernel

theorem test_drive_fault_fences :
    (after (.driveFaultAsserted true) seeking).dsq.fence = some .driveFault ∧
      (after (.driveFaultAsserted true) seeking).jbq.jobs.map Job.state = [.queued] ∧
      (after (.driveFaultAsserted false) seeking).dsq.fence = none := by decide +kernel

theorem test_contention_fences_but_not_detached :
    (after (.contentionSeen (some false)) running).dsq.fence = some .contention ∧
      (after (.contentionSeen (some true)) running).dsq.fence = none ∧
      (after (.contentionSeen (some false))
        { running with dsq := { running.dsq with state := .detached, bypass := true } }).dsq.fence = none := by
  decide +kernel

/-- The line held inactive in FENCED is no contention until CLEAR_FENCE drives it active; and BYPASS off finds it
(R20, R39, R43). -/
theorem test_contention_follows_the_level_driven :
    let s := after (.contentionSeen (some false)) (after (.driveFaultAsserted false) (after (.driveFaultAsserted true) running))
    contentionNow s = false ∧ (after .clearFence (requesting 0x50 [] s)).dsq.fence = some .contention ∧
      contentionNow (after (.contentionSeen (some true)) s) = true ∧
      (after .bypassOff (requesting 0x52 [0] (after (.contentionSeen (some false))
        (after .bypassOn (requesting 0x52 [1] running))))).dsq.fence = some .contention := by
  decide +kernel

/-- The drive cable's lines (R20, R21). -/
theorem test_drive_lines :
    driveOutputs running.dsq = ⟨.active, .inactive, .driven (0, ⟨false, false, 0⟩), .inactive, .inactive⟩ ∧
      driveOutputs { running.dsq with position := some ⟨9, 3, -2⟩ } =
        ⟨.active, .inactive, .driven (3, ⟨false, true, 2⟩), .inactive, .inactive⟩ := by decide

/-! ### The read channel (spec/03, the worked timings of 212/3) -/

/-- The pass of the worked timings: A 16,667, S 20, H0 120, L_slip 150, sectors 7 and 12 open. -/
def worked : PassContext :=
  ⟨⟨212, 3⟩, [7, 12], 0, 16667, 0, 1, 2, 120, 150, 20⟩

theorem test_worked_expected_times :
    expectedTime worked 7 = 5953 ∧ expectedTime worked 12 = 10120 ∧ expectedTime worked 19 = 15953 := by decide

theorem test_worked_deviations :
    deviationOf worked 6010 7 = 57 ∧ slipped worked (deviationOf worked 6010 7) = false ∧
      deviationOf worked 6200 7 = 247 ∧ slipped worked (deviationOf worked 6200 7) = true ∧
      deviationOf worked 5700 7 = -253 ∧ nearestSector worked 6240 = 7 := by decide +kernel

theorem test_weights :
    weightOf false 8 = 6 ∧ weightOf false 12 = 5 ∧ weightOf false 13 = 5 ∧ weightOf false 40 = 1 ∧
      weightOf true 0 = 1 := by decide

/-- A check-good header of an open sector begins a copy; one of another track is a seek fault (R53, R35). -/
theorem test_header :
    ((after (header 150 0 0 1 0x8005) passing).rdc.assembly.map Assembly.sector) = some 1 ∧
      ((after (header 150 0 0 2 0x800F) passing).rdc.assembly.map Assembly.sector) = some 0 ∧
      (after (header 150 0 0 1 0x8004) passing).jbq.jobs.map (fun j => j.tallies.map Tally.badHeaders) = [[1, 0]] := by
  decide +kernel

/-- A mark that ended before the opening mark, at 0, is not heard, whatever its header reads as (R50). -/
theorem test_header_before_the_opening_mark :
    after (header 0xFFFFFFFF 0 0 1 0x8005) passing = passing ∧
      after (header 0xFFFFFFFF 0 0 1 0x8004) passing = passing ∧
      after (header 0xFFFFFFFF 0 1 0 (check16 [0, 1, 0])) passing = passing := by decide +kernel

theorem test_header_of_another_track :
    (after (header 150 0 1 0 (check16 [0, 1, 0])) passing).dsq.state = .recalibrating := by decide +kernel

/-- Transitions at the ends of the window of the last cell of word 0: marginal, and, the windows moved by one eighth
either way, in the next window or not marginal (R54). -/
theorem test_bit_window :
    readHeader 0 (headerFlux [120, 127] [] [] [] []) = ⟨1, 0, 0, 0, 2⟩ ∧
      readHeader 1 (headerFlux [120] [] [] [] []) = ⟨2, 0, 0, 0, 1⟩ ∧
      readHeader (-1) (headerFlux [127] [] [] [] [-1]) = ⟨0x8000, 0x8000, 0, 0, 2⟩ ∧
      readHeader 1 (headerFlux [127] [] [] [] [512]) = ⟨1, 0, 0, 1, 1⟩ := by decide +kernel

/-- A copy of 0/0/0 sealed in `passing`, check-good or not, as R57 seals it. -/
def sealed (good : Bool) : SealedCopy :=
  ⟨⟨⟨0, 0⟩, 0⟩, 2, 1, ⟨zeros, if good then 0 else 1⟩, 13, 0, 5, good⟩

/-- A check-good copy resolves its sector: RECOVERED, with RETRY_GOOD (R58, R117, R137). -/
theorem test_good_copy :
    (deliverCopy (sealed true) passing).tks.frames.map (fun f => (f.sectors.map sectorStateByte).take 2) = [[3, 1]] ∧
      (deliverCopy (sealed true) passing).rct.entries.map (fun e => e.outcomes.map OutcomeRec.result) =
        [[.retryGood 0 1 2, .pending]] := by decide +kernel

/-- A check-bad copy opens an EMPTY sector, enters a slot, is counted, and brings its deviation to the peak (R58, R63,
R68, R116). -/
theorem test_bad_copy :
    (deliverCopy (sealed false) passing).tks.frames.map (fun f => f.sectors.take 1) = [[.opened ⟨zeros, 1⟩ 5]] ∧
      slotsInUse (deliverCopy (sealed false) passing).cps = 1 ∧
      (deliverCopy (sealed false) passing).jbq.jobs.map (fun j => j.tallies.map Tally.captured) = [[1, 0]] ∧
      (deliverCopy { sealed false with deviation := -253 } passing).rct.peakDeviation = 253 := by decide +kernel

/-- The SET_VOTE example: K 3 trims 8, 3, 6, 3, 7 to 8, 6, 7 (R67, R85). -/
theorem test_trim_example :
    ((trimBy 2 ([8, 3, 6, 3, 7].map fun w => copyOf ⟨⟨301, 0⟩, 4⟩ w 1)).map SealedCopy.weight) = [8, 6, 7] := by
  decide +kernel

/-! ### The vote (spec/04, the table of weights) -/

theorem test_bit_margins :
    bitMargin [(1, true), (1, true), (1, false)] = 1 ∧ bitMargin [(8, true), (5, false), (1, false)] = 2 ∧
      bitMargin [(5, true), (3, false), (2, false)] = 0 ∧
      bitMargin [(8, true), (8, false), (5, false), (1, true)] = 4 ∧
      bitMargin [(8, true), (8, true), (8, false), (8, false), (8, false)] = 8 := by decide

theorem test_tie_takes_the_heaviest_earliest :
    ((tieCopy ([3, 5, 5].map fun w => copyOf ⟨⟨0, 0⟩, w⟩ w 1)).map SealedCopy.weight) = some 5 ∧
      votedBit [(5, true), (3, false), (2, false)] true = true ∧
      votedBit [(5, true), (3, false), (2, false)] false = false := by decide +kernel

/-! ### Jobs (spec/05) -/

/-- The COOLING job 305/1 of the LIST_JOBS example, its expiry at uptime 6,133. -/
def coolingJob : Job :=
  { jobOn ⟨305, 1⟩ .cooling with cooldown := some ⟨1133, 5000⟩, counter := 5 }

theorem test_ms_to_cooldown : msToCooldown 5000 coolingJob = 1133 := by decide

theorem test_cooldown_expiry :
    ((after (.cooldownExpiry 305 1) (atTime 0 6133 (holding [] [coolingJob] [] State.reset))).jbq.jobs.map
        fun j => (j.state, j.cycle)) = [(.queued, 1)] ∧
      ((after (.cooldownExpiry 305 1) (atTime 0 6132 (holding [] [coolingJob] [] State.reset))).jbq.jobs.map Job.state) =
        [.cooling] := by decide +kernel

/-- SET_LADDER_SHAPE example: a job at step 6 above Lz 4 ends its walk at its advance. -/
theorem test_progress_above_the_ladder :
    progressOf { State.reset.jbq with length := 4 } { jobOn ⟨118, 2⟩ .active with step := 6 } = .walkEnds ∧
      progressOf State.reset.jbq { jobOn ⟨118, 2⟩ .active with step := 1 } = .stays 1 1 ∧
      progressOf State.reset.jbq { jobOn ⟨118, 2⟩ .active with step := 1, done := 1 } = .stays 2 0 := by decide

/-! ### The machine port (spec/08) -/

theorem test_sector_pulse_times :
    let e : EmuRotation := ⟨0, 16667, 20, 0⟩
    [3, 5, 7, 14, 19].map (sectorPulseAt e) = [2500, 4166, 5833, 11666, 15833] := by decide

/-- The SEEK example: at uptime 10,000 a hold to 10,800, and the demand fetch granted; c 412 is SEEK_ERROR. -/
theorem test_seek_example :
    (after (.seek 140) (atTime 0 10000 running)).mcp.track = ⟨140, 0⟩ ∧
      (after (.seek 140) (atTime 0 10000 running)).mcp.hold = some ⟨10000, 800⟩ ∧
      (after (.seek 140) (atTime 0 10000 running)).dsq.state = .seeking ∧
      (after (.seek 412) (atTime 0 10000 running)).mcp.state = .seekError := by decide +kernel

theorem test_head_of_the_current_head_changes_nothing :
    after (.head 0) running = running ∧ (after (.head 3) running).mcp.track = ⟨0, 3⟩ := by decide +kernel

theorem test_recalibrate_example :
    (after .recalibrate { holding [goodFrame ⟨0, 2⟩] [] [] running with
        mcp := { running.mcp with state := .seekError, track := ⟨139, 2⟩ } }).mcp.state = .ready := by decide +kernel

theorem test_read_of_a_failed_sector :
    (after .read (holding [failedFrame ⟨0, 0⟩] [] [] running)).mcp.activity = .reading none ∧
      (after .read (holding [goodFrame ⟨0, 0⟩] [] [] running)).mcp.activity =
        .reading (some ⟨⟨⟨0, 0⟩, 0⟩, 0, ⟨zeros, 0⟩⟩) := by decide +kernel

theorem test_write_and_its_data :
    (after .write running).mcp.activity = .writing ⟨⟨0, 0⟩, 0⟩ ∧
      ((after (.writeDataComplete zeros) (after .write running)).ovl.entries.map OverlayEntry.writes) = [1] ∧
      (after .write { running with mcp := { running.mcp with track := ⟨0, 5⟩ } }).mcp.state = .fault := by decide +kernel

theorem test_fault_clear :
    (after .faultClear { running with mcp := { running.mcp with state := .fault } }).mcp.state = .ready := by
  decide +kernel

theorem test_hold_expiry :
    let s := { driveIn .recalibrating none none (some ⟨0, 1000⟩) running with
      mcp := { running.mcp with state := .seeking, hold := some ⟨0, 800⟩ } }
    (after .holdExpiry (atTime 0 800 s)).mcp.state = .ready ∧
      (after .holdExpiry (atTime 0 799 s)).mcp.state = .seeking := by decide +kernel

theorem test_emulated_index_and_pulse :
    (after .emulatedIndex (atTime 16667 16 running)).mcp.emu = ⟨16667, 16667, 20, 0⟩ ∧
      (after .sectorPulse (atTime 833 0 running)).mcp.emu.passing = 1 ∧
      (after .sectorPulse (atTime 832 0 running)).mcp.emu.passing = 0 := by decide +kernel

theorem test_unit_select_off_takes_nothing :
    after (.seek 3) (after (.unitSelect false) running) = after (.unitSelect false) running := by decide +kernel

/-! ### The station link (spec/09, spec/11) -/

/-- The bytes of a STATUS request, code 01h, no payload, check 6Bh, and its answer. -/
theorem test_status_transfer :
    let s := after (.frameComplete 0 [] 0x6B) (after (.requestCodeByte 1) (after .transferStart State.reset))
    s.stl.request = some ⟨1, 0, [], 0x6B, 0x6B⟩ ∧ after .frameError s = s ∧
      ((after .status s).stl.response.map fun r => (r.result, r.payload.length)) = some (.ok, 23) := by decide +kernel

theorem test_frame_error :
    reply (after .frameError
      (after (.frameComplete 0 [] 0x6A) (after (.requestCodeByte 1) (after .transferStart State.reset)))) =
      some (.frameError, [1]) := by decide +kernel

theorem test_unknown_request_and_bad_length :
    reply (after .unknownRequest (requesting 0x60 [] State.reset)) = some (.unknownRequest, [0x60]) ∧
      reply (after .getEvents (requesting 0x02 [] State.reset)) = some (.badLength, [0x02]) := by decide +kernel

theorem test_collision :
    (after (.requestCodeByte 1) (after .transferStart (requesting 1 [] State.reset))).stl.collision = true ∧
      (after .fetchFirstByte (after .transferStart State.reset)).stl.shifting = [1, 0, 1, 0, check8 [1, 0, 1, 0]] := by
  decide +kernel

theorem test_response_released :
    let s := after .fetchFirstByte (after .transferStart (after .clearStats (requesting 0x05 [] State.reset)))
    s.stl.response = some ⟨.ok, [5]⟩ ∧ (after .responseReleased s).stl.response = none ∧
      (after .selectRise s).stl.response = some ⟨.ok, [5]⟩ := by decide +kernel

/-! ### Requests (spec/09) -/

/-- The GET_EVENTS example: two of three records, and the rest of class 0. -/
theorem test_get_events_example :
    let s := { State.reset with
      evq := ⟨[⟨7, .spindleUnstable, none, 3⟩, ⟨8, .trackPartial, some ⟨305, 1⟩, 2⟩, ⟨9, .fenceCleared, none, 1⟩],
        10, false, true, .none, none⟩ }
    reply (after .getEvents (requesting 0x02 [2] s)) =
        some (.ok, [2, 0, 2, 0, 7, 1, 2, 255, 255, 0, 0, 3, 0, 8, 0x11, 1, 1, 49, 1, 0, 2]) ∧
      attnClass (after .getEvents (requesting 0x02 [2] s)).evq = some 0 := by decide +kernel

theorem test_get_snapshot_frees_the_latch :
    reply (after .getSnapshot (requesting 0x03 [] State.reset)) = some (.ok, [3, 0]) ∧
      (after .getSnapshot (requesting 0x03 [] (after (.driveFaultAsserted true) running))).evq.snapshot = none := by
  decide +kernel

/-- The GET_STATS and CLEAR_STATS examples: peaks 27, 3, 412, 3. -/
theorem test_statistics_examples :
    let s := { State.reset with rct := ⟨[], 1, 27, some 3, 412, 3⟩ }
    reply (after .getStats (requesting 0x04 [] s)) = some (.ok, [4, 0, 27, 3, 1, 156, 3, 0, 0, 0, 0, 0, 0]) ∧
      (after .clearStats (requesting 0x05 [] s)).rct = ⟨[], 1, 0, none, 0, 0⟩ := by decide +kernel

theorem test_list_entries :
    reply (after .listEntries (requesting 0x10 [0, 0, 0, 39] State.reset)) = some (.ok, [0x10, 0, 0]) := by
  decide +kernel

theorem test_get_entry_and_mark_exported :
    reply (after .getEntry (requesting 0x11 [1, 49, 2] State.reset)) = some (.notFound, [0x11]) ∧
      reply (after .markExported (requesting 0x12 [1, 49, 1]
        (holding [failedFrame ⟨305, 1⟩] [] [entryOn ⟨305, 1⟩ .incomplete (.failed 2 .weak)] State.reset))) =
        some (.ok, [0x12, 3]) := by decide +kernel

theorem test_read_sector_without_data :
    reply (after .readSector (requesting 0x13 [0, 0, 0, 0] (holding [failedFrame ⟨0, 0⟩] [] [] State.reset))) =
        some (.ok, [0x13, 4, 0, 0]) ∧
      reply (after .readSector (requesting 0x13 [0, 0, 0, 20] State.reset)) = some (.range, [0x13]) := by decide +kernel

theorem test_list_frames :
    reply (after .listFrames (requesting 0x14 [] (holding [goodFrame ⟨40, 1⟩] [] [] State.reset))) =
      some (.ok, [0x14, 1, 0, 40, 1, 1, 0, 0, 0, 20, 0, 0]) := by decide +kernel

/-- The QUEUE_TRACK examples: a PREFETCH job becomes STATION at its place; a clean frame gives JOB_CLEAN. -/
theorem test_queue_track_examples :
    reply (after .queueTrack (requesting 0x20 [0, 40, 0, 2]
        (holding [frameOn ⟨40, 0⟩] [{ jobOn ⟨40, 0⟩ .queued with origin := .prefetch }] [] State.reset))) =
        some (.ok, [0x20, 1, 1]) ∧
      (after .queueTrack (requesting 0x20 [0, 118, 2, 0] (holding [goodFrame ⟨118, 2⟩] [] [] State.reset))).evq.records =
        [⟨0, .jobClean, some ⟨118, 2⟩, 0⟩] := by decide +kernel

theorem test_retry_and_cancel :
    reply (after .retryTrack (requesting 0x21 [0, 118, 2] (holding [goodFrame ⟨118, 2⟩] [] [] State.reset))) =
        some (.notFound, [0x21]) ∧
      reply (after .cancelJob (requesting 0x22 [1, 49, 1]
        (holding [frameOn ⟨305, 1⟩] [jobOn ⟨305, 1⟩ .queued] [] State.reset))) = some (.ok, [0x22, 2]) := by
  decide +kernel

/-- A RETRY_TRACK that resolves its open set closes RECOVERED, although a cancelled fill has left sector 4 PENDING (R135,
R138; log entry 49). -/
theorem test_pending_outside_the_open_set_does_not_fail :
    let e := { entryOn ⟨0, 0⟩ .opened .pending with outcomes := [⟨1, .voted 3 4 1 1⟩, ⟨4, .pending⟩] }
    let j := { jobOn ⟨0, 0⟩ .active with tallies := [] }
    let s := advanceJob ⟨0, 0⟩ (holding [goodFrame ⟨0, 0⟩] [j] [e] running)
    entryOf ⟨0, 0⟩ s = some { e with state := .recovered } ∧ s.evq.records.map EventRec.kind = [.trackRecovered] := by
  decide +kernel

/-- The DROP_OVERLAY and LIST_OVERLAY examples. -/
theorem test_overlay_examples :
    let s := { State.reset with
      ovl := ⟨[⟨⟨⟨12, 0⟩, 3⟩, zeros, 1⟩, ⟨⟨⟨212, 3⟩, 9⟩, zeros, 3⟩, ⟨⟨⟨140, 2⟩, 7⟩, zeros, 1⟩]⟩ }
    reply (after .dropOverlay (requesting 0x32 [0, 212, 3, 9] s)) = some (.ok, [0x32, 0, 212, 3, 9, 3]) ∧
      reply (after .listOverlay (requesting 0x30 [] (after .dropOverlay (requesting 0x32 [0, 212, 3, 9] s)))) =
        some (.ok, [0x30, 2, 0, 12, 0, 3, 1, 0, 140, 2, 7, 1]) := by decide +kernel

theorem test_read_overlay :
    ((after .readOverlay (requesting 0x31 [0, 0, 0, 0]
      { State.reset with ovl := ⟨[⟨⟨⟨0, 0⟩, 0⟩, zeros, 1⟩]⟩ })).stl.response.map fun r => r.payload.length) =
      some 516 := by decide +kernel

/-- The SET_GEOMETRY example: 400, 5, 20 becomes 200, 8, 24; S 40 is refused. -/
theorem test_set_geometry_example :
    let s := { running with dsq := { running.dsq with position := some ⟨212, 3, 0⟩ } }
    let t := after .setGeometry (requesting 0x40 [0, 200, 8, 24] s)
    t.geom = ⟨200, 8, 24⟩ ∧ t.mcp.state = .seeking ∧ t.mcp.track = ⟨0, 0⟩ ∧ t.dsq.state = .recalibrating ∧
      reply (after .setGeometry (requesting 0x40 [0, 200, 8, 40] s)) = some (.range, [0x40]) := by decide +kernel

/-- The SET_ROTATION example: tol 150 and N 9 are clamped to 100 and 6. -/
theorem test_set_rotation_example :
    reply (after .setRotation (requesting 0x41 [65, 27, 150, 3, 3, 9, 4] running)) =
        some (.ok, [0x41, 65, 27, 100, 3, 3, 6, 4]) ∧
      (after .setRotation (requesting 0x41 [65, 27, 150, 3, 3, 9, 4] running)).dsq.state = .offline := by decide +kernel

/-- The SET_READ and SET_VOTE examples. -/
theorem test_set_read_and_vote_examples :
    reply (after .setRead (requesting 0x42 [9, 96, 0, 5] State.reset)) = some (.ok, [0x42, 7, 208, 0, 10]) ∧
      reply (after .setVote (requesting 0x43 [3, 50] State.reset)) = some (.ok, [0x43, 3, 40]) := by decide +kernel

/-- The SET_LADDER_STEP and SET_LADDER_SHAPE examples. -/
theorem test_ladder_examples :
    reply (after .setLadderStep (requesting 0x44 [5, 5, 0, 1] State.reset)) = some (.ok, [0x44, 5, 3, 0, 1]) ∧
      reply (after .setLadderShape (requesting 0x45 [4, 0, 0xFF, 0xFF] State.reset)) =
        some (.ok, [0x45, 4, 0, 0xEA, 0x60]) := by decide +kernel

/-- The SET_DRIVE and SET_PORT examples. -/
theorem test_drive_and_port_examples :
    reply (after .setDrive (requesting 0x46 [0, 5, 15, 9, 4, 0, 60, 1] State.reset)) =
        some (.ok, [0x46, 0, 10, 15, 7, 4, 0, 60, 1]) ∧
      reply (after .setPort (requesting 0x47 [9, 196, 1, 0] State.reset)) = some (.ok, [0x47, 7, 208, 1, 0]) := by
  decide +kernel

theorem test_settings_and_status_lengths :
    ((after .getSettings (requesting 0x48 [] State.reset)).stl.response.map fun r => r.payload.length) = some 70 ∧
      ((after .listJobs (requesting 0x23 [] State.reset)).stl.response.map fun r => r.payload) = some [0x23, 0] := by
  decide +kernel

/-- The CLEAR_FENCE and REST_DRIVE example. -/
theorem test_clear_fence_and_rest_example :
    let s := after (.driveFaultAsserted false) (after (.driveFaultAsserted true) running)
    let t := after .clearFence (requesting 0x50 [] s)
    reply t = some (.ok, [0x50, 3]) ∧ t.dsq.state = .recalibrating ∧
      (after .restDrive (requesting 0x51 [7, 208] t)).dsq.state = .resting ∧
      reply (after .restDrive (requesting 0x51 [7, 208] s)) = some (.state, [0x51]) := by decide +kernel

theorem test_bypass :
    let s := after .bypassOn (requesting 0x52 [1] running)
    s.dsq.state = .detached ∧ s.mcp.state = .detached ∧
      (after .bypassOff (requesting 0x52 [0] s)).dsq.state = .recalibrating ∧
      (after .bypassOff (requesting 0x52 [1] s)).dsq.state = .detached := by decide +kernel

theorem test_soft_reset :
    let t := after .softReset (requesting 0x5F [] passing)
    t.jbq.jobs = [] ∧ t.tks.frames = [] ∧ t.rct.entries.map Entry.state = [.incomplete] ∧ t.dsq.state = .offline ∧
      t.evq.records.map EventRec.kind = [.resetDone] := by decide +kernel

theorem test_power_on_with_the_fault_line :
    (after .powerOnReset { State.reset with pins := ⟨true, none, false⟩ }).dsq.fence = some .driveFault ∧
      (after .powerOnReset passing).jbq.jobs = [] := by decide +kernel

/-! ### The attention line and time (spec/10, R1) -/

theorem test_attention_pulse :
    let s := offer .jobClean none 0 { State.reset with mcp := { State.reset.mcp with attnPulse := true } }
    s.evq.pulse = .high 0 0 ∧ (after .attentionPulseEnd (atTime 20 0 s)).evq.line = false ∧
      (after .attentionPulseEnd (atTime 19 0 s)).evq.line = true ∧
      (offer .jobClean none 0 (atTime 5 0 s)).evq.pulse = .gap 5 0 ∧
      (after .attentionGapEnd (atTime 7 0 (offer .jobClean none 0 (atTime 5 0 s)))).evq.line = true := by decide +kernel

theorem test_batch_without_members_completes :
    (after .batchCompletion { running with
      dsq := { running.dsq with state := .voting, grant := some (grantOf .jobPass ⟨0, 0⟩ .voting) }
      vte := { running.vte with batch := some ⟨⟨0, 0⟩, 1, 1, 4, []⟩ } }).dsq.state = .idle := by decide +kernel

theorem test_an_idle_step_is_a_microsecond :
    advanceClock ⟨0xFFFFFFFF, 6, 999⟩ = ⟨0, 7, 0⟩ ∧ advanceClock ⟨0, 6, 0⟩ = ⟨1, 6, 1⟩ := by decide

/-! ### Witnesses: a concrete state and operands that meet an obligation's hypotheses -/

theorem taking_requesting (code : Byte) (p : List Byte) (s : State) (h : requestLength code = some p.length) :
    Taking code p (requesting code p s) :=
  ⟨_, rfl, rfl, rfl, h, rfl⟩

theorem check16_zeros : check16 zeros.val = 0 := by
  have step : (bitsOf (0 : Word)).foldl (checkBit 0x8005) (0 : Word) = 0 := by decide +kernel
  have all : ∀ n, ((List.replicate n (0 : Word)).flatMap bitsOf).foldl (checkBit 0x8005) (0 : Word) = 0 := by
    intro n
    induction n with
    | zero => rfl
    | succ n ih => rw [List.replicate_succ, List.flatMap_cons, List.foldl_append, step, ih]
  exact all 256

theorem witness_StepRunsFrontCommand :
    { running with pending := [.seekError] }.pending = .seekError :: [] := rfl

/-- Right after reset, with any count of microseconds, nothing has fallen. -/
theorem nothing_fallen (n : Nat) (c : Instr) : ¬ Fallen c { State.reset with clock := ⟨0, 0, n⟩ } := by
  intro h
  cases c <;> simp [Fallen, State.reset] at h

/-- A window expiry as it falls; the cooldown of the first job that has fallen; and nothing fallen, with 998 and with 999
µs counted of the millisecond. -/
theorem witness_IdleStepTakesDueOrPassesTime :
    ((atTime 16334 16 running).pending = [] ∧ dueCommand (atTime 16334 16 running) = some .closedWindowExpiry) ∧
      Fallen .closedWindowExpiry (atTime 16334 16 running) ∧
      (atTime 0 6133 (holding [] [coolingJob] [] State.reset)).pending = [] ∧
      dueCommand (atTime 0 6133 (holding [] [coolingJob] [] State.reset)) = some (.cooldownExpiry 305 1) ∧
      (∀ c, ¬ Fallen c { State.reset with clock := ⟨0, 0, 998⟩ }) ∧ 998 + 1 < 1000 ∧
      (∀ c, ¬ Fallen c { State.reset with clock := ⟨0, 0, 999⟩ }) ∧ 1000 ≤ 999 + 1 :=
  ⟨by decide +kernel, ⟨rfl, _, rfl, by unfold Expiry.FallenAt; decide⟩, rfl, by decide +kernel, nothing_fallen 998,
    by decide, nothing_fallen 999, by decide⟩

/-- The fault line quiet with the select line let go, in a transfer and outside one; the fault line asserted; and the select
line held inactive. -/
theorem witness_PowerOnResetsEveryBlock :
    running.stl.transfer = .none ∧ (after .transferStart running).stl.transfer ≠ .none ∧ (running.pins.driveFault = false ∧ running.pins.selectHeld ≠ some false) ∧
      (after (.driveFaultAsserted true) running).pins.driveFault = true ∧
      (after (.contentionSeen (some false)) running).pins = ⟨false, some false, true⟩ := by decide +kernel

/-- A pass waited for, READING; and the same with a fetch's grant in its pass. -/
def awaiting : State :=
  { passing with rdc := running.rdc, dsq := { passing.dsq with grant := some (grantOf .jobPass ⟨0, 0⟩ .approach) } }

def fetching : State :=
  { passing with
    dsq := { passing.dsq with grant := some (grantOf .demandFetch ⟨0, 0⟩ .inPass) }
    jbq := { passing.jbq with jobs := [], fetch := some ⟨[⟨0, 0, 0, none⟩], false⟩ }
    rct := running.rct }

/-- A pass in flight with a command waiting: every invariant holds of it. -/
def waiting : State :=
  { passing with pending := [.seekError] }

theorem witness_invariant_steps : ∃ t, step waiting = .next t :=
  ⟨_, rfl⟩

theorem witness_StepKeepsCollectionsBounded : CollectionsBounded waiting := by
  unfold CollectionsBounded; decide +kernel

theorem witness_StepKeepsCopiesBounded : CopiesBounded waiting := by
  unfold CopiesBounded; decide +kernel

theorem witness_StepKeepsTable : TableKept waiting ∧ SectorsAscending waiting := by
  unfold TableKept SectorsAscending Ascending; decide +kernel

theorem witness_StepKeepsSettingsInRange : SettingsInRange waiting := by
  unfold SettingsInRange RotationSettings.InRange DriveSettings.InRange LadderStep.InRange; decide +kernel

theorem witness_StepKeepsDriveConsistent : GrantKept waiting ∧ WithdrawalKept waiting ∧ PositionKept waiting := by
  refine ⟨⟨?_, ?_, ?_, ?_, ?_⟩, ?_, ?_, ?_⟩
  · intro p h; exact ⟨by decide, _, rfl, by cases h; decide⟩
  · intro b h; cases h
  · intro g h; cases h; decide
  · decide
  · decide
  · unfold WithdrawalKept; decide
  · intro p h; cases h; rfl
  · decide

theorem witness_StepKeepsJobsConsistent : JobsKept waiting := by
  refine ⟨?_, ?_⟩
  · intro j h
    cases h with
    | head => exact ⟨⟨fun _ => ⟨_, rfl, rfl, rfl⟩, fun _ => rfl⟩, by decide +kernel⟩
    | tail _ h => cases h
  · intro g h; cases h; exact ⟨_, rfl, by decide +kernel, fun h => absurd rfl h⟩

theorem witness_StepKeepsPortFollowing : PortFollows waiting := by
  unfold PortFollows; decide +kernel

theorem witness_StepKeepsAverageInBounds : AverageKept waiting ∧ AverageKept row4 := by
  unfold AverageKept RotationSettings.InRange
  exact ⟨⟨by decide, by decide, fun _ => ⟨0, by decide⟩, by decide, by decide⟩,
    ⟨by decide, by decide, by decide, fun _ => ⟨16690, by decide⟩, by decide⟩⟩

theorem witness_StepKeepsAttentionLine :
    AttentionFollows waiting ∧
      AttentionFollows (offer .jobClean none 0 { running with mcp := { running.mcp with attnPulse := true } }) := by
  unfold AttentionFollows; decide +kernel

theorem witness_StepKeepsLinkExclusive : LinkKept waiting ∧ LinkKept (requesting 1 [] running) := by
  unfold LinkKept; decide +kernel

/-- STATUS taken: neither a reset nor a command of any block's own. -/
theorem witness_BlocksChangeOnlyByTheirCommands :
    (∃ t, exec .status waiting = .next t) ∧ Instr.status ∉
      [.powerOnReset, .setGeometry, .startupWindowExpiry, .closedWindowExpiry, .openWindowExpiry, .resyncLimitExpiry,
        .setRotation, .softReset, .dropOverlay] ∧
      (∀ b, Instr.status ≠ .driveFaultAsserted b) ∧ (∀ b, Instr.status ≠ .contentionSeen b) ∧
      (∀ b, Instr.status ≠ .unitSelect b) ∧ (∀ n, Instr.status ≠ .indexQualified n) ∧
      ∀ d, Instr.status ≠ .writeDataComplete d :=
  ⟨⟨_, rfl⟩, by decide, by simp, by simp, by simp, by simp, by simp⟩

theorem witness_SettingsChangeOnlyByTheirRequests :
    (∃ t, exec .softReset (requesting 0x5F [] waiting) = .next t) ∧ Instr.softReset ∉
      [.powerOnReset, .setRotation, .setDrive, .setRead, .setVote, .setLadderStep, .setLadderShape, .setPort] :=
  ⟨⟨_, rfl⟩, by decide⟩

/-- A fence recorded, the snapshot latched, the relay closed, OVERRUN set, a least margin held. -/
theorem witness_RecordsStandUntilCleared :
    let s := { after (.driveFaultAsserted true) running with
      evq := { (after (.driveFaultAsserted true) running).evq with overrun := true }
      rct := { running.rct with peakMargin := some 3 } }
    let t := after .bypassOn (requesting 0x52 [1] s)
    t.dsq.fence.isSome ∧ t.evq.snapshot.isSome ∧ t.dsq.bypass = true ∧ t.evq.overrun = true ∧
      t.rct.peakMargin = some 3 ∧
      Instr.status ∉ [.powerOnReset, .clearFence, .getSnapshot, .bypassOff, .getEvents, .clearStats] := by
  decide +kernel

theorem witness_TransferStartCapturesStatus :
    State.reset.stl.transfer = .none ∧ (after (.driveFaultAsserted true) running).stl.transfer = .none ∧
      eventClass .driveFenced = 2 := by decide +kernel

theorem witness_RequestFramesAreReceived :
    (after .transferStart State.reset).stl.transfer = .started ∧ (0xFF : Byte) ≠ 0 ∧
      (after .transferStart State.reset).stl.response = none ∧ (after .transferStart State.reset).stl.request = none ∧
      (after .transferStart (requesting 1 [] State.reset)).stl.transfer = .started ∧
      (after .transferStart (requesting 1 [] State.reset)).stl.request.isSome ∧
      (after (.requestCodeByte 1) (after .transferStart State.reset)).stl.receipt = some ⟨[1], check8 [1]⟩ ∧
      (after (.requestCodeByte 1) (after .transferStart State.reset)).stl.transfer = .request ∧
      (after (.requestCodeByte 1) (after .transferStart (requesting 1 [] State.reset))).stl.transfer = .discarded ∧
      (List.replicate 9 (0 : Byte)).length = (9 : Word).toNat ∧ ([] : List Byte).length = (0 : Word).toNat := by
  decide +kernel

/-- A response held and NONE, each as it is shifted out, at its last byte and after it; and the release of each. -/
theorem witness_ResponsesAreFetched :
    let s := after .transferStart (after .clearStats (requesting 5 [] State.reset))
    let t := after .fetchFirstByte s
    let n := after .fetchFirstByte (after .transferStart State.reset)
    s.stl.transfer = .started ∧ s.stl.response = some ⟨.ok, [5]⟩ ∧ t.stl.transfer = .fetch true ∧
      t.stl.shifting[4]? = some (check8 [0, 0, 1, 5]) ∧ t.stl.shifting.length = 5 ∧
      (after .transferStart State.reset).stl.transfer = .started ∧
      (after .transferStart State.reset).stl.response = none ∧ n.stl.transfer = .fetch false ∧
      n.stl.transfer ≠ .fetch true := by
  decide +kernel

/-- Wrong in its check; intact with the code 60h; intact with a byte too many; and of another row. -/
theorem witness_FaultyRequestsAreRefused :
    (⟨1, 0, [], 1, 0⟩ : Request).computed ≠ (⟨1, 0, [], 1, 0⟩ : Request).received ∧
      requestLength 0x60 = none ∧ requestLength 0x00 = none ∧
      requestLength 0x01 ≠ some 1 ∧ requestLength 0x02 ≠ some 0 ∧ (Instr.status, (0x01 : Byte)) ∈ requestRows ∧
      (Instr.bypassOff, (0x52 : Byte)) ∈ requestRows ∧
      (requesting 0x60 [] State.reset).stl.request = some ⟨0x60, 0, [], 0, 0⟩ := by decide +kernel

theorem witness_RefusedRequestsChangeNothing :
    (Instr.getEvents, (0x02 : Byte)) ∈ requestRows ∧ (requesting 0x02 [] State.reset).stl.response = none ∧
      (after .getEvents (requesting 0x02 [] State.reset)).stl.response = some ⟨.badLength, [0x02]⟩ ∧
      ResultCode.badLength ≠ .ok := by decide +kernel

/-- The port READY, and SEEKING with every hold reason: a fetch of the current track in flight, a job on it with open
sectors, UNSTABLE, RESTING. -/
theorem witness_StatusAndSettingsAreReported :
    (let s := unstable { fetching with mcp := { running.mcp with state := .seeking } };
      running.mcp.state ≠ .seeking ∧ s.mcp.state = .seeking ∧ spindleOf s.ixm = .unstable ∧
      (∃ g, s.dsq.grant = some g ∧ g.track = s.mcp.track ∧ g.kind ≠ .jobPass) ∧
      (∃ j, jobOf passing.mcp.track passing = some j ∧ j.tallies ≠ []) ∧
      (driveIn .resting none none none running).dsq.state = .resting) ∧
    Taking 0x01 [] (requesting 0x01 [] running) ∧ Taking 0x48 [] (requesting 0x48 [] running) ∧
      (requesting 0x48 [] running).jbq.ladder.length = 12 ∧ State.reset.dsq.position = none ∧
      running.dsq.position = some ⟨0, 0, 0⟩ :=
  ⟨⟨by decide, rfl, by decide +kernel, ⟨_, rfl, rfl, by decide⟩, ⟨_, rfl, by decide⟩, rfl⟩,
    taking_requesting _ _ _ (by decide), taking_requesting _ _ _ (by decide), by decide⟩

theorem witness_ListingsReportAndChangeNothing :
    Taking 0x10 [0xFF, 0xFF, 0xFF, 0xFF] (requesting 0x10 [0xFF, 0xFF, 0xFF, 0xFF] waiting) ∧
      Taking 0x11 [0, 0, 0] (requesting 0x11 [0, 0, 0] waiting) ∧
      Taking 0x14 [] (requesting 0x14 [] waiting) ∧ Taking 0x23 [] (requesting 0x23 [] waiting) ∧
      Taking 0x30 [] (requesting 0x30 [] waiting) ∧
      Taking 0x31 [0, 0, 0, 0] (requesting 0x31 [0, 0, 0, 0] waiting) ∧
      entryOf (trackOf [0, 0, 0]) waiting = some (entryOn ⟨0, 0⟩ .opened .pending) ∧
      entryOf (trackOf [0, 0, 1]) waiting = none ∧ overlayOf (sectorOf [0, 0, 0, 0]) waiting = none ∧
      (overlayOf (sectorOf [0, 0, 0, 0]) { waiting with ovl := ⟨[⟨⟨⟨0, 0⟩, 0⟩, zeros, 1⟩]⟩ }).isSome :=
  ⟨taking_requesting _ _ _ (by decide), taking_requesting _ _ _ (by decide), taking_requesting _ _ _ (by decide),
    taking_requesting _ _ _ (by decide), taking_requesting _ _ _ (by decide), taking_requesting _ _ _ (by decide),
    by decide +kernel⟩

theorem witness_StatisticsAreReportedAndCleared :
    Taking 0x04 [] (requesting 0x04 [] waiting) ∧ Taking 0x05 [] (requesting 0x05 [] waiting) :=
  ⟨taking_requesting _ _ _ (by decide), taking_requesting _ _ _ (by decide)⟩

/-- The maximum at 0, 1, 8 and 9; records with and without a track; a snapshot with a position and a job, and one
with neither. -/
theorem witness_EventsAndSnapshotAreCollected :
    (Taking 0x02 [0] (requesting 0x02 [0] waiting) ∧ Taking 0x02 [1] (requesting 0x02 [1] waiting) ∧
      Taking 0x02 [8] (requesting 0x02 [8] waiting) ∧ Taking 0x02 [9] (requesting 0x02 [9] waiting)) ∧
    Taking 0x03 [] (requesting 0x03 [] waiting) ∧
    (offer .jobClean (some ⟨1, 2⟩) 0 (offer .resetDone none 0 running)).evq.records[0]?.map EventRec.track = some none ∧
    (offer .jobClean (some ⟨1, 2⟩) 0 (offer .resetDone none 0 running)).evq.records[1]?.map EventRec.track =
      some (some ⟨1, 2⟩) ∧
    State.reset.evq.snapshot = none ∧
    ((after (.driveFaultAsserted true) passing).evq.snapshot.map fun x => (x.position, x.job)) =
      some (some ⟨0, 0, 0⟩, some (⟨0, 0⟩, 1)) ∧
    ((after (.driveFaultAsserted true) State.reset).evq.snapshot.map fun x => (x.position, x.job)) =
      some (none, none) :=
  ⟨⟨taking_requesting _ _ _ (by decide), taking_requesting _ _ _ (by decide), taking_requesting _ _ _ (by decide),
    taking_requesting _ _ _ (by decide)⟩, taking_requesting _ _ _ (by decide), by decide +kernel⟩

/-- 400/0/0, 0/5/0 and 0/0/20 are outside; 399/4/19 is inside, its frame in the middle of the use order. -/
theorem witness_ReadSectorReportsAndRefreshes :
    Taking 0x13 [1, 144, 0, 0] (requesting 0x13 [1, 144, 0, 0] running) ∧
      Taking 0x13 [0, 0, 5, 0] (requesting 0x13 [0, 0, 5, 0] running) ∧
      Taking 0x13 [0, 0, 0, 20] (requesting 0x13 [0, 0, 0, 20] running) ∧
      Taking 0x13 [1, 143, 4, 19] (requesting 0x13 [1, 143, 4, 19] running) ∧
      pairAt [1, 144, 0, 0] 0 = 400 ∧ pairAt [1, 143, 4, 19] 0 < 400 ∧ byteAt [1, 143, 4, 19] 3 < 20 ∧
      frameOf (trackOf [1, 143, 4, 19]) running = none ∧
      (holding [frameOn ⟨0, 0⟩, goodFrame ⟨399, 4⟩, frameOn ⟨0, 1⟩] [] [] running).tks.frames =
        [frameOn ⟨0, 0⟩] ++ goodFrame ⟨399, 4⟩ :: [frameOn ⟨0, 1⟩] ∧
      (goodFrame ⟨399, 4⟩).track = trackOf [1, 143, 4, 19] ∧
      (∀ x ∈ [frameOn ⟨0, 0⟩] ++ [frameOn ⟨0, 1⟩], x.track ≠ trackOf [1, 143, 4, 19]) ∧
      (goodFrame ⟨399, 4⟩).sectors[19]? = some (.good ⟨zeros, 0⟩) ∧
      (frameOn ⟨0, 0⟩).sectors[0]? = some .empty :=
  ⟨taking_requesting _ _ _ (by decide), taking_requesting _ _ _ (by decide), taking_requesting _ _ _ (by decide),
    taking_requesting _ _ _ (by decide), by decide +kernel⟩

/-- An entry alone, a frame alone, neither; and an overlay entry held or not. -/
theorem witness_MarkExportedAndDropOverlay :
    Taking 0x12 [0, 0, 1] (requesting 0x12 [0, 0, 1] running) ∧
      Taking 0x32 [0, 0, 0, 0] (requesting 0x32 [0, 0, 0, 0] running) ∧
      (entryOf (trackOf [0, 0, 1]) (holding [] [] [entryOn ⟨0, 1⟩ .recovered .pending] running)).isSome ∧
      (frameOf (trackOf [0, 0, 1]) (holding [goodFrame ⟨0, 1⟩] [] [] running)).isSome ∧
      entryOf (trackOf [0, 0, 1]) running = none ∧ frameOf (trackOf [0, 0, 1]) running = none ∧
      overlayOf (sectorOf [0, 0, 0, 0]) running = none ∧
      (overlayOf (sectorOf [0, 0, 0, 0]) { running with ovl := ⟨[⟨⟨⟨0, 0⟩, 0⟩, zeros, 1⟩]⟩ }).isSome :=
  ⟨taking_requesting _ _ _ (by decide), taking_requesting _ _ _ (by decide), by decide +kernel⟩

/-- The limits 1024, 16, 32 and 1, 1, 1 inside; 0 and 1025, 17, 33 outside; free, and not free for a job. -/
theorem witness_SetGeometryStoresOrRefuses :
    (Taking 0x40 [4, 0, 16, 32] (requesting 0x40 [4, 0, 16, 32] running) ∧
      Taking 0x40 [0, 1, 1, 1] (requesting 0x40 [0, 1, 1, 1] running)) ∧
      pairAt [4, 0, 16, 32] 0 = 1024 ∧ byteAt [4, 0, 16, 32] 2 = 16 ∧ byteAt [4, 0, 16, 32] 3 = 32 ∧
      1024 < pairAt [4, 1, 17, 33] 0 ∧ 16 < byteAt [4, 1, 17, 33] 2 ∧ 32 < byteAt [4, 1, 17, 33] 3 ∧
      running.dsq.state = .idle ∧ running.jbq.jobs = [] ∧ running.tks.frames = [] ∧ passing.jbq.jobs ≠ [] ∧
      running.mcp.state ≠ .notReady ∧ running.mcp.state ≠ .detached ∧ State.reset.mcp.state = .notReady ∧
      State.reset.dsq.state = .offline ∧ running.dsq.position = some ⟨0, 0, 0⟩ :=
  ⟨⟨taking_requesting _ _ _ (by decide), taking_requesting _ _ _ (by decide)⟩, by decide +kernel⟩

theorem witness_SetRotationRestartsMonitor :
    Taking 0x41 [0, 0, 0, 0, 0, 0, 0] (requesting 0x41 [0, 0, 0, 0, 0, 0, 0] running) ∧
      passing.dsq.state ≠ .offline ∧ passing.dsq.state ≠ .idle ∧ running.dsq.state = .idle ∧
      State.reset.dsq.state = .offline ∧ spindleDown running.ixm = false :=
  ⟨taking_requesting _ _ _ (by decide), by decide⟩

theorem witness_ReadVoteAndLadderSettingsStore :
    (Taking 0x42 [0, 0, 0, 0] (requesting 0x42 [0, 0, 0, 0] running) ∧ Taking 0x43 [3, 50] (requesting 0x43 [3, 50] running) ∧
      Taking 0x44 [0, 0, 0, 0] (requesting 0x44 [0, 0, 0, 0] running) ∧
      Taking 0x44 [13, 0, 0, 0] (requesting 0x44 [13, 0, 0, 0] running) ∧
      Taking 0x44 [1, 0, 0, 0] (requesting 0x44 [1, 0, 0, 0] running) ∧
      Taking 0x44 [12, 0, 0, 0] (requesting 0x44 [12, 0, 0, 0] running) ∧
      Taking 0x45 [13, 4, 255, 255] (requesting 0x45 [13, 4, 255, 255] running)) ∧
      byteAt [0, 0, 0, 0] 0 = 0 ∧ 12 < byteAt [13, 0, 0, 0] 0 ∧ 1 ≤ byteAt [1, 0, 0, 0] 0 ∧ byteAt [12, 0, 0, 0] 0 ≤ 12 ∧
      running.jbq.ladder.length = 12 ∧
      ([8, 3, 6, 3, 7].map fun w => copyOf ⟨⟨0, 0⟩, 0⟩ w 1) =
        copiesOf ⟨⟨0, 0⟩, 0⟩ ⟨[⟨⟨⟨0, 0⟩, 0⟩, [8, 3, 6, 3, 7].map fun w => copyOf ⟨⟨0, 0⟩, 0⟩ w 1, true⟩]⟩ :=
  ⟨⟨taking_requesting _ _ _ (by decide), taking_requesting _ _ _ (by decide), taking_requesting _ _ _ (by decide),
    taking_requesting _ _ _ (by decide), taking_requesting _ _ _ (by decide), taking_requesting _ _ _ (by decide),
    taking_requesting _ _ _ (by decide)⟩, by decide +kernel⟩

/-- A mode that changes and one that stays. -/
theorem witness_SetDriveAndSetPortStore :
    Taking 0x46 [0, 0, 0, 0, 0, 0, 0, 1] (requesting 0x46 [0, 0, 0, 0, 0, 0, 0, 1] running) ∧
      Taking 0x47 [7, 209, 0, 1] (requesting 0x47 [7, 209, 0, 1] running) ∧
      Taking 0x47 [7, 209, 0, 0] (requesting 0x47 [7, 209, 0, 0] running) ∧
      decide (byteAt [7, 209, 0, 1] 3 ≠ 0) ≠ running.mcp.attnPulse ∧
      decide (byteAt [7, 209, 0, 0] 3 ≠ 0) = running.mcp.attnPulse :=
  ⟨taking_requesting _ _ _ (by decide), taking_requesting _ _ _ (by decide), taking_requesting _ _ _ (by decide),
    by decide +kernel⟩

/-- Six STATION jobs that hold frames. -/
def sixHeld (s : State) : State :=
  { s with jbq := { s.jbq with jobs := (List.range 6).map fun h => { jobOn ⟨9, h⟩ .queued with origin := .station } } }

/-- Sixteen jobs. -/
def sixteenJobs (s : State) : State :=
  { s with jbq := { s.jbq with jobs := (List.range 16).map fun h => jobOn ⟨9, h⟩ .queued } }

/-- 400/0, 0/5 and start 9 outside; 399/4 at start 8: a STATION job, a MACHINE job with and without six frames held,
no job with 16 jobs, and no job and no frame. -/
theorem witness_QueueTrackCreatesOrMerges :
    (Taking 0x20 [1, 144, 0, 0] (requesting 0x20 [1, 144, 0, 0] running) ∧
      Taking 0x20 [0, 0, 5, 0] (requesting 0x20 [0, 0, 5, 0] running) ∧
      Taking 0x20 [0, 0, 0, 9] (requesting 0x20 [0, 0, 0, 9] running) ∧
      Taking 0x20 [1, 143, 4, 8] (requesting 0x20 [1, 143, 4, 8] running)) ∧
      trackOf [1, 143, 4, 8] = ⟨399, 4⟩ ∧ running.jbq.length = 8 ∧
      (let s := holding [] [{ jobOn ⟨399, 4⟩ .queued with origin := .station }] [] running;
        (jobOf ⟨399, 4⟩ s).map Job.origin = some .station) ∧
      (let s := { sixHeld running with jbq := { (sixHeld running).jbq with jobs := jobOn ⟨399, 4⟩ .queued :: (sixHeld running).jbq.jobs } };
        jobOf ⟨399, 4⟩ s = some (jobOn ⟨399, 4⟩ .queued) ∧ (jobOn ⟨399, 4⟩ .queued).holdsFrame = true ∧ 6 ≤ stationFramesHeld s) ∧
      (let s := holding [] [jobOn ⟨399, 4⟩ .queued] [entryOn ⟨399, 4⟩ .opened .pending] running;
        jobOf ⟨399, 4⟩ s = some (jobOn ⟨399, 4⟩ .queued) ∧ stationFramesHeld s < 6 ∧
        entryOf ⟨399, 4⟩ s = some (entryOn ⟨399, 4⟩ .opened .pending)) ∧
      jobOf ⟨399, 4⟩ (sixteenJobs running) = none ∧ 16 ≤ (sixteenJobs running).jbq.jobs.length ∧
      jobOf ⟨399, 4⟩ running = none ∧ running.jbq.jobs.length < 16 ∧ frameOf ⟨399, 4⟩ running = none :=
  ⟨⟨taking_requesting _ _ _ (by decide), taking_requesting _ _ _ (by decide), taking_requesting _ _ _ (by decide),
    taking_requesting _ _ _ (by decide)⟩, by decide +kernel⟩

/-- A kept frame with and without FAILED sectors, at and below six frames held; for RETRY_TRACK outside the geometry,
no entry, an entry not PARTIAL, and a PARTIAL one. -/
theorem witness_KeptFramesAreRetried :
    (Taking 0x20 [1, 143, 4, 8] (requesting 0x20 [1, 143, 4, 8] running) ∧
      Taking 0x21 [1, 144, 0] (requesting 0x21 [1, 144, 0] running) ∧
      Taking 0x21 [0, 0, 5] (requesting 0x21 [0, 0, 5] running) ∧
      Taking 0x21 [1, 143, 4] (requesting 0x21 [1, 143, 4] running)) ∧
      (let s := holding [failedFrame ⟨399, 4⟩] [] [] (sixHeld running);
        frameOf ⟨399, 4⟩ s = some (failedFrame ⟨399, 4⟩) ∧ jobOf ⟨399, 4⟩ s = none) ∧
      (6 ≤ stationFramesHeld (sixHeld running) ∧ jobOf ⟨399, 4⟩ (sixHeld running) = none ∧
        (sixHeld running).jbq.jobs.length < 16) ∧
      stationFramesHeld running < 6 ∧ (∀ r ∈ (goodFrame ⟨399, 4⟩).sectors, r.isFailed = false) ∧
      (failedFrame ⟨399, 4⟩).sectors.any SectorRec.isFailed = true ∧ entryOf ⟨399, 4⟩ running = none ∧
      (let s := holding [failedFrame ⟨399, 4⟩] [] [entryOn ⟨399, 4⟩ .incomplete (.failed 0 .weak)] running;
        entryOf ⟨399, 4⟩ s = some (entryOn ⟨399, 4⟩ .incomplete (.failed 0 .weak)) ∧
        frameOf ⟨399, 4⟩ s = some (failedFrame ⟨399, 4⟩) ∧ jobOf ⟨399, 4⟩ s = none ∧ s.jbq.jobs.length < 16) ∧
      (let e := { entryOn ⟨399, 4⟩ .incomplete (.failed 0 .weak) with outcomes := [⟨0, .failed 0 .weak⟩, ⟨3, .voted 3 4 1 1⟩] };
        (e.outcomes.map OutcomeRec.sector).Pairwise (· < ·) ∧ (failedFrame ⟨399, 4⟩).sectors[1]?.any SectorRec.isFailed) ∧
      (entryOn ⟨399, 4⟩ .recovered .pending).state ≠ .incomplete ∧ 16 ≤ (sixteenJobs running).jbq.jobs.length :=
  ⟨⟨taking_requesting _ _ _ (by decide), taking_requesting _ _ _ (by decide), taking_requesting _ _ _ (by decide),
    taking_requesting _ _ _ (by decide)⟩, by decide +kernel⟩

/-- 400/0 outside; 0/1 without a job; 0/0 with the job whose pass is in flight, its frame, its open entry; with its
batch running; without a frame; and with its fill pending over a frame still wholly EMPTY. -/
theorem witness_CancelJobEndsTheJob :
    (Taking 0x22 [1, 144, 0] (requesting 0x22 [1, 144, 0] passing) ∧ Taking 0x22 [0, 0, 1] (requesting 0x22 [0, 0, 1] passing) ∧
      Taking 0x22 [0, 0, 0] (requesting 0x22 [0, 0, 0] passing)) ∧ jobOf (trackOf [0, 0, 1]) passing = none ∧
      jobOf (trackOf [0, 0, 0]) passing = some (jobOn ⟨0, 0⟩ .active) ∧
      passing.dsq.grant = some (grantOf .jobPass ⟨0, 0⟩ .inPass) ∧ passing.dsq.state = .reading ∧
      (jobOn ⟨0, 0⟩ .active).holdsFrame = true ∧
      (jobOn ⟨0, 0⟩ .active).fill = false ∧ frameOf ⟨0, 0⟩ passing = some (frameOn ⟨0, 0⟩) ∧
      1 ∈ (jobOn ⟨0, 0⟩ .active).openSet ∧ (frameOn ⟨0, 0⟩).sectors[1]? = some (.opened ⟨zeros, 1⟩ 5) ∧
      entryOf ⟨0, 0⟩ passing = some (entryOn ⟨0, 0⟩ .opened .pending) ∧
      (entryOf ⟨0, 0⟩ (after .cancelJob (requesting 0x22 [0, 0, 0] passing))).isSome ∧
      (let s := driveIn .voting (some (grantOf .jobPass ⟨0, 0⟩ .voting)) none none
          (holding [frameOn ⟨0, 0⟩] [jobOn ⟨0, 0⟩ .active] [] running);
        (grantOf .jobPass ⟨0, 0⟩ .voting).phase = .voting ∧ s.dsq.state = .voting ∧ entryOf ⟨0, 0⟩ s = none) ∧
      (let j := { jobOn ⟨0, 0⟩ .queued with origin := .station, holdsFrame := false, step := 0, fill := true };
        let s := holding [] [j] [entryOn ⟨0, 0⟩ .opened .pending] running;
        jobOf ⟨0, 0⟩ s = some j ∧ j.holdsFrame = false ∧ s.dsq.grant = none ∧
        entryOf ⟨0, 0⟩ s = some (entryOn ⟨0, 0⟩ .opened .pending)) ∧
      (let j := { jobOn ⟨0, 0⟩ .queued with origin := .station, step := 0, fill := true };
        let f : Frame := ⟨⟨0, 0⟩, List.replicate 20 .empty, false⟩;
        j.holdsFrame = true ∧ j.fill = true ∧ f.allEmpty = true ∧ frameOf ⟨0, 0⟩ (holding [f] [j] [] running) = some f) :=
  ⟨⟨taking_requesting _ _ _ (by decide), taking_requesting _ _ _ (by decide), taking_requesting _ _ _ (by decide)⟩,
    by decide +kernel⟩

/-- No contention is seen where no other master holds the line against the level driven. -/
theorem no_contention {s : State}
    (h : s.pins.selectHeld.all fun b => s.dsq.state == .detached || b != (s.dsq.state == .fenced)) :
    ¬ ContentionOn s := by
  rintro ⟨b, hb, hd, hf⟩
  rw [hb] at h
  have hd' : (s.dsq.state == DsqState.detached) = false := by simpa using hd
  by_cases hs : s.dsq.state = .fenced <;> cases b <;> simp_all

/-- A fence recorded, in FENCED. -/
def fenced (s : State) : State :=
  after (.driveFaultAsserted false) (after (.driveFaultAsserted true) s)

/-- A fence recorded, in FENCED, with the select line let go, held inactive and held active; without a fence, in IDLE,
with the line held inactive; with the fault line; and kept in DETACHED. -/
theorem witness_ClearFenceClearsAndRecalibrates :
    Taking 0x50 [] (requesting 0x50 [] (fenced running)) ∧
      (after (.driveFaultAsserted true) running).pins.driveFault = true ∧
      ContentionOn (after (.contentionSeen (some true)) (fenced running)) ∧
      ContentionOn { running with pins := ⟨false, some false, true⟩ } ∧
      ¬ ContentionOn (fenced running) ∧ ¬ ContentionOn (after (.contentionSeen (some false)) (fenced running)) ∧
      ((fenced running).dsq.fence = some .driveFault ∧ (fenced running).dsq.state = .fenced ∧
        (fenced running).pins.driveFault = false ∧ (fenced running).pins.selectHeld ≠ some false ∧
        spindleDown (fenced running).ixm = false ∧ (fenced running).mcp.state = .notReady ∧
        spindleDown (fenced State.reset).ixm = true ∧ (fenced State.reset).dsq.state = .fenced) ∧
      ((after (.contentionSeen (some false)) (fenced running)).pins.selectHeld = some false ∧
        (after (.contentionSeen (some false)) (fenced running)).dsq.state = .fenced ∧
        (after (.contentionSeen (some false)) (fenced running)).dsq.fence = some .driveFault) ∧
      running.dsq.fence = none ∧ ¬ ContentionOn running ∧
      (after .bypassOn (requesting 0x52 [1] (fenced running))).dsq.state = .detached ∧
      (after .bypassOn (requesting 0x52 [1] (fenced running))).dsq.fence = some .driveFault :=
  ⟨taking_requesting _ _ _ (by decide), by decide +kernel, ⟨true, by decide +kernel, by decide +kernel, by decide +kernel⟩,
    ⟨false, rfl, by decide, by decide⟩, no_contention (by decide +kernel), no_contention (by decide +kernel),
    by decide +kernel, by decide +kernel, by decide, no_contention (by decide), by decide +kernel, by decide +kernel⟩

/-- REST_DRIVE of 1 ms, of 60,001 ms, and of 0 ms with the spindle running and stopped; BYPASS on and off, with and without a fence, a line and the spindle. -/
theorem witness_RestAndBypassWithdrawTheDrive :
    (pairAt [0, 0] 0 = 0 ∧ Taking 0x51 [0, 0] (requesting 0x51 [0, 0] passing) ∧
      Taking 0x51 [0, 0] (requesting 0x51 [0, 0] State.reset) ∧ State.reset.dsq.state = .offline ∧
      spindleDown passing.ixm = false) ∧
    (Taking 0x51 [0, 1] (requesting 0x51 [0, 1] passing) ∧ Taking 0x51 [234, 97] (requesting 0x51 [234, 97] passing) ∧
      Taking 0x52 [1] (requesting 0x52 [1] passing) ∧ Taking 0x52 [0] (requesting 0x52 [0] passing)) ∧
      (fenced running).dsq.state = .fenced ∧ passing.dsq.state ≠ .fenced ∧ passing.dsq.state ≠ .detached ∧
      1 ≤ pairAt [0, 1] 0 ∧ byteAt [1] 0 ≠ 0 ∧ byteAt [0] 0 = 0 ∧ passing.dsq.bypass = false ∧
      (let s := after .bypassOn (requesting 0x52 [1] passing);
        s.dsq.bypass = true ∧ s.dsq.fence = none ∧ s.pins.driveFault = false ∧ s.pins.selectHeld ≠ some false ∧
        spindleDown s.ixm = false ∧ (after (.driveFaultAsserted true) s).pins.driveFault = true ∧
        (after (.driveFaultAsserted true) s).dsq.fence = none ∧
        (after (.contentionSeen (some false)) s).pins.selectHeld = some false ∧
        (after (.contentionSeen (some false)) s).dsq.fence = none) ∧
      (after .bypassOn (requesting 0x52 [1] (fenced running))).dsq.fence.isSome ∧
      (after .bypassOn (requesting 0x52 [1] State.reset)).dsq.bypass = true ∧ spindleDown State.reset.ixm = true :=
  ⟨⟨by decide, taking_requesting _ _ _ (by decide), taking_requesting _ _ _ (by decide), rfl, by decide⟩, ⟨taking_requesting _ _ _ (by decide), taking_requesting _ _ _ (by decide), taking_requesting _ _ _ (by decide),
    taking_requesting _ _ _ (by decide)⟩, by decide +kernel⟩

/-- A job over an OPEN entry and one of a track with none, with 31 and 32 events held. -/
theorem witness_SoftResetRestartsTheBlocks :
    Taking 0x5F [] (requesting 0x5F [] passing) ∧ TableKept (requesting 0x5F [] passing) ∧
      CollectionsBounded (requesting 0x5F [] passing) ∧
      passing.rct.entries[0]? = some (entryOn ⟨0, 0⟩ .opened .pending) ∧
      jobOf ⟨0, 0⟩ passing = some (jobOn ⟨0, 0⟩ .active) ∧ (entryOn ⟨0, 0⟩ .opened .pending).state = .opened ∧
      (entryOn ⟨0, 0⟩ .recovered (.voted 3 4 1 1)).state ≠ .opened ∧
      (let s := { passing with evq := { passing.evq with records := List.replicate 32 ⟨0, .jobClean, none, 0⟩ } };
        TableKept s ∧ CollectionsBounded s ∧ 32 ≤ s.evq.records.length) ∧ passing.evq.records.length < 32 := by
  refine ⟨taking_requesting _ _ _ (by decide), ?_, ?_, by decide +kernel, by decide +kernel, by decide, by decide,
    ⟨?_, ?_, by decide +kernel⟩, by decide⟩
  all_goals first | (unfold TableKept; decide +kernel) | (unfold CollectionsBounded; decide +kernel)

/-- A pulse of 3 and 5 µs, and one taken already; and of the minimum width 4 in every window, in a pass of a job and of
a fetch, and with a pass waited for, under RUNNING and under UNSTABLE. -/
theorem witness_IndexMovesWindow :
    (¬ Qualifies 3 running ∧ ¬ Qualifies 5 running ∧ ¬ Qualifies 4 (after (.indexQualified 4) running)) ∧
    (Qualifies 4 (settled State.reset) ∧ (settled State.reset).ixm.window = .idle) ∧
    (let s := settled (after (.indexQualified 4) (settled State.reset));
      Qualifies 4 s ∧ s.ixm.window = .startup ∧ s.dsq.state = .offline ∧ s.ixm.latched = false) ∧
    (Qualifies 4 running ∧ running.ixm.window = .closed) ∧
    (Qualifies 4 row4 ∧ row4.ixm.window = .opened ∧ row4.ixm.reference = some 16690) ∧
    (let s := after .openWindowExpiry { row4 with clock := ⟨33690, 33, 0⟩ }; Qualifies 4 s ∧ s.ixm.window = .resync) ∧
    (∀ s ∈ [passing, fetching, awaiting], Qualifies 4 s ∧ s.ixm.window = .closed ∧ s.dsq.state = .reading ∧
      (after (.indexQualified 4) s).ixm.latched = false) ∧
    passing.dsq.grant = some (grantOf .jobPass ⟨0, 0⟩ .inPass) ∧
    jobOf ⟨0, 0⟩ passing = some (jobOn ⟨0, 0⟩ .active) ∧
    fetching.dsq.grant = some (grantOf .demandFetch ⟨0, 0⟩ .inPass) ∧
    awaiting.dsq.grant = some (grantOf .jobPass ⟨0, 0⟩ .approach) ∧
    (Qualifies 4 (unstable awaiting) ∧ (unstable awaiting).ixm.latched = true ∧
      (after (.indexQualified 4) (unstable awaiting)).ixm.latched = true) := by
  unfold Qualifies; decide +kernel

/-- Each window's expiry at the moment it falls, the last two with a pass in flight, waited for, and a seek; and none
pending, in another window, and one µs before. -/
theorem witness_WindowExpiriesMoveWindow :
    (let s := atTime 66668 66 (after (.indexQualified 4) (settled State.reset));
      s.ixm.window = .startup ∧ s.ixm.expiry = some ⟨0, 66668⟩ ∧ 66668 ≤ (s.clock.rotationTimer - 0).toNat) ∧
    (let s := atTime 16334 16 running;
      s.ixm.window = .closed ∧ s.ixm.expiry = some ⟨0, 16334⟩ ∧ s.ixm.reference = some 0 ∧
      16334 ≤ (s.clock.rotationTimer - 0).toNat) ∧
    (∀ s ∈ [passing, fetching, awaiting].map (fun x => { x with ixm := row4.ixm, clock := ⟨33690, 33, 0⟩ }),
      s.ixm.window = .opened ∧ s.ixm.expiry = some ⟨16690, 17000⟩ ∧ 17000 ≤ (s.clock.rotationTimer - 16690).toNat ∧
      s.dsq.state = .reading ∧ s.dsq.grant.isSome ∧ (after .openWindowExpiry s).ixm.latched = false) ∧
    (∀ s ∈ [passing, seeking].map (fun x => atTime 100358 100 { x with
        ixm := (after .openWindowExpiry { row4 with clock := ⟨33690, 33, 0⟩ }).ixm }),
      s.ixm.window = .resync ∧ s.ixm.expiry = some ⟨33690, 66668⟩ ∧
      66668 ≤ (s.clock.rotationTimer - 33690).toNat ∧ s.dsq.grant.all (fun g => g.phase != .voting)) ∧
    (¬ Fallen .startupWindowExpiry State.reset ∧ ¬ Fallen .openWindowExpiry running ∧
      ¬ Fallen .resyncLimitExpiry running ∧ ¬ Fallen .closedWindowExpiry (atTime 16333 16 running)) := by
  refine ⟨by decide +kernel, by decide +kernel, by decide +kernel, by decide +kernel, ?_, ?_, ?_, ?_⟩
  · exact fun h => absurd h.1 (by decide)
  · exact fun h => absurd h.1 (by decide)
  · exact fun h => absurd h.1 (by decide)
  · rintro ⟨-, e, he, hf⟩
    cases he
    exact absurd hf (by unfold Expiry.FallenAt; decide)

/-- An early index, outside a pass and in one, and a late expiry, at count 2 with V 3; the startup window's expiry; and
a good index at count 1 while latched. -/
theorem witness_UnstableLatchesAndClears :
    (∀ x ∈ [running, passing, fetching], let s := { x with ixm := { running.ixm with violations := 2 } };
      (∃ t, exec (.indexQualified 4) s = .next t) ∧ Qualifies 4 s ∧ s.ixm.window = .closed ∧ s.ixm.latched = false ∧
      s.ixm.rot.limit ≤ min 7 (s.ixm.violations + 1) ∧ s.evq.snapshot = none ∧ s.evq.records.length < 32) ∧
    (let s := { row4 with clock := ⟨33690, 33, 0⟩, ixm := { row4.ixm with violations := 2 } };
      (∃ t, exec .openWindowExpiry s = .next t) ∧ Fallen .openWindowExpiry s ∧ s.ixm.window = .opened ∧
      s.ixm.latched = false) ∧
    Fallen .startupWindowExpiry (atTime 66668 66 (after (.indexQualified 4) (settled State.reset))) ∧
    (let s := { row4 with ixm := { row4.ixm with violations := 1, latched := true } };
      (∃ t, exec (.indexQualified 4) s = .next t) ∧ Qualifies 4 s ∧ s.ixm.window = .opened ∧ s.ixm.latched = true ∧
      s.ixm.violations ≤ 1) := by
  refine ⟨?_, ⟨⟨_, rfl⟩, ⟨rfl, _, rfl, by unfold Expiry.FallenAt; decide⟩, by decide⟩,
    ⟨by decide +kernel, ⟨0, 66668⟩, by decide +kernel, by unfold Expiry.FallenAt; decide⟩, ⟨_, rfl⟩,
    by unfold Qualifies; decide, by decide⟩
  intro x hx
  simp only [List.mem_cons, List.not_mem_nil, or_false] at hx
  obtain rfl | rfl | rfl := hx <;> exact ⟨⟨_, rfl⟩, by unfold Qualifies; decide⟩

/-- A drive RECALIBRATING for a grant. -/
def recalibrating (g : Option Grant) (s : State) : State :=
  driveIn .recalibrating g none (some ⟨0, 1000⟩) s

/-- A seek, under RUNNING with the settle wait 15 and 0, and under UNSTABLE; one whose grant was cancelled; a drive in
neither state; and a recalibrate: for a grant of another cylinder, of another head, and of 0/0, under RUNNING and
UNSTABLE; for one that is to end, and one whose retries are exhausted, of a job and of a fetch; for none; and beside a
running batch. -/
theorem witness_SeekCompleteGoesOn :
    (running.dsq.state ≠ .seeking ∧ running.dsq.state ≠ .recalibrating) ∧
    (∀ s ∈ [seeking, { seeking with dsq := { seeking.dsq with set := { seeking.dsq.set with settle := 0 } } }],
      s.dsq.state = .seeking ∧ s.dsq.position = some ⟨0, 0, 0⟩ ∧ s.dsq.seekTarget = some 5 ∧
      s.dsq.grant = some (grantOf .jobPass ⟨5, 2⟩ .approach) ∧ spindleOf s.ixm ≠ .unstable) ∧
    1 ≤ seeking.dsq.set.settle ∧ (grantOf .jobPass ⟨5, 2⟩ .approach).track.cyl = 5 ∧
    (grantOf .jobPass ⟨5, 2⟩ .approach).phase = .approach ∧ spindleOf (unstable seeking).ixm = .unstable ∧
    (driveIn .seeking none (some 5) (some ⟨0, 100⟩) running).dsq.grant = none ∧
    (∀ g ∈ [grantOf .jobPass ⟨5, 2⟩ .approach, grantOf .jobPass ⟨0, 2⟩ .approach, grantOf .jobPass ⟨0, 0⟩ .approach],
      (recalibrating (some g) running).dsq.state = .recalibrating ∧ (recalibrating (some g) running).dsq.grant = some g ∧
      g.phase = .approach ∧ g.after = .retake) ∧
    spindleOf (recalibrating none running).ixm = .running ∧ spindleDown (recalibrating none running).ixm = false ∧
    spindleOf (recalibrating none (unstable running)).ixm = .unstable ∧ (recalibrating none running).dsq.grant = none ∧
    (let g := { grantOf .jobPass ⟨0, 0⟩ .approach with after := .counted };
      (recalibrating (some g) passing).dsq.grant = some g ∧ jobOf g.track passing = some (jobOn ⟨0, 0⟩ .active)) ∧
    (let g := { grantOf .demandFetch ⟨0, 0⟩ .approach with after := .counted };
      (recalibrating (some g) fetching).dsq.grant = some g ∧ g.kind ≠ .jobPass) ∧
    (let g := { grantOf .demandFetch ⟨0, 0⟩ .approach with after := .finish };
      (recalibrating (some g) fetching).dsq.grant = some g ∧ g.begun = false) ∧
    (grantOf .jobPass ⟨0, 0⟩ .voting).phase = .voting := by decide +kernel

/-- A seek error, a seek timeout and another track's header; F at 0 and at 4 under the limit 6; retries 0 and 3 of 3. -/
theorem witness_SeekFaultRecalibrates :
    SeekFaultBy .seekError seeking ∧ SeekFaultBy .seekTimeoutExpiry (atTime 0 100 seeking) ∧
      SeekFaultBy (header 150 0 1 0 (check16 [0, 1, 0])) passing ∧ seeking.dsq.faults + 1 < seeking.dsq.set.fenceLimit ∧
      4 + 1 < seeking.dsq.set.fenceLimit ∧ spindleDown seeking.ixm = false ∧
      seeking.dsq.grant = some (grantOf .jobPass ⟨5, 2⟩ .approach) ∧
      (grantOf .jobPass ⟨5, 2⟩ .approach).phase ≠ .voting ∧
      (grantOf .jobPass ⟨5, 2⟩ .approach).retries < seeking.dsq.set.retries ∧ spindleOf seeking.ixm = .running ∧
      seeking.dsq.set.retries ≤ { grantOf .jobPass ⟨5, 2⟩ .approach with retries := 3 }.retries :=
  ⟨Or.inl rfl, ⟨rfl, ⟨0, 100⟩, rfl, by decide⟩,
    ⟨_, _, rfl, by decide +kernel, rfl, by decide +kernel, Or.inr (by decide +kernel)⟩, by decide⟩

/-- Each cause with no fence recorded: F at 5 of 6, the recalibrate timeout fallen, the fault line, the select line held
inactive; with a grant in flight, of a job and of a fetch, and with one whose batch is running. -/
theorem witness_FenceCausesRaiseTheFence :
    (let s := { seeking with dsq := { seeking.dsq with faults := 5 } };
      SeekFaultBy .seekError s ∧ s.dsq.set.fenceLimit ≤ s.dsq.faults + 1 ∧ s.dsq.fence = none) ∧
    (let s := atTime 0 1000 (driveIn .recalibrating none none (some ⟨0, 1000⟩) running);
      Fallen .recalibrateTimeoutExpiry s ∧ s.dsq.fence = none ∧ s.dsq.grant = none) ∧
    ContentionOn { passing with pins := { passing.pins with selectHeld := some false } } ∧
    passing.dsq.state ≠ .detached ∧ passing.dsq.fence = none ∧ passing.mcp.state ≠ .detached ∧
    passing.dsq.grant = some (grantOf .jobPass ⟨0, 0⟩ .inPass) ∧ (grantOf .jobPass ⟨0, 0⟩ .voting).phase = .voting ∧
    fetching.dsq.fence = none ∧ fetching.dsq.grant = some (grantOf .demandFetch ⟨0, 0⟩ .inPass) ∧
    passing.evq.snapshot = none ∧ passing.dsq.position = some ⟨0, 0, 0⟩ ∧
    (after .restDrive (requesting 0x51 [1, 0] running)).dsq.position = none ∧
    (after .restDrive (requesting 0x51 [1, 0] running)).dsq.lastPosition = some ⟨0, 0, 0⟩ :=
  ⟨⟨Or.inl rfl, by decide⟩, ⟨⟨rfl, _, rfl, by unfold Expiry.FallenAt; decide⟩, by decide⟩,
    ⟨false, rfl, by decide, by decide⟩, by decide +kernel⟩

/-- The lines in a seek, a recalibrate and a pass, FENCED and DETACHED; the select line let go, held active and held
inactive; a second cause in FENCED; and a settle wait, a rest with the spindle running and stopped, and the quiet
period, each as it falls, with nothing fallen right after reset. -/
theorem witness_DriveLinesAndWaitsEnd :
    (seeking.dsq.state = .seeking ∧ seeking.dsq.seekTarget = some 5 ∧ seeking.dsq.position = some ⟨0, 0, 0⟩ ∧
      (driveIn .recalibrating none none none running).dsq.state = .recalibrating) ∧
    ((after .bypassOn (requesting 0x52 [1] running)).dsq.state = .detached ∧ (fenced running).dsq.state = .fenced ∧
      (fenced running).dsq.fence.isSome) ∧
    (¬ ContentionOn running ∧ ¬ ContentionOn { running with pins := { running.pins with selectHeld := some true } } ∧
      ¬ ContentionOn { fenced running with pins := ⟨false, some false, true⟩ }) ∧
    (let s := atTime 0 15 (driveIn .settling (some (grantOf .jobPass ⟨0, 1⟩ .approach)) none (some ⟨0, 15⟩) running);
      (⟨0, 15⟩ : Expiry).length ≤ (s.clock.uptime - 0).toNat ∧ s.dsq.state = .settling ∧
      s.dsq.expiry = some ⟨0, 15⟩ ∧ s.dsq.grant = some (grantOf .jobPass ⟨0, 1⟩ .approach) ∧
      spindleOf s.ixm ≠ .unstable ∧ spindleOf (unstable s).ixm = .unstable ∧
      (grantOf .jobPass ⟨0, 1⟩ .approach).phase = .approach) ∧
    (driveIn .settling none none (some ⟨0, 15⟩) running).dsq.grant = none ∧
    (let s := atTime 0 500 (driveIn .resting none none (some ⟨0, 500⟩) running);
      (⟨0, 500⟩ : Expiry).length ≤ (s.clock.uptime - 0).toNat ∧ s.dsq.state = .resting ∧
      s.dsq.expiry = some ⟨0, 500⟩ ∧ spindleDown s.ixm = false) ∧
    spindleDown State.reset.ixm = true ∧
    (let s := atTime 0 60000 { running with dsq := { running.dsq with faults := 3, quiet := some ⟨0, 60000⟩ } };
      s.dsq.quiet = some ⟨0, 60000⟩ ∧ 60000 ≤ (s.clock.uptime - 0).toNat) ∧
    ∀ c, ¬ Fallen c { State.reset with clock := ⟨0, 0, 0⟩ } :=
  ⟨by decide, by decide +kernel, ⟨no_contention (by decide), no_contention (by decide), no_contention (by decide +kernel)⟩,
    by decide +kernel, rfl, by decide +kernel, by decide, by decide +kernel, nothing_fallen 0⟩

/-- A frame whose track's job holds it is offered by neither of the first two sources. -/
theorem not_offered {s : State} {f : Frame} {k : Nat} (h : (jobOf f.track s).any Job.holdsFrame = true) (hk : k < 4) :
    ¬ OfferedBy s f k := by
  have pinned : ¬ ∀ j, jobOf f.track s = some j → j.holdsFrame = false := by
    cases hj : jobOf f.track s with
    | none => rw [hj] at h; cases h
    | some j =>
      intro hp
      rw [hj] at h
      rw [Option.any_some, hp j rfl] at h
      cases h
  rintro (⟨-, -, hp, -⟩ | ⟨-, -, hp, -⟩ | ⟨rfl, -⟩ | ⟨rfl, -⟩)
  · exact pinned hp
  · exact pinned hp
  · exact absurd hk (by decide)
  · exact absurd hk (by decide)

/-- The port holding on 0/0 with eight frames of cylinder 9, each the frame of a job of the origin given, if any, and
export-pending or not. -/
def fullStore (o : Option Origin) (marked : Bool) : State :=
  let s := holding ((List.range 8).map fun h => { goodFrame ⟨9, h⟩ with exportPending := marked })
    (match o with
      | some x => (List.range 8).map fun h => { jobOn ⟨9, h⟩ .queued with origin := x }
      | none => []) [] running
  { s with mcp := { s.mcp with state := .seeking, hold := some ⟨0, 800⟩ } }

/-- A hold whose need is met from a free slot, and from each source of R124 in turn. -/
theorem witness_ArbitrationTakesTheFirstCandidate_hold :
    (let s := { running with mcp := { running.mcp with state := .seeking, hold := some ⟨0, 800⟩ } };
      s.dsq.state = .idle ∧ spindleOf s.ixm = .running ∧ s.vte.batch = none ∧ s.mcp.state = .seeking ∧
      frameOf s.mcp.track s = none ∧ s.tks.frames.length < 8) ∧
    (∀ s ∈ [fullStore none false, fullStore none true, fullStore (some .prefetch) false, fullStore (some .machine) false],
      s.dsq.state = .idle ∧ spindleOf s.ixm = .running ∧ s.vte.batch = none ∧ s.mcp.state = .seeking ∧
      frameOf s.mcp.track s = none ∧ 8 ≤ s.tks.frames.length ∧ s.tks.frames.head?.map Frame.track = some ⟨9, 0⟩ ∧
      (s.tks.frames.map Frame.track).Nodup) ∧
    OfferedBy (fullStore none false) (goodFrame ⟨9, 0⟩) 2 ∧
    OfferedBy (fullStore none true) { goodFrame ⟨9, 0⟩ with exportPending := true } 3 ∧
    (∀ f ∈ (fullStore none true).tks.frames, ¬ OfferedBy (fullStore none true) f 2) ∧
    OfferedBy (fullStore (some .prefetch) false) (goodFrame ⟨9, 0⟩) 4 ∧
    (∀ f ∈ (fullStore (some .prefetch) false).tks.frames, ∀ i, i < 4 → ¬ OfferedBy (fullStore (some .prefetch) false) f i) ∧
    OfferedBy (fullStore (some .machine) false) (goodFrame ⟨9, 0⟩) 5 ∧
    (∀ f ∈ (fullStore (some .machine) false).tks.frames, ∀ i, i < 5 → ¬ OfferedBy (fullStore (some .machine) false) f i) := by
  have jobs : ∀ o, (∀ f ∈ (fullStore (some o) false).tks.frames,
      (jobOf f.track (fullStore (some o) false)).any Job.holdsFrame = true) := by
    intro o; cases o <;> decide +kernel
  refine ⟨by decide +kernel, by decide +kernel, Or.inl ⟨rfl, by decide, ?_, by decide⟩,
    Or.inr (Or.inl ⟨rfl, by decide, ?_, rfl, rfl⟩), ?_,
    Or.inr (Or.inr (Or.inl ⟨rfl, { jobOn ⟨9, 0⟩ .queued with origin := .prefetch }, by decide +kernel, rfl, rfl, by decide⟩)), ?_,
    Or.inr (Or.inr (Or.inr ⟨rfl, jobOn ⟨9, 0⟩ .queued, by decide +kernel, rfl, rfl, by decide⟩)), ?_⟩
  · intro j h; cases h
  · intro j h; cases h
  · rintro f hf (⟨-, -, -, hp⟩ | ⟨h, -⟩ | ⟨h, -⟩ | ⟨h, -⟩)
    · have : ∀ f ∈ (fullStore none true).tks.frames, f.exportPending = true := by decide +kernel
      exact hp ⟨rfl, this f hf⟩
    · cases h
    · cases h
    · cases h
  · exact fun f hf i hi => not_offered (jobs _ f hf) hi
  · intro f hf i hi
    by_cases h4 : i < 4
    · exact not_offered (jobs _ f hf) h4
    · have hi4 : i = 4 := by omega
      subst hi4
      rintro (⟨h, -⟩ | ⟨h, -⟩ | ⟨-, j, hj, -, ho, -⟩ | ⟨h, -⟩)
      · cases h
      · cases h
      · have : ∀ f ∈ (fullStore (some .machine) false).tks.frames,
            (jobOf f.track (fullStore (some .machine) false)).all (fun j => j.origin != .prefetch) = true := by
          decide +kernel
        have hf' := this f hf
        rw [hj, Option.all_some, ho] at hf'
        cases hf'
      · cases h

/-- A drive that is not IDLE and a spindle not RUNNING; a QUEUED job of the current track at step 0 and 1, and a
STATION job without a frame with a slot free, the first in the queue; a prefetch; and no candidate. -/
theorem witness_ArbitrationTakesTheFirstCandidate :
    passing.dsq.state ≠ .idle ∧ spindleOf (unstable running).ixm ≠ .running ∧
    (let s := holding [frameOn ⟨0, 0⟩] [jobOn ⟨0, 0⟩ .queued] [] running;
      s.dsq.state = .idle ∧ spindleOf s.ixm = .running ∧ s.vte.batch = none ∧ s.mcp.state ≠ .seeking ∧
      Eligible s (jobOn ⟨0, 0⟩ .queued) ∧ (jobOn ⟨0, 0⟩ .queued).holdsFrame = true ∧ 1 ≤ (jobOn ⟨0, 0⟩ .queued).step ∧
      jobOrder s (jobOn ⟨0, 0⟩ .queued) = 2 ∧ s.jbq.ladder[(jobOn ⟨0, 0⟩ .queued).step - 1]? = some ⟨0, 0, 2⟩) ∧
    (let j := { jobOn ⟨3, 0⟩ .queued with origin := .station, holdsFrame := false, step := 0, fill := true };
      let s := holding [] [j, { j with track := ⟨4, 0⟩ }] [] running;
      s.mcp.state ≠ .seeking ∧ Eligible s j ∧ j.holdsFrame = false ∧ j.step = 0 ∧ jobOrder s j = 3 ∧
      ∀ x ∈ s.jbq.jobs, jobOrder s j ≤ jobOrder s x) ∧
    PrefetchFor { holding [frameOn ⟨0, 0⟩] [] [] running with
      dsq := { running.dsq with set := { running.dsq.set with prefetch := true } } } ⟨0, 1⟩ ∧
    ((∀ x ∈ running.jbq.jobs, ¬ Eligible running x) ∧ ∀ tr, ¬ PrefetchFor running tr) := by
  refine ⟨by decide, by decide, ⟨by decide, by decide, rfl, by decide, ⟨rfl, Or.inl rfl⟩, by decide +kernel⟩,
    ⟨by decide, ⟨rfl, Or.inr ⟨rfl, by decide, Or.inl (by decide)⟩⟩, by decide +kernel⟩,
    ⟨rfl, rfl, by decide, by decide, ?_, Or.inl (by decide)⟩, ⟨(fun x h => by cases h), (fun tr h => by cases h.1)⟩⟩
  intro h hh
  have : h = 0 := Nat.lt_one_iff.mp hh
  subst this
  decide

/-- Outside a pass; the last mark heard and the first not; a header, read through the window, check-good and of an open sector, of one not open, and check-bad;
and the nearest sector of one arrived midway between e_0 and e_1, and of one near the last, in a job pass and a fetch. -/
theorem witness_HeadersBeginCopies :
    running.rdc.pass = none ∧ passing.rdc.pass = some ⟨⟨0, 0⟩, [0, 1], 0, 16667, 0, 1, 2, 120, 150, 20⟩ ∧
      ((0x7FFFFFFF : Timer) - 0).toNat < 2147483648 ∧ 2147483648 ≤ ((0x80000000 : Timer) - 0).toNat ∧
      readHeader passing.rdc.shift (headerFlux (fluxOf 0) (fluxOf 0) (fluxOf 1) (fluxOf 0x8005) []) =
        ⟨0, 0, 1, 0x8005, 0⟩ ∧
      check16 [0, 0, 1] = 0x8005 ∧ (1 : Word).toNat < passing.geom.sectors ∧ (1 : Word).toNat ∈ [0, 1] ∧
      check16 [0, 0, 2] = 0x800F ∧ (2 : Word).toNat ∉ [0, 1] ∧ check16 [0, 0, 1] ≠ 0x8004 ∧
      (let p : PassContext := ⟨⟨0, 0⟩, [0, 1], 0, 16667, 0, 1, 2, 120, 150, 20⟩;
        (∀ x, x < p.sectors → timeDistance p 536 0 ≤ timeDistance p 536 x) ∧
        (∀ x, x < 0 → timeDistance p 536 0 < timeDistance p 536 x) ∧ 0 ∈ p.openSet ∧
        (∀ x, x < p.sectors → timeDistance p 15953 19 ≤ timeDistance p 15953 x) ∧
        (∀ x, x < 19 → timeDistance p 15953 19 < timeDistance p 15953 x) ∧ 19 ∉ p.openSet) ∧
      (passing.dsq.grant.map Grant.kind) = some .jobPass ∧
      (fetching.dsq.grant.map Grant.kind) = some .demandFetch ∧ fetching.jbq.fetch.isSome := by
  decide +kernel

/-- No transition is read as 256 zeros with the check word 0; and one in the last cell as the check word 1. -/
theorem no_flux_reads_zeros : readData 0 (dataFlux [] [] []) = ⟨zeros, 0⟩ := by decide +kernel

theorem last_cell_reads_one : readData 0 (dataFlux [] [124] []) = ⟨zeros, 1⟩ := by decide +kernel

/-- The seal of no transition, zeros with the check word 0, in a job pass with an OPEN entry, in a fetch and a fill. -/
theorem witness_GoodCopyResolvesItsSector :
    check16 (readData passing.rdc.shift (dataFlux [] [] [])).data.val = (readData passing.rdc.shift (dataFlux [] [] [])).check ∧
      passing.rdc.pass = some ⟨⟨0, 0⟩, [0, 1], 0, 16667, 0, 1, 2, 120, 150, 20⟩ ∧
      passing.rdc.assembly = some ⟨0, 0, 120, 0, 0⟩ ∧ passing.dsq.grant = some (grantOf .jobPass ⟨0, 0⟩ .inPass) ∧
      (grantOf .jobPass ⟨0, 0⟩ .inPass).kind = .jobPass ∧ (grantOf .jobPass ⟨0, 0⟩ .inPass).fill = false ∧
      fetching.dsq.grant = some (grantOf .demandFetch ⟨0, 0⟩ .inPass) ∧
      fetching.jbq.fetch = some ⟨[⟨0, 0, 0, none⟩], false⟩ ∧
      { grantOf .jobPass ⟨0, 0⟩ .inPass with fill := true }.fill = true ∧
      frameOf ⟨0, 0⟩ passing = some (frameOn ⟨0, 0⟩) ∧ (frameOn ⟨0, 0⟩).sectors[0]? = some .empty ∧
      SectorRec.empty.unresolved = true ∧ jobOf ⟨0, 0⟩ passing = some (jobOn ⟨0, 0⟩ .active) ∧
      entryOf ⟨0, 0⟩ passing = some (entryOn ⟨0, 0⟩ .opened .pending) ∧
      (entryOn ⟨0, 0⟩ .opened .pending).state = .opened := by
  refine ⟨?_, by decide +kernel⟩
  change check16 (readData 0 (dataFlux [] [] [])).data.val = (readData 0 (dataFlux [] [] [])).check
  rw [no_flux_reads_zeros]
  exact check16_zeros

/-- Five copies of a sector held, the lightest second. -/
def fiveHeld : List SealedCopy :=
  [8, 3, 6, 3, 7].map fun w => copyOf ⟨⟨0, 0⟩, 0⟩ w 1

/-- The seal of zeros with the check word 1: below the copy limit with a slot free, with none, and at the limit against
a lighter and an equal lightest copy; in a job pass and a fetch. -/
theorem witness_BadCopyIsPlaced :
    check16 (readData passing.rdc.shift (dataFlux [] [124] [])).data.val ≠
        (readData passing.rdc.shift (dataFlux [] [124] [])).check ∧
      passing.rdc.pass.isSome ∧ passing.rdc.assembly.isSome ∧
      (copiesOf ⟨⟨0, 0⟩, 0⟩ passing.cps).length < passing.vte.copyLimit ∧
      slotsInUse passing.cps < 96 ∧
      96 ≤ slotsInUse ⟨(List.range 24).map fun i => ⟨⟨⟨9, i⟩, 0⟩, (List.range 4).map fun _ => copyOf ⟨⟨9, i⟩, 0⟩ 8 1, true⟩⟩ ∧
      copiesOf ⟨⟨0, 0⟩, 0⟩ ⟨[⟨⟨⟨0, 0⟩, 0⟩, fiveHeld, false⟩]⟩ = fiveHeld ∧ passing.vte.copyLimit ≤ fiveHeld.length ∧
      fiveHeld = [copyOf ⟨⟨0, 0⟩, 0⟩ 8 1] ++ copyOf ⟨⟨0, 0⟩, 0⟩ 3 1 :: [6, 3, 7].map (fun w => copyOf ⟨⟨0, 0⟩, 0⟩ w 1) ∧
      (∀ y ∈ [copyOf ⟨⟨0, 0⟩, 0⟩ 8 1], 3 < y.weight) ∧
      (∀ y ∈ [6, 3, 7].map (fun w => copyOf ⟨⟨0, 0⟩, 0⟩ w 1), 3 ≤ y.weight) ∧
      3 < 8 - min 7 (min 255 (0 + 19) / 4) ∧ 8 - min 7 (min 255 (0 + 20) / 4) ≤ 3 ∧
      passing.dsq.grant = some (grantOf .jobPass ⟨0, 0⟩ .inPass) ∧
      fetching.dsq.grant = some (grantOf .demandFetch ⟨0, 0⟩ .inPass) ∧ fetching.jbq.fetch.isSome ∧
      fetching.rdc.assembly.isSome ∧
      frameOf ⟨0, 0⟩ passing = some (frameOn ⟨0, 0⟩) ∧ (frameOn ⟨0, 0⟩).sectors[0]? = some .empty := by
  refine ⟨?_, by decide +kernel⟩
  change check16 (readData 0 (dataFlux [] [124] [])).data.val ≠ (readData 0 (dataFlux [] [124] [])).check
  rw [last_cell_reads_one]
  exact check16_zeros ▸ by decide

/-- At the last bit of the check word: a majority of either bit, and a tie of 5 against 3 and 2. -/
theorem witness_VoteFollowsTheWeights :
    (let cs := [copyOf ⟨⟨0, 0⟩, 0⟩ 5 1, copyOf ⟨⟨0, 0⟩, 0⟩ 3 0, copyOf ⟨⟨0, 0⟩, 0⟩ 2 0];
      ((cs.filter fun c => (mediaWord c 256).getMsbD 15).map SealedCopy.weight).sum =
        ((cs.filter fun c => !(mediaWord c 256).getMsbD 15).map SealedCopy.weight).sum ∧
      cs = [] ++ copyOf ⟨⟨0, 0⟩, 0⟩ 5 1 :: [copyOf ⟨⟨0, 0⟩, 0⟩ 3 0, copyOf ⟨⟨0, 0⟩, 0⟩ 2 0] ∧
      ∀ x ∈ [copyOf ⟨⟨0, 0⟩, 0⟩ 3 0, copyOf ⟨⟨0, 0⟩, 0⟩ 2 0], x.weight ≤ 5) ∧
    (let cs := [copyOf ⟨⟨0, 0⟩, 0⟩ 8 1, copyOf ⟨⟨0, 0⟩, 0⟩ 7 0];
      ((cs.filter fun c => !(mediaWord c 256).getMsbD 15).map SealedCopy.weight).sum <
        ((cs.filter fun c => (mediaWord c 256).getMsbD 15).map SealedCopy.weight).sum ∧
      1 ≤ ((cs.filter fun c => !(mediaWord c 256).getMsbD 15).map SealedCopy.weight).sum) ∧
    (let cs := [copyOf ⟨⟨0, 0⟩, 0⟩ 8 1, copyOf ⟨⟨0, 0⟩, 0⟩ 8 1, copyOf ⟨⟨0, 0⟩, 0⟩ 8 1];
      (∀ c ∈ cs, c.words = ⟨zeros, 1⟩) ∧ 0 < totalWeight cs) := by decide +kernel

/-- The copies of no weight vote zeros, which is check-good, with margin 0. -/
def weightless : List SealedCopy :=
  []

theorem votedWord_weightless (i : Nat) : votedWord weightless i = 0 := by
  have bits : ∀ b, votedBit (votesAt weightless i b) (tieBit weightless i b) = false := fun _ => rfl
  unfold votedWord
  rw [List.map_congr_left (fun b _ => bits b)]
  decide +kernel

theorem votedWords_weightless : votedWords weightless = ⟨zeros, 0⟩ := by
  unfold votedWords
  rw [SectorWords.mk.injEq]
  refine ⟨Subtype.ext ?_, votedWord_weightless 256⟩
  exact (List.map_congr_left fun i _ => votedWord_weightless i).trans (by rw [List.map_const', List.length_range]; rfl)

/-- The copies of no weight vote zeros, check-good, with margin 0: VOTED under a minimum margin of 0 and WEAK under 1.
A VOTED member with its OPEN entry and job, and no batch. -/
theorem witness_BatchCompletionDelivers :
    voteOutcome 0 weightless = .voted ⟨zeros, 0⟩ (sectorMargin weightless) ∧
    (let s := { driveIn .voting (some (grantOf .jobPass ⟨0, 0⟩ .voting)) none none passing with
        rdc := running.rdc, vte := { passing.vte with batch := some ⟨⟨0, 0⟩, 1, 1, 0, [⟨0, weightless⟩]⟩ } };
      s.vte.batch = some ⟨⟨0, 0⟩, 1, 1, 0, [⟨0, weightless⟩]⟩ ∧ ([0] : List Nat).Nodup ∧
      frameOf ⟨0, 0⟩ s = some (frameOn ⟨0, 0⟩) ∧ (frameOn ⟨0, 0⟩).sectors[0]? = some .empty ∧
      entryOf ⟨0, 0⟩ s = some (entryOn ⟨0, 0⟩ .opened .pending) ∧
      (∃ o ∈ (entryOn ⟨0, 0⟩ .opened .pending).outcomes, o.sector = 0) ∧
      jobOf ⟨0, 0⟩ s = some (jobOn ⟨0, 0⟩ .active) ∧ (jobOn ⟨0, 0⟩ .active).fill = false ∧
      0 ∈ (jobOn ⟨0, 0⟩ .active).openSet) ∧
    running.vte.batch = none := by
  refine ⟨?_, by decide +kernel⟩
  unfold voteOutcome SectorWords.checkGood
  rw [votedWords_weightless, if_pos (by rw [check16_zeros]; rfl), if_pos (Nat.zero_le _)]

/-- A WEAK member under a minimum margin of 1. -/
theorem witness_BatchCompletionDelivers_weak :
    voteOutcome 1 weightless = .weak := by
  have word : ∀ i, leastOfWord weightless 0 i = 0 := fun i => by
    unfold leastOfWord
    generalize List.range 16 = l
    induction l with
    | nil => rfl
    | cons b l ih => rw [List.foldl_cons, Nat.zero_min]; exact ih
  have margin : sectorMargin weightless = 0 := by
    unfold sectorMargin
    generalize List.range 257 = l
    change l.foldl (leastOfWord weightless) 0 = 0
    induction l with
    | nil => rfl
    | cons i l ih => rw [List.foldl_cons, word]; exact ih
  unfold voteOutcome SectorWords.checkGood
  rw [votedWords_weightless, if_pos (by rw [check16_zeros]; rfl), margin]; rfl

/-- A job whose open set is empty, of a fill and not, with an entry and without; a job at step 0, its first step within the
ladder and above it; at step 1 with one pass of two done and with both; at the last step and above it, with a cycle left
and with none; a cooldown as it falls, 1 ms before, and of a job not COOLING; and no job. -/
theorem witness_JobsWalkTheLadder :
    (∀ j ∈ [{ jobOn ⟨0, 0⟩ .active with tallies := [] }, { jobOn ⟨0, 0⟩ .active with tallies := [], step := 0, fill := true }],
      jobOf j.track (holding [goodFrame ⟨0, 0⟩] [j] [] running) = some j ∧ j.tallies = [] ∧
      entryOf j.track (holding [goodFrame ⟨0, 0⟩] [j] [] running) = none) ∧
    (entryOf ⟨0, 0⟩ (holding [goodFrame ⟨0, 0⟩] [] [entryOn ⟨0, 0⟩ .opened .pending] running)).isSome ∧
    (running.jbq.length < { jobOn ⟨0, 0⟩ .active with step := 0, first := 9 }.first ∧
      running.jbq.length < { jobOn ⟨0, 0⟩ .active with step := 9 }.step ∧
      { running.jbq with cooldown := 0 }.cooldown = 0) ∧
    (let s := holding [frameOn ⟨0, 0⟩] [jobOn ⟨0, 0⟩ .active] [] running;
      jobOf ⟨0, 0⟩ s = some (jobOn ⟨0, 0⟩ .active) ∧ (jobOn ⟨0, 0⟩ .active).tallies ≠ [] ∧
      { jobOn ⟨0, 0⟩ .active with step := 0, fill := true }.first ≤ s.jbq.length ∧
      1 ≤ (jobOn ⟨0, 0⟩ .active).step ∧ (jobOn ⟨0, 0⟩ .active).step < s.jbq.length ∧
      s.jbq.ladder[0]? = some ⟨0, 0, 2⟩ ∧ (jobOn ⟨0, 0⟩ .active).done + 1 < 2 ∧
      2 ≤ { jobOn ⟨0, 0⟩ .active with done := 1 }.done + 1 ∧ { jobOn ⟨0, 0⟩ .active with step := 8 }.step = s.jbq.length ∧
      s.jbq.ladder[7]? = some ⟨0, 0, 3⟩ ∧ (jobOn ⟨0, 0⟩ .active).cycle < s.jbq.repeats ∧ 1 ≤ s.jbq.cooldown ∧
      s.jbq.repeats ≤ { jobOn ⟨0, 0⟩ .active with cycle := 1 }.cycle) ∧
    (let s := atTime 0 6133 (holding [] [coolingJob] [] running);
      jobOf ⟨305, 1⟩ s = some coolingJob ∧ coolingJob.cooldown = some ⟨1133, 5000⟩ ∧ coolingJob.state = .cooling ∧
      5000 ≤ (s.clock.uptime - 1133).toNat ∧ ((atTime 0 6132 s).clock.uptime - 1133).toNat < 5000) ∧
    { coolingJob with state := .queued }.state ≠ .cooling ∧ jobOf ⟨305, 1⟩ running = none := by decide +kernel

/-- A frame in its fetch with every sector GOOD but the first two; a fill's job with and without open sectors, one not a
fill's, and a track with an entry and without; a queue of 15 and of 16 jobs; and 511 and 512
entries, the last two sequences, and a closed and exported entry first or none. -/
theorem witness_JobEndHandsOn_fetch :
    (frameOf ⟨0, 0⟩ fetching = some (frameOn ⟨0, 0⟩) ∧ fetching.jbq.fetch = some ⟨[⟨0, 0, 0, none⟩], false⟩ ∧
      jobOf ⟨0, 0⟩ fetching = none ∧
      (List.range 20).filter (fun i => ((frameOn ⟨0, 0⟩).sectors[i]?).any fun r => !r.isGood) = [0, 1] ∧
      (List.range 20).filter (fun i => ((goodFrame ⟨0, 0⟩).sectors[i]?).any fun r => !r.isGood) = []) ∧
    (∀ x ∈ sixteenJobs running |>.jbq.jobs, ¬ (x.origin = .prefetch ∧ x.state ≠ .active)) ∧
    (sixteenJobs running).jbq.jobs.length = 16 ∧ jobOf ⟨0, 0⟩ (sixteenJobs running) = none ∧
    (let js := { jobOn ⟨8, 0⟩ .queued with origin := .prefetch } :: (List.range 15).map fun h => jobOn ⟨9, h⟩ .queued;
      js.length = 16 ∧ ∀ y ∈ (List.range 15).map (fun h => jobOn ⟨9, h⟩ .queued), y.track ≠ ⟨8, 0⟩ ∧ y.origin ≠ .prefetch) ∧
    (let j := { jobOn ⟨0, 0⟩ .queued with origin := .station, holdsFrame := false, step := 0, fill := true };
      jobOf ⟨0, 0⟩ { fetching with jbq := { fetching.jbq with jobs := [j] } } = some j ∧ j.fill = true ∧ j.tallies ≠ [] ∧
      { j with tallies := [] }.tallies = [] ∧ (jobOn ⟨0, 0⟩ .active).fill = false ∧ entryOf ⟨0, 0⟩ fetching = none ∧
      entryOf ⟨0, 0⟩ passing = some (entryOn ⟨0, 0⟩ .opened .pending)) ∧
    (4294967295 ≤ 4294967295 ∧ 4294967295 < 4294967296 ∧ running.rct.nextSequence ≤ 4294967295) ∧
    (let e := { entryOn ⟨9, 0⟩ .recovered .pending with exported := true };
      let es := e :: List.replicate 511 (entryOn ⟨9, 0⟩ .recovered .pending);
      es.length = 512 ∧ e.exported = true ∧ e.state ≠ .opened ∧
      ∀ y ∈ List.replicate 512 (entryOn ⟨9, 0⟩ .recovered .pending), ¬ (y.exported = true ∧ y.state ≠ .opened)) := by
  decide +kernel

/-- A job over a frame with an EMPTY and an OPEN sector, with an OPEN entry, and without an entry; without a frame; and
with its fill pending over a frame still wholly EMPTY. -/
theorem witness_JobEndHandsOn :
    jobOf (jobOn ⟨0, 0⟩ .active).track passing = some (jobOn ⟨0, 0⟩ .active) ∧
      (jobOn ⟨0, 0⟩ .active).holdsFrame = true ∧ frameOf ⟨0, 0⟩ passing = some (frameOn ⟨0, 0⟩) ∧
      (frameOn ⟨0, 0⟩).allEmpty = false ∧ 1 ∈ (jobOn ⟨0, 0⟩ .active).openSet ∧
      (frameOn ⟨0, 0⟩).sectors[1]? = some (.opened ⟨zeros, 1⟩ 5) ∧
      entryOf ⟨0, 0⟩ passing = some (entryOn ⟨0, 0⟩ .opened .pending) ∧
      (entryOn ⟨0, 0⟩ .opened .pending).state = .opened ∧
      ⟨0, .pending⟩ ∈ (entryOn ⟨0, 0⟩ .opened .pending).outcomes ∧
      (jobOn ⟨0, 0⟩ .active).tallies.find? (fun z => z.sector == 0) = some ⟨0, 0, 0, none⟩ ∧
      entryOf ⟨0, 0⟩ (holding [frameOn ⟨0, 0⟩] [jobOn ⟨0, 0⟩ .active] [] running) = none ∧
      (let j := { jobOn ⟨0, 0⟩ .queued with origin := .station, holdsFrame := false, step := 0, fill := true };
        jobOf j.track (holding [] [j] [] running) = some j ∧ j.holdsFrame = false) ∧
      (let j := { jobOn ⟨0, 0⟩ .queued with origin := .station, step := 0, fill := true };
        let f : Frame := ⟨⟨0, 0⟩, List.replicate 20 .empty, false⟩;
        j.holdsFrame = true ∧ j.fill = true ∧ f.allEmpty = true ∧ frameOf ⟨0, 0⟩ (holding [f] [j] [] running) = some f) := by
  decide +kernel

/-- The port READY and SEEKING; SEEK of 399 and 400; HEAD of the current head, of 4 and of 5; frames fully resolved, not,
and none; RECALIBRATE in SEEK_ERROR; and NOT_READY. -/
theorem witness_MotionsBeginHolds :
    running.pins.unitSelect = true ∧ running.mcp.state = .ready ∧ State.reset.pins.unitSelect = false ∧
      (after (.seek 3) running).mcp.state = .seeking ∧ (399 : BitVec 10).toNat < running.geom.cylinders ∧
      running.geom.cylinders ≤ (400 : BitVec 10).toNat ∧ (0 : BitVec 4).toNat = running.mcp.track.head ∧
      (4 : BitVec 4).toNat < running.geom.heads ∧ running.geom.heads ≤ (5 : BitVec 4).toNat ∧
      (4 : BitVec 4).toNat ≠ running.mcp.track.head ∧ (goodFrame ⟨0, 4⟩).fullyResolved = true ∧
      frameOf ⟨0, 4⟩ (holding [goodFrame ⟨0, 4⟩] [] [] running) = some (goodFrame ⟨0, 4⟩) ∧
      (frameOn ⟨0, 4⟩).fullyResolved = false ∧ frameOf ⟨0, 4⟩ running = none ∧
      (after (.seek 400) running).mcp.state = .seekError ∧
      ({ running with mcp := { running.mcp with state := .notReady } }).mcp.state ≠ .ready := by decide +kernel

/-- A hold at its expiry and 1 ms before it, and none; FAULT, selected and not, and READY. -/
theorem witness_HoldsAndFaultsEnd :
    (let s := { atTime 0 800 running with mcp := { running.mcp with state := .seeking, hold := some ⟨0, 800⟩ } };
      s.mcp.state = .seeking ∧ s.mcp.hold = some ⟨0, 800⟩ ∧ 800 ≤ (s.clock.uptime - 0).toNat ∧
      ((atTime 0 799 s).clock.uptime - 0).toNat < 800) ∧
    ¬ Fallen .holdExpiry { State.reset with clock := ⟨0, 0, 0⟩ } ∧
    running.pins.unitSelect = true ∧ State.reset.pins.unitSelect = false ∧ { running.mcp with state := .fault }.state = .fault ∧
    running.mcp.state ≠ .fault := ⟨by decide +kernel, nothing_fallen 0 _, by decide⟩

/-- A gate of sector 0: not selected, taken already; an overlay entry; no frame; a head outside the geometry; a frame
in the middle of the use order, EMPTY, OPEN, GOOD, RECOVERED, FAILED with and without data. -/
theorem witness_GatesAreTakenOncePerPassing :
    State.reset.pins.unitSelect = false ∧ (after .write running).mcp.gateTaken = true ∧
      running.pins.unitSelect = true ∧ running.mcp.state = .ready ∧ running.mcp.gateTaken = false ∧
      overlayOf ⟨⟨0, 0⟩, 0⟩ { running with ovl := ⟨[⟨⟨⟨0, 0⟩, 0⟩, zeros, 1⟩]⟩ } = some ⟨⟨⟨0, 0⟩, 0⟩, zeros, 1⟩ ∧
      overlayOf ⟨⟨0, 0⟩, 0⟩ running = none ∧ frameOf ⟨0, 0⟩ running = none ∧ running.geom.heads ≤ 5 ∧
      (0 : Nat) < running.geom.heads ∧
      (holding [goodFrame ⟨0, 1⟩, frameOn ⟨0, 0⟩, goodFrame ⟨0, 2⟩] [] [] running).tks.frames =
        [goodFrame ⟨0, 1⟩] ++ frameOn ⟨0, 0⟩ :: [goodFrame ⟨0, 2⟩] ∧
      (∀ x ∈ [goodFrame ⟨0, 1⟩] ++ [goodFrame ⟨0, 2⟩], x.track ≠ ⟨0, 0⟩) ∧
      (frameOn ⟨0, 0⟩).sectors[0]? = some .empty ∧ (frameOn ⟨0, 0⟩).sectors[1]? = some (.opened ⟨zeros, 1⟩ 5) ∧
      (frameOn ⟨0, 0⟩).sectors[19]? = some (.good ⟨zeros, 0⟩) ∧ (failedFrame ⟨0, 0⟩).sectors[0]? = some (.failed none) ∧
      (failedFrame ⟨0, 0⟩).sectors[1]? = some (.failed (some (⟨zeros, 1⟩, 5))) := by decide +kernel

/-- A WRITE under way of an address held, of a new one, and with 64 others held; and none under way. -/
theorem witness_WritesAreStored :
    running.mcp.activity = .none ∧ (after .write running).mcp.activity = .writing ⟨⟨0, 0⟩, 0⟩ ∧
      (after .write running).mcp.state = .ready ∧ (after .write running).pins.unitSelect = true ∧
      running.mcp.gateTaken = false ∧ running.geom.heads ≤ 5 ∧
      overlayOf ⟨⟨0, 0⟩, 0⟩ { running with ovl := ⟨[⟨⟨⟨0, 0⟩, 0⟩, zeros, 1⟩]⟩ } = some ⟨⟨⟨0, 0⟩, 0⟩, zeros, 1⟩ ∧
      overlayOf ⟨⟨0, 0⟩, 0⟩ running = none ∧ running.ovl.entries.length < 64 ∧
      (let s := { running with ovl := ⟨(List.range 64).map fun i => ⟨⟨⟨9, 0⟩, i⟩, zeros, 1⟩⟩ };
        overlayOf ⟨⟨0, 0⟩, 0⟩ s = none ∧ 64 ≤ s.ovl.entries.length) := by decide +kernel

/-- The index at 16,667 and 16,666; the pulse of sector 1 at 833 and 832; the last sector; and the port in every state,
selected and not, with an answer under way and none. -/
theorem witness_EmulatedRotationTurns :
    (let s := atTime 16667 16 running; s.mcp.emu.period ≤ (s.clock.rotationTimer - s.mcp.emu.indexAt).toNat) ∧
    (let s := atTime 16666 16 running; (s.clock.rotationTimer - s.mcp.emu.indexAt).toNat < s.mcp.emu.period) ∧
    (let s := atTime 833 0 running; s.mcp.emu.passing + 1 < s.mcp.emu.sectors ∧
      (s.mcp.emu.passing + 1) * s.mcp.emu.period / s.mcp.emu.sectors ≤ (s.clock.rotationTimer - s.mcp.emu.indexAt).toNat) ∧
    (let s := atTime 832 0 running; (s.clock.rotationTimer - s.mcp.emu.indexAt).toNat <
      (s.mcp.emu.passing + 1) * s.mcp.emu.period / s.mcp.emu.sectors) ∧
    (⟨0, 16667, 20, 19⟩ : EmuRotation).sectors ≤ (⟨0, 16667, 20, 19⟩ : EmuRotation).passing + 1 ∧
    (after .bypassOn (requesting 0x52 [1] running)).mcp.state = .detached ∧ State.reset.mcp.state = .notReady ∧
    State.reset.pins.unitSelect = false ∧ running.pins.unitSelect = true ∧ running.mcp.state = .ready ∧
    (after (.seek 3) running).mcp.state = .seeking ∧ (after (.seek 400) running).mcp.state = .seekError ∧
    (after .write { running with mcp := { running.mcp with track := ⟨0, 5⟩ } }).mcp.state = .fault ∧
    (∃ a, (after .read (holding [goodFrame ⟨0, 0⟩] [] [] running)).mcp.activity = .reading (some a)) ∧
    running.mcp.activity = .none := by
  refine ⟨by decide +kernel, by decide +kernel, by decide +kernel, by decide +kernel, by decide, by decide +kernel, by decide,
    by decide, by decide, by decide, by decide +kernel, by decide +kernel, by decide +kernel,
    ⟨_, test_read_of_a_failed_sector.2⟩, by decide⟩

/-- 31 and 32 records held; either mode; a record at the moment a pulse began, later, and in a gap; a pulse at 20 and 19
µs, alone and with one owed; a gap at 2 and 1 µs. -/
theorem witness_EventsAndAttentionFollow :
    (let r : EventRec := ⟨0, .jobClean, none, 0⟩; (List.replicate 31 r).length < 32 ∧ 32 ≤ (List.replicate 32 r).length) ∧
    running.mcp.attnPulse = false ∧ { running.mcp with attnPulse := true }.attnPulse = true ∧ running.evq.pulse = .none ∧
    (¬ Fallen .attentionPulseEnd { State.reset with clock := ⟨0, 0, 0⟩ } ∧
      ¬ Fallen .attentionGapEnd { State.reset with clock := ⟨0, 0, 0⟩ }) ∧
    (let s := offer .jobClean none 0 { running with mcp := { running.mcp with attnPulse := true } };
      s.evq.pulse = .high 0 0 ∧ s.clock.rotationTimer = 0 ∧ (atTime 5 0 s).clock.rotationTimer ≠ 0 ∧
      (offer .jobClean none 0 s).evq.pulse = .high 0 1 ∧
      20 ≤ ((atTime 20 0 s).clock.rotationTimer - 0).toNat ∧ ((atTime 19 0 s).clock.rotationTimer - 0).toNat < 20 ∧
      (offer .jobClean none 0 (atTime 5 0 s)).evq.pulse = .gap 5 0 ∧
      2 ≤ ((atTime 7 0 s).clock.rotationTimer - 5).toNat ∧ ((atTime 6 0 s).clock.rotationTimer - 5).toNat < 2 ∧
      (after .attentionGapEnd (atTime 7 0 (offer .jobClean none 0 (offer .jobClean none 0 (atTime 5 0 s))))).evq.pulse =
        .high 7 1) := by
  refine ⟨by decide, by decide, by decide, by decide, ⟨nothing_fallen 0 _, nothing_fallen 0 _⟩, by decide +kernel⟩

end Sys2Proof.Tests
end

section
/-! PROOF. The two statements of spec/00: what an idle step takes, and which commands reach the clock, the input lines,
the geometry, the Index Monitor and the overlay. -/

namespace Sys2Proof.Machine

variable {s t : State}

/-! ### What has fallen, as the model tests it (R1) -/

theorem Expiry.due_iff (e : Expiry) (now : Timer) : e.due now = true ↔ e.FallenAt now :=
  decide_eq_true_iff

theorem dueAt_iff (o : Option Expiry) (now : Timer) :
    dueAt o now = true ↔ ∃ e, o = some e ∧ e.FallenAt now := by
  cases o with
  | none => simp [dueAt]
  | some e => simp [dueAt, Expiry.due_iff]

theorem windowDue_iff (w : Window) (s : State) :
    windowDue w s = true ↔ s.ixm.window = w ∧ ∃ e, s.ixm.expiry = some e ∧ e.FallenAt s.clock.rotationTimer := by
  simp [windowDue, dueAt_iff]

theorem operationDue_iff (st : DsqState) (s : State) :
    operationDue st s = true ↔ s.dsq.state = st ∧ ∃ e, s.dsq.expiry = some e ∧ e.FallenAt s.clock.uptime := by
  simp [operationDue, dueAt_iff]

theorem cooldownDue_iff (j : Job) (s : State) :
    cooldownDue j s = true ↔ j.state = .cooling ∧ ∃ e, j.cooldown = some e ∧ e.FallenAt s.clock.uptime := by
  simp [cooldownDue, dueAt_iff]

theorem holdDue_iff (s : State) :
    (s.mcp.state == .seeking && dueAt s.mcp.hold s.clock.uptime) = true ↔ Fallen .holdExpiry s := by
  simp [Fallen, dueAt_iff]

theorem emulatedIndexDue_iff (s : State) : emulatedIndexDue s = true ↔ Fallen .emulatedIndex s :=
  decide_eq_true_iff

theorem sectorPulseDue_iff (s : State) : sectorPulseDue s = true ↔ Fallen .sectorPulse s := by
  rw [sectorPulseDue, Bool.and_eq_true]
  exact and_congr decide_eq_true_iff decide_eq_true_iff

theorem pulseDue_iff (s : State) : pulseDue s.clock.rotationTimer s.evq = true ↔ Fallen .attentionPulseEnd s := by
  unfold pulseDue Fallen
  cases s.evq.pulse with
  | high since owed =>
    exact decide_eq_true_iff.trans ⟨fun passed => ⟨since, owed, rfl, passed⟩,
      by rintro ⟨_, _, ⟨⟩, passed⟩; exact passed⟩
  | _ => simp

theorem gapDue_iff (s : State) : gapDue s.clock.rotationTimer s.evq = true ↔ Fallen .attentionGapEnd s := by
  unfold gapDue Fallen
  cases s.evq.pulse with
  | gap since owed =>
    exact decide_eq_true_iff.trans ⟨fun passed => ⟨since, owed, rfl, passed⟩,
      by rintro ⟨_, _, ⟨⟩, passed⟩; exact passed⟩
  | _ => simp

/-! ### The fixed order (log entry 3) -/

/-- The commands that take an expiry of which there is one; only the cooldowns are one for each job. -/
def singleExpiries : List Instr :=
  [.startupWindowExpiry, .closedWindowExpiry, .openWindowExpiry, .resyncLimitExpiry, .seekTimeoutExpiry,
    .recalibrateTimeoutExpiry, .settleWaitEnd, .restEnd, .quietExpiry, .holdExpiry, .emulatedIndex, .sectorPulse,
    .attentionPulseEnd, .attentionGapEnd]

/-- Nothing falls but these expiries and the cooldowns. -/
theorem Fallen.cases {c : Instr} (h : Fallen c s) :
    c ∈ singleExpiries ∨ ∃ cyl head, c = .cooldownExpiry cyl head := by
  cases c <;> simp [singleExpiries] <;> exact h

theorem fallenOrder_injective_on_singleExpiries :
    ∀ c ∈ singleExpiries, ∀ d ∈ singleExpiries, fallenOrder c = fallenOrder d → c = d := by
  decide

theorem fallenOrder_ne_cooldown : ∀ c ∈ singleExpiries, fallenOrder c ≠ 9 := by
  decide

theorem fallenOrder_le (c : Instr) : fallenOrder c ≤ 14 := by
  unfold fallenOrder
  split <;> decide

/-- `o` is a fallen command at place `n` of the order, wherever one has fallen there. -/
structure TakesPlace (n : Nat) (s : State) (o : Option Instr) : Prop where
  fallen : ∀ c, o = some c → Fallen c s ∧ fallenOrder c = n
  complete : ∀ c, Fallen c s → fallenOrder c = n → o.isSome

/-- `o` is the first of the fallen commands whose place is `n` or a later one. -/
structure TakesFirstFrom (n : Nat) (s : State) (o : Option Instr) : Prop where
  fallen : ∀ c, o = some c → Fallen c s ∧ n ≤ fallenOrder c
  first : ∀ c, Fallen c s → n ≤ fallenOrder c → ∃ d, o = some d ∧ fallenOrder d ≤ fallenOrder c

theorem whenDue_eq_some {b : Bool} {c d : Instr} : whenDue b c = some d ↔ b = true ∧ c = d := by
  cases b <;> simp [whenDue]

theorem orElse_eq_some {a b : Option Instr} {c : Instr} :
    (a.orElse fun _ => b) = some c ↔ a = some c ∨ a = none ∧ b = some c :=
  Option.orElse_eq_some a b c

/-- An expiry of which there is one takes its place, if its condition is that it has fallen. -/
theorem TakesPlace.whenDue {n : Nat} {b : Bool} {c : Instr} (hb : b = true ↔ Fallen c s) (hc : c ∈ singleExpiries)
    (hn : fallenOrder c = n) : TakesPlace n s (whenDue b c) where
  fallen d hd := by
    obtain ⟨due, rfl⟩ := whenDue_eq_some.mp hd
    exact ⟨hb.mp due, hn⟩
  complete d hd hdn := by
    have same : d = c := by
      rcases hd.cases with single | ⟨cyl, head, rfl⟩
      · exact fallenOrder_injective_on_singleExpiries d single c hc (hdn.trans hn.symm)
      · exact absurd (hn.trans hdn.symm) (fallenOrder_ne_cooldown c hc)
    subst same
    simp [Machine.whenDue, hb.mpr hd]

/-- The jobs' cooldowns take the place between the quiet period's expiry and the hold's (R106). -/
theorem cooldownFallen_takesPlace (s : State) : TakesPlace 9 s (cooldownFallen s) where
  fallen c hc := by
    obtain ⟨j, found, rfl⟩ := Option.map_eq_some_iff.mp hc
    have due : cooldownDue j s = true := List.find?_some (p := (cooldownDue · s)) found
    exact ⟨⟨j, List.mem_of_find?_eq_some found, rfl, (cooldownDue_iff j s).mp due⟩, rfl⟩
  complete c hc hn := by
    rcases hc.cases with single | ⟨cyl, head, rfl⟩
    · exact absurd hn (fallenOrder_ne_cooldown c single)
    · obtain ⟨j, hj, -, due⟩ := hc
      simpa [cooldownFallen] using ⟨j, hj, (cooldownDue_iff j s).mpr due⟩

theorem TakesFirstFrom.last {o : Option Instr} (h : TakesPlace 14 s o) : TakesFirstFrom 14 s o where
  fallen c hc := ⟨(h.fallen c hc).1, (h.fallen c hc).2.ge⟩
  first c hc hn := by
    have place : fallenOrder c = 14 := (fallenOrder_le c).antisymm hn
    obtain ⟨d, hd⟩ := Option.isSome_iff_exists.mp (h.complete c hc place)
    exact ⟨d, hd, ((h.fallen d hd).2.trans place.symm).le⟩

/-- What takes place `n`, or else the first from the next place on, is the first from place `n` on. -/
theorem TakesFirstFrom.orElse {n : Nat} {a b : Option Instr} (ha : TakesPlace n s a) (hb : TakesFirstFrom (n + 1) s b) :
    TakesFirstFrom n s (a.orElse fun _ => b) := by
  cases a with
  | some d =>
    obtain ⟨fallen, place⟩ := ha.fallen d rfl
    exact ⟨by rintro _ ⟨⟩; exact ⟨fallen, place.ge⟩, fun c _ hn => ⟨d, rfl, place.le.trans hn⟩⟩
  | none =>
    refine ⟨fun c hc => ?_, fun c hc hn => hb.first c hc (hn.lt_of_ne fun place => ?_)⟩
    · obtain ⟨fallen, later⟩ := hb.fallen c hc
      exact ⟨fallen, by omega⟩
    · exact absurd (ha.complete c hc place.symm) (by simp)

/-- With no command waiting the first expiry in the fixed order that has fallen is due (log entry 3). -/
theorem dueCommand_takesFirst (s : State) : TakesFirstFrom 0 s (dueCommand s) :=
  .orElse (.whenDue (windowDue_iff .startup s) (by decide) rfl) <|
  .orElse (.whenDue (windowDue_iff .closed s) (by decide) rfl) <|
  .orElse (.whenDue (windowDue_iff .opened s) (by decide) rfl) <|
  .orElse (.whenDue (windowDue_iff .resync s) (by decide) rfl) <|
  .orElse (.whenDue (operationDue_iff .seeking s) (by decide) rfl) <|
  .orElse (.whenDue (operationDue_iff .recalibrating s) (by decide) rfl) <|
  .orElse (.whenDue (operationDue_iff .settling s) (by decide) rfl) <|
  .orElse (.whenDue (operationDue_iff .resting s) (by decide) rfl) <|
  .orElse (.whenDue (dueAt_iff s.dsq.quiet s.clock.uptime) (by decide) rfl) <|
  .orElse (cooldownFallen_takesPlace s) <|
  .orElse (.whenDue (holdDue_iff s) (by decide) rfl) <|
  .orElse (.whenDue (emulatedIndexDue_iff s) (by decide) rfl) <|
  .orElse (.whenDue (sectorPulseDue_iff s) (by decide) rfl) <|
  .orElse (.whenDue (pulseDue_iff s) (by decide) rfl) <|
  .last (.whenDue (gapDue_iff s) (by decide) rfl)

theorem dueCommand_eq_none (h : ∀ c, ¬ Fallen c s) : dueCommand s = none :=
  Option.eq_none_iff_forall_ne_some.mpr fun c hc => h c ((dueCommand_takesFirst s).fallen c hc).1

/-! ### The first cooldown in queue order (R106) -/

/-- A cooldown that is due is the one the queue of jobs gives; no other place of the order holds a cooldown. -/
theorem cooldownFallen_of_dueCommand {cyl head : Nat} (h : dueCommand s = some (.cooldownExpiry cyl head)) :
    cooldownFallen s = some (.cooldownExpiry cyl head) := by
  simp only [dueCommand, orElse_eq_some, whenDue_eq_some, reduceCtorEq, and_false, or_false, false_or] at h
  tauto

theorem cooldownFallen_split {cyl head : Nat} (h : cooldownFallen s = some (.cooldownExpiry cyl head)) :
    ∃ pre j post, s.jbq.jobs = pre ++ j :: post ∧ j.track = ⟨cyl, head⟩ ∧
      ∀ x ∈ pre, ∀ e, x.state = .cooling → x.cooldown = some e → ¬ e.FallenAt s.clock.uptime := by
  obtain ⟨j, found, same⟩ := Option.map_eq_some_iff.mp h
  obtain ⟨-, pre, post, parts, before⟩ := List.find?_eq_some_iff_append.mp found
  refine ⟨pre, j, post, parts, by cases same; rfl, fun x hx e cooling pending fell => ?_⟩
  have notDue := before x hx
  simp [(cooldownDue_iff x s).mpr ⟨cooling, e, pending, fell⟩] at notDue

/-! ### The idle step (R1; log entry 1) -/

theorem step_of_due {c : Instr} (hp : s.pending = []) (h : dueCommand s = some c) : step s = exec c s := by
  simp [step, idleStep, hp, h]

theorem step_of_nothing_due (hp : s.pending = []) (h : dueCommand s = none) : step s = .next (passTime s) := by
  simp [step, idleStep, hp, h]

theorem passTime_changes (s : State) : ChangesOnly [.clock, .ixm] s (passTime s) :=
  ((updClock_changes _).mono (by decide)).andThen (updIxm_changes _) (by decide)

theorem passTime_ixm (s : State) : (passTime s).ixm = { s.ixm with line :=
    ⟨if s.ixm.line.restarted.isSome then 1 else min 2147483648 (s.ixm.line.since + 1),
      min 2147483648 (s.ixm.line.taken + 1), none⟩ } := rfl

theorem advanceClock_within {c : Clock} (h : c.subMs + 1 < 1000) :
    (advanceClock c).uptime = c.uptime ∧ (advanceClock c).subMs = c.subMs + 1 := by
  rcases (advanceClock_cases c).2 with ⟨-, same⟩ | ⟨full, -⟩
  · exact same
  · omega

theorem advanceClock_thousandth {c : Clock} (h : 1000 ≤ c.subMs + 1) :
    (advanceClock c).uptime = c.uptime + 1 ∧ (advanceClock c).subMs = 0 := by
  rcases (advanceClock_cases c).2 with ⟨short, -⟩ | ⟨-, next⟩
  · omega
  · exact next

/-- Settles O2: the due command is the first fallen in the fixed order, place by place, and time passes where none is. -/
theorem idleStepTakesDueOrPassesTime : Obligations.IdleStepTakesDueOrPassesTime := by
  intro s hp
  have due := dueCommand_takesFirst s
  refine ⟨fun c h => ⟨step_of_due hp h, (due.fallen c h).1⟩, fun c h => due.first c h (Nat.zero_le _),
    fun c h hd => cooldownFallen_split (cooldownFallen_of_dueCommand hd), fun nothing => ?_⟩
  exact ⟨passTime s, step_of_nothing_due hp (dueCommand_eq_none nothing), passTime_changes s,
    (advanceClock_cases s.clock).1, advanceClock_within, advanceClock_thousandth, passTime_ixm s⟩

/-! ### The blocks that each command may reach -/

/-- The blocks that no one command has to itself. -/
def sharedBlocks : List Block :=
  [.dsq, .rdc, .cps, .vte, .jbq, .tks, .rct, .mcp, .stl, .evq]

/-- Of the input lines, the geometry, the Index Monitor and the overlay, the block that the command may change. -/
def ownBlocks : Instr → List Block
  | .driveFaultAsserted _ | .contentionSeen _ | .unitSelect _ => [.pins]
  | .setGeometry => [.geom]
  | .indexQualified _ | .startupWindowExpiry | .closedWindowExpiry | .openWindowExpiry | .resyncLimitExpiry
  | .setRotation | .softReset => [.ixm]
  | .dropOverlay | .writeDataComplete _ => [.ovl]
  | _ => []

theorem CompletesWithin.own {bs : List Block} {c : Instr} (h : CompletesWithin bs c s) (own : List Block)
    (ho : ownBlocks c = own) (sub : bs ⊆ own ++ sharedBlocks) : CompletesWithin (ownBlocks c ++ sharedBlocks) c s :=
  h.mono (ho ▸ sub)

theorem CompletesWithin.shared {bs : List Block} {c : Instr} (h : CompletesWithin bs c s) (ho : ownBlocks c = [])
    (sub : bs ⊆ sharedBlocks) : CompletesWithin (ownBlocks c ++ sharedBlocks) c s :=
  h.own [] ho sub

/-- Every command but power-on completes, within its own block and the shared ones. -/
theorem exec_within (c : Instr) (s : State) (hc : c ≠ .powerOnReset) :
    CompletesWithin (ownBlocks c ++ sharedBlocks) c s := by
  cases c with
  | powerOnReset => exact absurd rfl hc
  | indexQualified a => exact (indexQualified_within a).own [.ixm] rfl (by decide)
  | startupWindowExpiry => exact startupWindowExpiry_within.own [.ixm] rfl (by decide)
  | closedWindowExpiry => exact closedWindowExpiry_within.own [.ixm] rfl (by decide)
  | openWindowExpiry => exact openWindowExpiry_within.own [.ixm] rfl (by decide)
  | resyncLimitExpiry => exact resyncLimitExpiry_within.own [.ixm] rfl (by decide)
  | seekComplete c => exact (seekComplete_within c).shared rfl (by decide)
  | seekError => exact seekError_within.shared rfl (by decide)
  | seekTimeoutExpiry => exact seekTimeoutExpiry_within.shared rfl (by decide)
  | recalibrateTimeoutExpiry => exact recalibrateTimeoutExpiry_within.shared rfl (by decide)
  | settleWaitEnd => exact settleWaitEnd_within.shared rfl (by decide)
  | restEnd => exact restEnd_within.shared rfl (by decide)
  | quietExpiry => exact quietExpiry_within.shared rfl (by decide)
  | driveFaultAsserted l => exact (driveFaultAsserted_within l).own [.pins] rfl (by decide)
  | contentionSeen held => exact (contentionSeen_within held).own [.pins] rfl (by decide)
  | header mark cyl hd sector check out => exact (header_within mark cyl hd sector check out).shared rfl (by decide)
  | copySeal data check out => exact (copySeal_within data check out).shared rfl (by decide)
  | batchCompletion => exact batchCompletion_within.shared rfl (by decide)
  | cooldownExpiry cyl hd => exact (cooldownExpiry_within cyl hd).shared rfl (by decide)
  | holdExpiry => exact holdExpiry_within.shared rfl (by decide)
  | emulatedIndex => exact emulatedIndex_within.shared rfl (by decide)
  | sectorPulse => exact sectorPulse_within.shared rfl (by decide)
  | seek cyl => exact (seek_within cyl).shared rfl (by decide)
  | head hd => exact (head_within hd).shared rfl (by decide)
  | recalibrate => exact recalibrate_within.shared rfl (by decide)
  | read => exact read_within.shared rfl (by decide)
  | write => exact write_within.shared rfl (by decide)
  | writeDataComplete d => exact (writeDataComplete_within d).own [.ovl] rfl (by decide)
  | faultClear => exact faultClear_within.shared rfl (by decide)
  | transferStart => exact transferStart_within.shared rfl (by decide)
  | requestCodeByte c => exact (requestCodeByte_within c).shared rfl (by decide)
  | frameComplete l p c => exact (frameComplete_within l p c).shared rfl (by decide)
  | selectRise => exact selectRise_within.shared rfl (by decide)
  | fetchFirstByte => exact fetchFirstByte_within.shared rfl (by decide)
  | responseReleased => exact responseReleased_within.shared rfl (by decide)
  | unknownRequest => exact unknownRequest_within.shared rfl (by decide)
  | status => exact status_within.shared rfl (by decide)
  | getEvents => exact getEvents_within.shared rfl (by decide)
  | getSnapshot => exact getSnapshot_within.shared rfl (by decide)
  | getStats => exact getStats_within.shared rfl (by decide)
  | clearStats => exact clearStats_within.shared rfl (by decide)
  | listEntries => exact listEntries_within.shared rfl (by decide)
  | getEntry => exact getEntry_within.shared rfl (by decide)
  | markExported => exact markExported_within.shared rfl (by decide)
  | readSector => exact readSector_within.shared rfl (by decide)
  | listFrames => exact listFrames_within.shared rfl (by decide)
  | queueTrack => exact queueTrack_within.shared rfl (by decide)
  | retryTrack => exact retryTrack_within.shared rfl (by decide)
  | cancelJob => exact cancelJob_within.shared rfl (by decide)
  | listJobs => exact listJobs_within.shared rfl (by decide)
  | listOverlay => exact listOverlay_within.shared rfl (by decide)
  | readOverlay => exact readOverlay_within.shared rfl (by decide)
  | dropOverlay => exact dropOverlay_within.own [.ovl] rfl (by decide)
  | setGeometry => exact setGeometry_within.own [.geom] rfl (by decide)
  | setRotation => exact setRotation_within.own [.ixm] rfl (by decide)
  | setRead => exact setRead_within.shared rfl (by decide)
  | setVote => exact setVote_within.shared rfl (by decide)
  | setLadderStep => exact setLadderStep_within.shared rfl (by decide)
  | setLadderShape => exact setLadderShape_within.shared rfl (by decide)
  | setDrive => exact setDrive_within.shared rfl (by decide)
  | setPort => exact setPort_within.shared rfl (by decide)
  | getSettings => exact getSettings_within.shared rfl (by decide)
  | clearFence => exact clearFence_within.shared rfl (by decide)
  | restDrive => exact restDrive_within.shared rfl (by decide)
  | bypassOn => exact bypassOn_within.shared rfl (by decide)
  | bypassOff => exact bypassOff_within.shared rfl (by decide)
  | softReset => exact softReset_within.own [.ixm] rfl (by decide)
  | attentionPulseEnd => exact attentionPulseEnd_within.shared rfl (by decide)
  | attentionGapEnd => exact attentionGapEnd_within.shared rfl (by decide)
  | frameError => exact frameError_within.shared rfl (by decide)
  | unitSelect a => exact (unitSelect_within a).own [.pins] rfl (by decide)

theorem exec_changes {c : Instr} (h : exec c s = .next t) (hc : c ≠ .powerOnReset) :
    ChangesOnly (ownBlocks c ++ sharedBlocks) s t := by
  obtain ⟨u, hu, changes⟩ := exec_within c s hc
  cases h.symm.trans hu
  exact changes

/-- A block that is not shared stands under every command that does not have it to itself. -/
theorem exec_same {c : Instr} (h : exec c s = .next t) (hc : c ≠ .powerOnReset) {b : Block} (hb : b ∉ sharedBlocks)
    (ho : b ∉ ownBlocks c) : b.Same s t :=
  (exec_changes h hc).2 b fun hm => (List.mem_append.mp hm).elim ho hb

theorem clock_not_mem_ownBlocks (c : Instr) : .clock ∉ ownBlocks c := by
  unfold ownBlocks
  split <;> decide

theorem pins_mem_ownBlocks {c : Instr} (h : .pins ∈ ownBlocks c) :
    (∃ b, c = .driveFaultAsserted b) ∨ (∃ b, c = .contentionSeen b) ∨ ∃ b, c = .unitSelect b := by
  unfold ownBlocks at h
  split at h <;> simp at h ⊢

theorem geom_mem_ownBlocks {c : Instr} (h : .geom ∈ ownBlocks c) : c = .setGeometry := by
  unfold ownBlocks at h
  split at h <;> simp at h ⊢

theorem ixm_mem_ownBlocks {c : Instr} (h : .ixm ∈ ownBlocks c) :
    (∃ n, c = .indexQualified n) ∨ c = .startupWindowExpiry ∨ c = .closedWindowExpiry ∨ c = .openWindowExpiry ∨
      c = .resyncLimitExpiry ∨ c = .setRotation ∨ c = .softReset := by
  unfold ownBlocks at h
  split at h <;> simp at h ⊢

theorem ovl_mem_ownBlocks {c : Instr} (h : .ovl ∈ ownBlocks c) : c = .dropOverlay ∨ ∃ d, c = .writeDataComplete d := by
  unfold ownBlocks at h
  split at h <;> simp at h ⊢

/-- Settles O16: each of the five blocks stands under every command that does not have it to itself. -/
theorem blocksChangeOnlyByTheirCommands : Obligations.BlocksChangeOnlyByTheirCommands := by
  intro c s t h hc
  have same {b : Block} := exec_same h hc (b := b)
  refine ⟨same (by decide) (clock_not_mem_ownBlocks c), fun fault contention select => same (b := .pins) (by decide) ?_,
    fun geom => same (b := .geom) (by decide) fun hm => geom (geom_mem_ownBlocks hm),
    fun index startup closed opened resync rotation reset => same (b := .ixm) (by decide) ?_,
    fun drop write => same (b := .ovl) (by decide) ?_⟩
  · intro hm
    rcases pins_mem_ownBlocks hm with ⟨b, e⟩ | ⟨b, e⟩ | ⟨b, e⟩
    exacts [fault b e, contention b e, select b e]
  · intro hm
    rcases ixm_mem_ownBlocks hm with ⟨n, e⟩ | e | e | e | e | e | e
    exacts [index n e, startup e, closed e, opened e, resync e, rotation e, reset e]
  · intro hm
    rcases ovl_mem_ownBlocks hm with e | ⟨d, e⟩
    exacts [drop e, write d e]

end Sys2Proof.Machine
end

section
/-! PROOF. The moves that the shared operations are made of: every operation of the queue, the stores, the sequencer and
the port is a sequence of them, so that what no move touches stands under every operation. -/

namespace Sys2Proof.Machine

/-! ### Moves -/

/-- One change that a shared operation makes: an update of one block that leaves the block's settings and the peak of
violations as they are, an event offered, or a snapshot latched. -/
inductive Move : State → State → Prop where
  | pins {s : State} (f : Pins → Pins) : Move s (s.updPins f)
  | dsq {s : State} (f : Dsq → Dsq) (set : (f s.dsq).set = s.dsq.set) : Move s (s.updDsq f)
  | rdc {s : State} (f : Rdc → Rdc) (offset : (f s.rdc).headerOffset = s.rdc.headerOffset)
      (limit : (f s.rdc).slipLimit = s.rdc.slipLimit) : Move s (s.updRdc f)
  | cps {s : State} (f : Cps → Cps) : Move s (s.updCps f)
  | vte {s : State} (f : Vte → Vte) (copies : (f s.vte).copyLimit = s.vte.copyLimit)
      (margin : (f s.vte).minMargin = s.vte.minMargin) : Move s (s.updVte f)
  | jbq {s : State} (f : Jbq → Jbq) (ladder : (f s.jbq).ladder = s.jbq.ladder) (length : (f s.jbq).length = s.jbq.length)
      (repeats : (f s.jbq).repeats = s.jbq.repeats) (cooldown : (f s.jbq).cooldown = s.jbq.cooldown) :
      Move s (s.updJbq f)
  | tks {s : State} (f : Tks → Tks) (hold : (f s.tks).exportHold = s.tks.exportHold) : Move s (s.updTks f)
  | rct {s : State} (f : Rct → Rct) (peak : (f s.rct).peakViolations = s.rct.peakViolations) : Move s (s.updRct f)
  | mcp {s : State} (f : Mcp → Mcp) (limit : (f s.mcp).holdLimit = s.mcp.holdLimit)
      (mode : (f s.mcp).attnPulse = s.mcp.attnPulse) : Move s (s.updMcp f)
  | ovl {s : State} (f : Ovl → Ovl) : Move s (s.updOvl f)
  | stl {s : State} (f : Stl → Stl) : Move s (s.updStl f)
  | offer {s : State} (k : EventKind) (tr : Option Track) (n : Nat) : Move s (offer k tr n s)
  | latch {s : State} (x : Snapshot) : Move s (s.updEvq (latchSnapshot x))

variable {s t u : State}

/-- A sequence of moves. -/
def Moves : State → State → Prop :=
  Relation.ReflTransGen Move

theorem Moves.refl (s : State) : Moves s s :=
  Relation.ReflTransGen.refl

theorem Move.moves (h : Move s t) : Moves s t :=
  Relation.ReflTransGen.single h

theorem Moves.trans (h : Moves s t) (k : Moves t u) : Moves s u :=
  Relation.ReflTransGen.trans h k

theorem Moves.ite {p : Prop} [Decidable p] (h : Moves s t) (k : Moves s u) : Moves s (if p then t else u) := by
  split <;> assumption

/-- What every move keeps, every sequence of moves keeps. -/
theorem Moves.keeps {P : State → State → Prop} (h : Moves s t) (refl : ∀ s, P s s)
    (step : ∀ {s t u}, P s t → Move t u → P s u) : P s t := by
  induction h with
  | refl => exact refl s
  | tail _ m ih => exact step ih m

/-! ### Updates -/

theorem updDsq_moves (f : Dsq → Dsq) (h : (f s.dsq).set = s.dsq.set) : Moves s (s.updDsq f) :=
  (Move.dsq f h).moves

theorem updMcp_moves (f : Mcp → Mcp) (h : (f s.mcp).holdLimit = s.mcp.holdLimit)
    (k : (f s.mcp).attnPulse = s.mcp.attnPulse) : Moves s (s.updMcp f) :=
  (Move.mcp f h k).moves

theorem updRdc_moves (f : Rdc → Rdc) (h : (f s.rdc).headerOffset = s.rdc.headerOffset)
    (k : (f s.rdc).slipLimit = s.rdc.slipLimit) : Moves s (s.updRdc f) :=
  (Move.rdc f h k).moves

theorem updCps_moves (f : Cps → Cps) : Moves s (s.updCps f) :=
  (Move.cps f).moves

theorem updVte_moves (f : Vte → Vte) (h : (f s.vte).copyLimit = s.vte.copyLimit)
    (k : (f s.vte).minMargin = s.vte.minMargin) : Moves s (s.updVte f) :=
  (Move.vte f h k).moves

theorem updJbq_moves (f : Jbq → Jbq) (h : (f s.jbq).ladder = s.jbq.ladder) (l : (f s.jbq).length = s.jbq.length)
    (r : (f s.jbq).repeats = s.jbq.repeats) (c : (f s.jbq).cooldown = s.jbq.cooldown) : Moves s (s.updJbq f) :=
  (Move.jbq f h l r c).moves

theorem updTks_moves (f : Tks → Tks) (h : (f s.tks).exportHold = s.tks.exportHold) : Moves s (s.updTks f) :=
  (Move.tks f h).moves

theorem updRct_moves (f : Rct → Rct) (h : (f s.rct).peakViolations = s.rct.peakViolations) : Moves s (s.updRct f) :=
  (Move.rct f h).moves

theorem updStl_moves (f : Stl → Stl) : Moves s (s.updStl f) :=
  (Move.stl f).moves

theorem offer_moves (k : EventKind) (tr : Option Track) (n : Nat) : Moves s (offer k tr n s) :=
  (Move.offer k tr n).moves

theorem offerLatching_moves (k : EventKind) (n : Nat) (x : Snapshot) : Moves s (offerLatching k n x s) :=
  (offer_moves k none n).trans (Move.latch _).moves

theorem updJob_moves (tr : Track) (f : Job → Job) : Moves s (updJob tr f s) :=
  updJbq_moves _ rfl rfl rfl rfl

theorem addJob_moves (j : Job) : Moves s (addJob j s) :=
  updJbq_moves _ rfl rfl rfl rfl

theorem removeJob_moves (tr : Track) : Moves s (removeJob tr s) :=
  updJbq_moves _ rfl rfl rfl rfl

theorem dropFetchTallies_moves : Moves s (dropFetchTallies s) :=
  updJbq_moves _ rfl rfl rfl rfl

theorem updFrame_moves (tr : Track) (f : Frame → Frame) : Moves s (updFrame tr f s) :=
  updTks_moves _ rfl

theorem releaseFrame_moves (tr : Track) : Moves s (releaseFrame tr s) :=
  updTks_moves _ rfl

theorem updEntry_moves (tr : Track) (f : Entry → Entry) : Moves s (updEntry tr f s) :=
  updRct_moves _ rfl

theorem reportPasses_moves (n : Nat) : Moves s (reportPasses n s) :=
  updRct_moves _ rfl

theorem reportMargin_moves (n : Nat) : Moves s (reportMargin n s) :=
  updRct_moves _ rfl

theorem reportDeviation_moves (n : Nat) : Moves s (reportDeviation n s) :=
  updRct_moves _ rfl

/-! ### Entries and jobs -/

theorem createEntry_moves (tr : Track) (o : Origin) (st : EntryState) (n : Nat) (b : Bool) (os : List OutcomeRec) :
    Moves s (createEntry tr o st n b os s) := by
  unfold createEntry
  split
  · exact updRct_moves _ rfl
  · exact offer_moves _ _ _

theorem closingEvent_moves (e : Entry) : Moves s (closingEvent e s) := by
  unfold closingEvent
  split <;> exact offer_moves _ _ _

theorem closeEntry_moves (tr : Track) (falls : OutcomeRec → Bool) (reason : Nat → FailReason) (held : Nat → Nat)
    (p q : Bool) : Moves s (closeEntry tr falls reason held p q s) := by
  unfold closeEntry
  split
  · exact .ite (.ite (updEntry_moves _ _) ((updEntry_moves _ _).trans (closingEvent_moves _))) (.refl _)
  · exact .refl _

theorem endFrame_moves (j : Job) : Moves s (endFrame j s) :=
  .ite (.ite (releaseFrame_moves _) (updFrame_moves _ _)) (.refl _)

theorem endJob_moves (k : JobEnd) (p q : Bool) (j : Job) : Moves s (endJob k p q j s) :=
  (endFrame_moves j).trans (updCps_moves _) |>.trans (closeEntry_moves _ _ _ _ _ _) |>.trans (reportPasses_moves _)
    |>.trans (removeJob_moves _)

theorem endWalk_moves (j : Job) : Moves s (endWalk j s) :=
  .ite (updJob_moves _ _) (endJob_moves _ _ _ _)

theorem endRecovered_moves (j : Job) : Moves s (endRecovered j s) :=
  (Moves.ite (offer_moves _ _ _) (.refl _)).trans (endJob_moves _ _ _ _)

theorem advanceJob_moves (tr : Track) : Moves s (advanceJob tr s) := by
  unfold advanceJob
  split
  · refine .ite (endRecovered_moves _) ?_
    dsimp only
    split
    · exact (updJob_moves _ _).trans (endWalk_moves _)
    · exact updJob_moves _ _
  · exact .refl _

theorem recordRefill_moves (j : Job) : Moves s (recordRefill j s) := by
  unfold recordRefill
  split
  · exact .ite (updEntry_moves _ _) (updEntry_moves _ _)
  · exact .ite (.refl _) (createEntry_moves _ _ _ _ _ _)

theorem finishJobPass_moves (tr : Track) : Moves s (finishJobPass tr s) := by
  unfold finishJobPass
  split
  · exact (Moves.ite (recordRefill_moves _) (.refl _)).trans (advanceJob_moves _)
  · exact .refl _

/-! ### Fetches -/

theorem createFetchedJob_moves (k : GrantKind) (tr : Track) (os : List Nat) : Moves s (createFetchedJob k tr os s) := by
  unfold createFetchedJob
  dsimp only
  split
  · exact (addJob_moves _).trans (updEntry_moves _ _)
  · exact (addJob_moves _).trans (createEntry_moves _ _ _ _ _ _)

theorem serveFill_moves (k : GrantKind) (tr : Track) (os : List Nat) : Moves s (serveFill k tr os s) := by
  unfold serveFill
  exact ((updJob_moves _ _).trans (updEntry_moves _ _)).trans (.ite (updEntry_moves _ _) (.refl _))
    |>.trans (finishJobPass_moves _)

theorem failFetch_moves (k : GrantKind) (tr : Track) (os : List Nat) : Moves s (failFetch k tr os s) := by
  unfold failFetch
  dsimp only
  refine .trans (.trans ?_ (offer_moves _ _ _)) (updCps_moves _)
  split
  · exact (updFrame_moves _ _).trans (updEntry_moves _ _)
  · exact (updFrame_moves _ _).trans (createEntry_moves _ _ _ _ _ _)

theorem endFetch_moves (k : GrantKind) (tr : Track) : Moves s (endFetch k tr s) := by
  unfold endFetch
  dsimp only
  refine .trans (.ite (serveFill_moves _ _ _) (.ite (updCps_moves _) (.ite (createFetchedJob_moves _ _ _) ?_)))
    dropFetchTallies_moves
  split
  · exact (endJob_moves _ _ _ _).trans (createFetchedJob_moves _ _ _)
  · exact failFetch_moves _ _ _

/-! ### Votes and claims -/

theorem deliverVoted_moves (b : Batch) (m : Member) (w : SectorWords) (n : Nat) : Moves s (deliverVoted b m w n s) :=
  (updFrame_moves _ _).trans (updCps_moves _) |>.trans (updEntry_moves _ _) |>.trans (reportMargin_moves _)
    |>.trans (updJob_moves _ _)

theorem deliverOpen_moves (b : Batch) (m : Member) (v : LastVote) : Moves s (deliverOpen b m v s) :=
  (updCps_moves _).trans (updJob_moves _ _)

theorem deliverMember_moves (b : Batch) (m : Member) : Moves s (deliverMember b s m) := by
  unfold deliverMember
  cases voteOutcome b.minMargin m.copies with
  | voted w n => exact deliverVoted_moves b m w n
  | weak => exact deliverOpen_moves b m .weak
  | failedCheck => exact deliverOpen_moves b m .failedCheck

theorem deliverBatch_moves (b : Batch) : Moves s (deliverBatch b s) := by
  unfold deliverBatch
  generalize b.members = ms
  induction ms generalizing s with
  | nil => exact .refl _
  | cons m ms ih =>
    rw [List.foldl_cons]
    exact (deliverMember_moves b m).trans (ih (s := deliverMember b s m))

theorem dropImage_moves (f : Frame) : Moves s (dropImage f s) :=
  .ite ((offer_moves _ _ _).trans (updEntry_moves _ _)) (.refl _)

theorem retire_moves (src : ClaimFrom) : Moves s (retire src s) := by
  have leave (v : State) (tr : Track) (f : Frame) : Moves v (releaseFrame tr (dropImage f v)) :=
    (dropImage_moves f).trans (releaseFrame_moves tr)
  have evict (tr : Track) : Moves s (match jobOf tr s with
      | some j => endJob (.cause .evicted) false false j s
      | none => s) := by
    split
    · exact endJob_moves _ _ _ _
    · exact .refl _
  unfold retire
  split
  · exact .refl _
  · split
    · exact leave _ _ _
    · exact .refl _
  · dsimp only
    split
    · exact (evict _).trans (leave _ _ _)
    · exact evict _

theorem claim_moves (src : ClaimFrom) (tr : Track) : Moves s (claim src tr s) :=
  (retire_moves src).trans (updTks_moves _ rfl)

/-! ### The Drive Sequencer -/

theorem setDsqState_moves (st : DsqState) : Moves s (setDsqState st s) :=
  updDsq_moves _ rfl

theorem setGrant_moves (g : Option Grant) : Moves s (setGrant g s) :=
  updDsq_moves _ rfl

theorem clearOperation_moves : Moves s (clearOperation s) :=
  updDsq_moves _ rfl

theorem losePosition_moves : Moves s (losePosition s) :=
  updDsq_moves _ rfl

theorem enterIdle_moves : Moves s (enterIdle s) :=
  setDsqState_moves _

theorem endPassContext_moves : Moves s (endPassContext s) :=
  updRdc_moves _ rfl rfl

theorem endUnpassed_moves (g : Grant) : Moves s (endUnpassed g s) :=
  .ite ((setGrant_moves _).trans (updJob_moves _ _))
    (.ite ((setGrant_moves _).trans (endFetch_moves _ _))
      (((setGrant_moves _).trans (releaseFrame_moves _)).trans dropFetchTallies_moves))

theorem abortPass_moves (g : Grant) : Moves s (abortPass g s) :=
  .ite ((endPassContext_moves.trans (setGrant_moves _)).trans (updJob_moves _ _))
    ((endPassContext_moves.trans (setGrant_moves _)).trans (endFetch_moves _ _))

theorem abandonWork_moves : Moves s (abandonWork s) := by
  unfold abandonWork
  refine .trans ?_ clearOperation_moves
  split
  · split
    · exact endUnpassed_moves _
    · exact abortPass_moves _
    · exact .refl _
  · exact .refl _

theorem completeBatch_moves (b : Batch) : Moves s (completeBatch b s) := by
  have h : Moves s (setGrant none (finishJobPass b.track ((deliverBatch b s).updVte fun v => { v with batch := none }))) :=
    (deliverBatch_moves b).trans (updVte_moves _ rfl rfl) |>.trans (finishJobPass_moves _) |>.trans (setGrant_moves _)
  exact .ite (h.trans enterIdle_moves) h

theorem countJobPass_moves (g : Grant) : Moves s (countJobPass g s) := by
  have h := (updJob_moves (s := s) g.track fun j => { j with counter := bump 65535 j.counter }).trans
    (updEntry_moves g.track Entry.countPass) |>.trans (setGrant_moves (some { g with phase := .voting }))
    |>.trans (setDsqState_moves .voting)
  have run (b : Batch) := h.trans (updVte_moves (fun v => { v with batch := some b }) rfl rfl)
  exact .ite ((run _).trans (completeBatch_moves _)) (run _)

theorem countPass_moves (g : Grant) : Moves s (countPass g s) :=
  .ite (endPassContext_moves.trans (countJobPass_moves _))
    ((endPassContext_moves.trans (setGrant_moves _)).trans (endFetch_moves _ _) |>.trans enterIdle_moves)

theorem beginRecalibrate_moves : Moves s (beginRecalibrate s) :=
  .ite ((clearOperation_moves.trans losePosition_moves).trans (setDsqState_moves _)) (updDsq_moves _ rfl)

theorem endSettle_moves : Moves s (endSettle s) := by
  unfold endSettle
  split
  · exact .ite ((clearOperation_moves.trans (endUnpassed_moves _)).trans enterIdle_moves)
      (clearOperation_moves.trans (setDsqState_moves _))
  · exact clearOperation_moves.trans enterIdle_moves

theorem beginSettle_moves (g : Grant) : Moves s (beginSettle g s) :=
  .ite ((updDsq_moves _ rfl).trans endSettle_moves) (updDsq_moves _ rfl)

theorem takeUpGrant_moves (g : Grant) : Moves s (takeUpGrant g s) := by
  unfold takeUpGrant
  split
  · exact beginRecalibrate_moves
  · exact .ite (updDsq_moves _ rfl) (.ite (beginSettle_moves _) (clearOperation_moves.trans (setDsqState_moves _)))

theorem prepareGrant_moves (c : Candidate) : Moves s (prepareGrant c s) := by
  unfold prepareGrant
  split
  · exact (claim_moves _ _).trans (updJbq_moves _ rfl rfl rfl rfl)
  · dsimp only
    split
    · exact (claim_moves _ _).trans (updJob_moves _ _)
    · exact updJob_moves _ _

theorem arbitrate_moves : Moves s (arbitrate s) := by
  unfold arbitrate
  refine .ite ?_ (.refl _)
  split
  · exact ((prepareGrant_moves _).trans (setGrant_moves _)).trans (takeUpGrant_moves _)
  · exact .refl _

theorem raiseFence_moves (cause : FenceCause) (before : State) : Moves s (raiseFence cause before s) :=
  .ite (.refl _) ((abandonWork_moves.trans (updDsq_moves _ rfl)).trans (offerLatching_moves _ _ _))

theorem seekFault_moves : Moves s (seekFault s) :=
  (updDsq_moves (fun d =>
      { d with faults := d.faults + 1, quiet := some (uptimeExpiry s (1000 * d.set.quietPeriod)) }) rfl).trans
    (.ite (raiseFence_moves _ _)
      (((setGrant_moves _).trans endPassContext_moves).trans clearOperation_moves |>.trans beginRecalibrate_moves))

theorem followDown_moves : Moves s (followDown s) := by
  unfold followDown
  have unknown : Moves s (setDsqState .offline (losePosition (abandonWork s))) :=
    (abandonWork_moves.trans losePosition_moves).trans (setDsqState_moves _)
  split
  · exact setDsqState_moves _
  · exact unknown
  · exact unknown
  · exact unknown
  · exact abandonWork_moves.trans (setDsqState_moves _)
  · exact .refl _

theorem followSpindle_moves (old : Spindle) : Moves s (followSpindle old s) := by
  unfold followSpindle
  refine .ite (.refl _) ?_
  split
  · exact followDown_moves
  · exact followDown_moves
  · unfold followUnstable
    split
    · exact abandonWork_moves.trans (setDsqState_moves _)
    · exact .refl _
  · unfold followRunning
    split
    · exact beginRecalibrate_moves
    · exact .refl _

theorem beginPass_moves (g : Grant) (r : Timer) : Moves s (beginPass g r s) := by
  unfold beginPass
  exact (setGrant_moves _).trans (updRdc_moves _ rfl rfl)

theorem takeMark_moves (r : Timer) : Moves s (takeMark r s) := by
  unfold takeMark
  split
  · split
    · exact countPass_moves _
    · exact .ite (beginPass_moves _ _) (.refl _)
    · exact .refl _
  · exact .refl _

theorem takeLateExpiry_moves : Moves s (takeLateExpiry s) := by
  unfold takeLateExpiry
  split
  · exact .ite (countPass_moves _) (.refl _)
  · exact .refl _

/-! ### The Machine Port and the end of an event -/

theorem testHold_moves : Moves s (testHold s) :=
  .ite (updMcp_moves _ rfl rfl) (.refl _)

theorem beginHold_moves : Moves s (beginHold s) :=
  .ite ((updMcp_moves _ rfl rfl).trans testHold_moves) (updMcp_moves _ rfl rfl)

theorem startPort_moves : Moves s (startPort s) :=
  (updMcp_moves _ rfl rfl).trans beginHold_moves

theorem followReady_moves : Moves s (followReady s) := by
  unfold followReady
  split
  · exact .refl _
  · exact .ite startPort_moves (.refl _)
  · exact .ite (.refl _) (updMcp_moves _ rfl rfl)

theorem afterEvent_moves : Moves s (afterEvent s) :=
  (followReady_moves.trans testHold_moves).trans arbitrate_moves

theorem afterJobs_moves : Moves s (afterJobs s) :=
  testHold_moves.trans arbitrate_moves

end Sys2Proof.Machine
end

section
/-! PROOF. The commands as sequences of moves, and the settings: a command that stores none leaves every one as it stands,
and one that does stores clamped or checked values (R2, R19, R48, R85, R88, R89, R165, R190). -/

namespace Sys2Proof.Machine

variable {s t u : State}

/-! ### The commands made of moves -/

/-- The command answers a state that a sequence of moves reaches. -/
def ExecMoves (c : Instr) (s : State) : Prop :=
  ∃ t, exec c s = .next t ∧ Moves s t

theorem completeSeek_moves : Moves s (completeSeek s) := by
  have arrive : Moves s (clearOperation (s.updDsq Dsq.reachTarget)) := by
    refine .trans (updDsq_moves _ ?_) clearOperation_moves
    unfold Dsq.reachTarget
    split <;> rfl
  unfold completeSeek
  dsimp only
  split
  · exact .ite ((arrive.trans (endUnpassed_moves _)).trans enterIdle_moves) (arrive.trans (beginSettle_moves _))
  · exact arrive.trans enterIdle_moves

theorem resumeGrant_moves (g : Grant) : Moves s (resumeGrant g s) := by
  have finish : Moves s (enterIdle (endUnpassed g s)) := (endUnpassed_moves g).trans enterIdle_moves
  unfold resumeGrant
  split
  · exact countPass_moves _
  · exact finish
  · exact .ite finish (takeUpGrant_moves _)

theorem completeRecalibrate_moves : Moves s (completeRecalibrate s) := by
  have arrive : Moves s (clearOperation (s.updDsq (Dsq.establish ⟨0, 0, 0⟩))) :=
    (updDsq_moves _ rfl).trans clearOperation_moves
  unfold completeRecalibrate
  dsimp only
  split
  · exact .ite (arrive.trans (resumeGrant_moves _)) (arrive.trans enterIdle_moves)
  · exact arrive.trans enterIdle_moves

theorem seekFault_after_moves : Moves s (afterEvent (seekFault s)) :=
  seekFault_moves.trans afterEvent_moves

theorem fence_after_moves (cause : FenceCause) (before : State) : Moves s (afterEvent (raiseFence cause before s)) :=
  (raiseFence_moves cause before).trans afterEvent_moves

theorem watchSelect_moves : Moves s (watchSelect s) :=
  .ite (fence_after_moves _ _) (.refl _)

theorem tallyPass_moves (tr : Track) (i : Nat) (f : Tally → Tally) : Moves s (tallyPass tr i f s) :=
  .ite (updJbq_moves _ rfl rfl rfl rfl) (updJob_moves _ _)

theorem takeHeader_moves (p : PassContext) (mark : Timer) (h : HeaderRead) : Moves s (takeHeader p mark h s) :=
  .ite (.refl _) (.ite (.ite (tallyPass_moves _ _ _) (.refl _))
    (.ite seekFault_after_moves (.ite (updRdc_moves _ rfl rfl) (.refl _))))

theorem deliverGood_moves (c : SealedCopy) : Moves s (deliverGood c s) := by
  have sealed := updFrame_moves (s := s) c.addr.track (Frame.sealGood (plainPass s.dsq) c.addr.sector c.words)
  have recorded := Moves.ite (p := plainPass s.dsq = true) sealed (sealed.trans (updEntry_moves c.addr.track
    (Entry.resolve c.addr.sector (.retryGood (copyCount s c.addr.track c.addr.sector) c.step c.passNo) c.step)))
  have closed := recorded.trans ((updRdc_moves (fun r => { r with pass := r.pass.map fun p =>
      { p with openSet := p.openSet.filter (· != c.addr.sector) } }) rfl rfl).trans
    (updDsq_moves (fun d => { d with grant := d.grant.map fun g =>
      { g with openSet := g.openSet.filter (· != c.addr.sector) } }) rfl))
  exact .ite (closed.trans (updCps_moves _)) ((closed.trans (updCps_moves _)).trans (updJob_moves _ _))

theorem markStarved_moves (tr : Track) : Moves s (markStarved tr s) :=
  .ite (updJbq_moves _ rfl rfl rfl rfl) ((updJob_moves _ _).trans (updEntry_moves _ _))

theorem deliverBad_moves (c : SealedCopy) : Moves s (deliverBad c s) := by
  have placed : Moves s ((updFrame c.addr.track (Frame.updSector c.addr.sector (recordBad c.words c.weight)) s).updCps
      (placeCopy s.vte.copyLimit c)) := (updFrame_moves _ _).trans (updCps_moves _)
  unfold deliverBad
  dsimp only
  split
  · exact placed.trans (reportDeviation_moves _)
  · exact placed.trans (reportDeviation_moves _)
  · exact placed.trans (markStarved_moves _)
  · exact placed

theorem deliverCopy_moves (c : SealedCopy) : Moves s (deliverCopy c s) := by
  have counted : Moves s (tallyPass c.addr.track c.addr.sector Tally.countCopy
      (s.updRdc fun r => { r with lastDeviation := c.deviation, assembly := none })) :=
    (updRdc_moves _ rfl rfl).trans (tallyPass_moves _ _ _)
  exact .trans (.ite (counted.trans (deliverGood_moves _)) (counted.trans (deliverBad_moves _))) testHold_moves

theorem setTrack_moves (tr : Track) : Moves s (setTrack tr s) :=
  updMcp_moves _ rfl rfl

theorem selectHead_moves (h : Nat) : Moves s (selectHead h s) := by
  have moved : Moves s (setTrack ⟨s.mcp.track.cyl, h⟩ s) := setTrack_moves _
  exact .ite (moved.trans (updMcp_moves _ rfl rfl))
    (.ite (.ite moved (moved.trans beginHold_moves)) (moved.trans testHold_moves))

theorem takeRead_moves : Moves s (takeRead s) := by
  have gated : Moves s (s.updMcp fun m => { m with gateTaken := true, activity := .reading (readAnswer (passingAddr s) s) }) :=
    updMcp_moves _ rfl rfl
  exact .ite (gated.trans (updTks_moves _ rfl)) gated

theorem storeWrite_moves (a : SectorAddr) (d : SectorData) : Moves s (storeWrite a d s) :=
  .ite (Move.ovl _).moves (.ite (Move.ovl _).moves ((updMcp_moves (leaveFor .fault) rfl rfl).trans (offer_moves _ _ _)))

/-! ### Requests made of moves -/

theorem answer_moves (r : ResultCode) (code : Byte) (p : List Byte) : Moves s (answer r code p s) :=
  updStl_moves _

theorem refuse_moves (r : ResultCode) (code : Byte) : Moves s (refuse r code s) :=
  answer_moves _ _ _

/-- What a taking leaves standing or refused, and the request's own entry keeps, the request row keeps. -/
theorem takeRequest_keeps {P : State → Prop} {code : Byte} {act : List Byte → State → State} (stands : P s)
    (refused : P (refuse .badLength code s)) (acts : ∀ p, P (act p s)) : P (takeRequest code act s) := by
  rcases takeRequest_cases code act s with e | e | ⟨p, -, e⟩ <;> rw [e]
  exacts [stands, refused, acts p]

theorem takeRequest_moves {code : Byte} {act : List Byte → State → State} (h : ∀ p, Moves s (act p s)) :
    Moves s (takeRequest code act s) :=
  takeRequest_keeps (P := Moves s) (.refl s) (refuse_moves _ _) h

theorem takeMarkExported_moves (p : List Byte) : Moves s (takeMarkExported p s) :=
  .ite (((updEntry_moves _ _).trans (updFrame_moves _ _)).trans arbitrate_moves |>.trans (answer_moves _ _ _))
    (refuse_moves _ _)

theorem takeReadSector_moves (p : List Byte) : Moves s (takeReadSector p s) := by
  unfold takeReadSector
  refine .ite ?_ (refuse_moves _ _)
  split
  · exact (updTks_moves _ rfl).trans (answer_moves _ _ _)
  · exact refuse_moves _ _

theorem takeDropOverlay_moves (p : List Byte) : Moves s (takeDropOverlay p s) := by
  unfold takeDropOverlay
  split
  · exact (Move.ovl _).moves.trans (answer_moves _ _ _)
  · exact refuse_moves _ _

theorem takeGetEntry_moves (p : List Byte) : Moves s (takeGetEntry p s) := by
  unfold takeGetEntry
  split
  · exact answer_moves _ _ _
  · exact refuse_moves _ _

theorem takeReadOverlay_moves (p : List Byte) : Moves s (takeReadOverlay p s) := by
  unfold takeReadOverlay
  split
  · exact answer_moves _ _ _
  · exact refuse_moves _ _

theorem createKeptJob_moves (tr : Track) (f : Frame) (n : Nat) : Moves s (createKeptJob tr f n s) := by
  unfold createKeptJob
  dsimp only
  split
  · exact ((addJob_moves _).trans (updFrame_moves _ _)).trans (updEntry_moves _ _)
  · exact ((addJob_moves _).trans (updFrame_moves _ _)).trans (createEntry_moves _ _ _ _ _ _)

theorem createFramelessJob_moves (tr : Track) (n : Nat) : Moves s (createFramelessJob tr n s) :=
  (addJob_moves _).trans (updEntry_moves _ _)

theorem takeQueueTrack_moves (p : List Byte) : Moves s (takeQueueTrack p s) := by
  unfold takeQueueTrack
  refine .ite ?_ (refuse_moves _ _)
  split
  · exact .ite (answer_moves _ _ _) (.ite (refuse_moves _ _)
      (((updJob_moves _ _).trans (updEntry_moves _ _)).trans afterJobs_moves |>.trans (answer_moves _ _ _)))
  · refine .ite (refuse_moves _ _) ?_
    split
    · exact .ite (refuse_moves _ _) (.ite ((offer_moves _ _ _).trans (answer_moves _ _ _))
        (((createKeptJob_moves _ _ _).trans afterJobs_moves).trans (answer_moves _ _ _)))
    · exact ((createFramelessJob_moves _ _).trans afterJobs_moves).trans (answer_moves _ _ _)

theorem takeRetryTrack_moves (p : List Byte) : Moves s (takeRetryTrack p s) := by
  unfold takeRetryTrack
  refine .ite ?_ (refuse_moves _ _)
  split
  · exact .ite (.ite (refuse_moves _ _)
      (((createKeptJob_moves _ _ _).trans afterJobs_moves).trans (answer_moves _ _ _))) (refuse_moves _ _)
  · exact refuse_moves _ _
  · exact refuse_moves _ _

theorem cancelGrant_moves (tr : Track) : Moves s (cancelGrant tr s) := by
  have ended : Moves s (setGrant none (endPassContext s)) := endPassContext_moves.trans (setGrant_moves _)
  unfold cancelGrant
  split
  · have abandoned := Moves.ite (p := (‹Grant› : Grant).phase = .voting)
      (ended.trans (updVte_moves (fun v => { v with batch := none }) rfl rfl)) ended
    exact .ite (.ite (abandoned.trans (setDsqState_moves _)) abandoned) (.refl _)
  · exact .refl _

theorem takeCancelJob_moves (p : List Byte) : Moves s (takeCancelJob p s) := by
  unfold takeCancelJob
  refine .ite ?_ (refuse_moves _ _)
  split
  · exact ((cancelGrant_moves _).trans (endJob_moves _ _ _ _)).trans afterJobs_moves |>.trans (answer_moves _ _ _)
  · exact refuse_moves _ _

theorem takeClearFence_moves : Moves s (takeClearFence s) := by
  unfold takeClearFence
  refine .ite (refuse_moves _ _) ?_
  split
  · have cleared (n : Nat) : Moves s (offer .fenceCleared none n
        (s.updDsq fun d => { d with fence := none, faults := 0, quiet := none })) :=
      (updDsq_moves _ rfl).trans (offer_moves _ _ _)
    exact .trans (.ite ((((cleared _).trans beginRecalibrate_moves).trans afterEvent_moves).trans watchSelect_moves)
      (cleared _)) (answer_moves _ _ _)
  · exact answer_moves _ _ _

theorem takeRestDrive_moves (p : List Byte) : Moves s (takeRestDrive p s) := by
  have rests (n : Nat) : Moves s ((abandonWork s).updDsq fun d =>
      { d with state := .resting, position := none, expiry := some (uptimeExpiry s n) }) :=
    abandonWork_moves.trans (updDsq_moves _ rfl)
  exact .ite (refuse_moves _ _)
    ((Moves.ite ((rests _).trans beginRecalibrate_moves) (rests _)).trans afterEvent_moves |>.trans (answer_moves _ _ _))

theorem takeBypassOn_moves : Moves s (takeBypassOn s) :=
  .trans (.ite (.refl _) ((abandonWork_moves.trans (updDsq_moves _ rfl)).trans (updMcp_moves _ rfl rfl)))
    (answer_moves _ _ _)

theorem reattachDrive_moves : Moves s (reattachDrive s) := by
  have attached : Moves s (s.updDsq fun d => { d with bypass := false, position := none }) := updDsq_moves _ rfl
  exact .ite (attached.trans (setDsqState_moves _)) (.ite (attached.trans (raiseFence_moves _ _))
    (.ite (attached.trans (raiseFence_moves _ _)) (attached.trans beginRecalibrate_moves)))

theorem reattachPort_moves : Moves s (reattachPort s) :=
  .ite startPort_moves (updMcp_moves _ rfl rfl)

theorem takeBypassOff_moves : Moves s (takeBypassOff s) :=
  .trans (.ite ((reattachDrive_moves.trans reattachPort_moves).trans arbitrate_moves) (.refl _)) (answer_moves _ _ _)

theorem resetJobs_moves : Moves s (resetJobs s) := by
  unfold resetJobs
  generalize s.jbq.jobs = js
  induction js generalizing s with
  | nil => exact .refl _
  | cons j js ih =>
    rw [List.foldl_cons]
    exact (endJob_moves _ _ _ j).trans (ih (s := endJob (.cause .cancelled) true true j s))

/-! ### Which commands are sequences of moves -/

/-- The commands that no sequence of moves gives: those that restart or move the monitor, take records or a peak away, turn
the attention line, or store a setting. -/
def beyondMoves : Instr → Bool
  | .powerOnReset | .indexQualified _ | .startupWindowExpiry | .closedWindowExpiry | .openWindowExpiry
  | .resyncLimitExpiry | .getEvents | .getSnapshot | .clearStats | .attentionPulseEnd | .attentionGapEnd | .setGeometry
  | .setRotation | .setRead | .setVote | .setLadderStep | .setLadderShape | .setDrive | .setPort | .softReset => true
  | _ => false

theorem exec_moves (c : Instr) (s : State) (h : beyondMoves c = false) : ExecMoves c s := by
  cases c with
  | seekComplete current =>
    refine ⟨_, rfl, .ite ?_ (.refl _)⟩
    split
    · exact completeSeek_moves.trans afterEvent_moves
    · exact completeRecalibrate_moves.trans afterEvent_moves
    · exact .refl _
  | seekError =>
    refine ⟨_, rfl, ?_⟩
    split
    · exact seekFault_after_moves
    · exact seekFault_after_moves
    · exact seekFault_after_moves
    · exact .refl _
  | seekTimeoutExpiry => exact ⟨_, rfl, .ite seekFault_after_moves (.refl _)⟩
  | recalibrateTimeoutExpiry => exact ⟨_, rfl, .ite (fence_after_moves _ _) (.refl _)⟩
  | settleWaitEnd => exact ⟨_, rfl, .ite (endSettle_moves.trans afterEvent_moves) (.refl _)⟩
  | restEnd => exact ⟨_, rfl, .ite (beginRecalibrate_moves.trans afterEvent_moves) (.refl _)⟩
  | quietExpiry => exact ⟨_, rfl, .ite (updDsq_moves _ rfl) (.refl _)⟩
  | driveFaultAsserted line =>
    exact ⟨_, rfl, .ite ((Move.pins _).moves.trans (fence_after_moves _ _)) (Move.pins _).moves⟩
  | contentionSeen held => exact ⟨_, rfl, (Move.pins _).moves.trans watchSelect_moves⟩
  | header mark cyl hd sector check outside =>
    refine ⟨_, rfl, ?_⟩
    split
    · exact takeHeader_moves _ _ _
    · exact .refl _
  | copySeal data check outside =>
    refine ⟨_, rfl, ?_⟩
    split
    · exact deliverCopy_moves _
    · exact .refl _
  | batchCompletion =>
    refine ⟨_, rfl, ?_⟩
    split
    · exact (completeBatch_moves _).trans afterEvent_moves
    · exact .refl _
  | cooldownExpiry cyl hd =>
    refine ⟨_, rfl, ?_⟩
    split
    · exact .ite ((updJob_moves _ _).trans arbitrate_moves) (.refl _)
    · exact .refl _
  | holdExpiry => exact ⟨_, rfl, .ite ((updMcp_moves _ rfl rfl).trans arbitrate_moves) (.refl _)⟩
  | emulatedIndex => exact ⟨_, rfl, .ite (updMcp_moves _ rfl rfl) (.refl _)⟩
  | sectorPulse => exact ⟨_, rfl, .ite (updMcp_moves _ rfl rfl) (.refl _)⟩
  | seek cyl =>
    exact ⟨_, rfl, .ite (.ite (((setTrack_moves _).trans beginHold_moves).trans arbitrate_moves)
      (updMcp_moves _ rfl rfl)) (.refl _)⟩
  | head hd => exact ⟨_, rfl, .ite ((selectHead_moves _).trans arbitrate_moves) (.refl _)⟩
  | recalibrate => exact ⟨_, rfl, .ite (((setTrack_moves _).trans beginHold_moves).trans arbitrate_moves) (.refl _)⟩
  | read => exact ⟨_, rfl, .ite takeRead_moves (.refl _)⟩
  | write => exact ⟨_, rfl, .ite (.ite (updMcp_moves _ rfl rfl) (updMcp_moves _ rfl rfl)) (.refl _)⟩
  | writeDataComplete d =>
    refine ⟨_, rfl, ?_⟩
    split
    · exact .ite ((updMcp_moves _ rfl rfl).trans (storeWrite_moves _ _)) (.refl _)
    · exact .refl _
  | faultClear => exact ⟨_, rfl, .ite (updMcp_moves _ rfl rfl) (.refl _)⟩
  | unitSelect active =>
    exact ⟨_, rfl, .ite (Move.pins _).moves ((Move.pins _).moves.trans (updMcp_moves _ rfl rfl))⟩
  | transferStart =>
    refine ⟨_, rfl, ?_⟩
    split
    · exact updStl_moves _
    · exact .refl _
  | requestCodeByte code => exact ⟨_, rfl, .ite (.ite (updStl_moves _) (updStl_moves _)) (.refl _)⟩
  | frameComplete length payload check =>
    refine ⟨_, rfl, ?_⟩
    split
    · exact .ite (updStl_moves _) (.refl _)
    · exact .refl _
  | selectRise => exact ⟨_, rfl, updStl_moves _⟩
  | fetchFirstByte => exact ⟨_, rfl, .ite (updStl_moves _) (.refl _)⟩
  | responseReleased => exact ⟨_, rfl, .ite (updStl_moves _) (.refl _)⟩
  | unknownRequest =>
    refine ⟨_, rfl, ?_⟩
    split
    · exact .ite (refuse_moves _ _) (.refl _)
    · exact .refl _
  | frameError =>
    refine ⟨_, rfl, ?_⟩
    split
    · exact .ite (refuse_moves _ _) (.refl _)
    · exact .refl _
  | status => exact ⟨_, rfl, takeRequest_moves fun _ => answer_moves _ _ _⟩
  | getStats => exact ⟨_, rfl, takeRequest_moves fun _ => answer_moves _ _ _⟩
  | listEntries => exact ⟨_, rfl, takeRequest_moves fun _ => answer_moves _ _ _⟩
  | getEntry => exact ⟨_, rfl, takeRequest_moves takeGetEntry_moves⟩
  | markExported => exact ⟨_, rfl, takeRequest_moves takeMarkExported_moves⟩
  | readSector => exact ⟨_, rfl, takeRequest_moves takeReadSector_moves⟩
  | listFrames => exact ⟨_, rfl, takeRequest_moves fun _ => answer_moves _ _ _⟩
  | queueTrack => exact ⟨_, rfl, takeRequest_moves takeQueueTrack_moves⟩
  | retryTrack => exact ⟨_, rfl, takeRequest_moves takeRetryTrack_moves⟩
  | cancelJob => exact ⟨_, rfl, takeRequest_moves takeCancelJob_moves⟩
  | listJobs => exact ⟨_, rfl, takeRequest_moves fun _ => answer_moves _ _ _⟩
  | listOverlay => exact ⟨_, rfl, takeRequest_moves fun _ => answer_moves _ _ _⟩
  | readOverlay => exact ⟨_, rfl, takeRequest_moves takeReadOverlay_moves⟩
  | dropOverlay => exact ⟨_, rfl, takeRequest_moves takeDropOverlay_moves⟩
  | getSettings => exact ⟨_, rfl, takeRequest_moves fun _ => answer_moves _ _ _⟩
  | clearFence => exact ⟨_, rfl, takeRequest_moves fun _ => takeClearFence_moves⟩
  | restDrive => exact ⟨_, rfl, takeRequest_moves takeRestDrive_moves⟩
  | bypassOn => exact ⟨_, rfl, takeRequest_moves fun _ => .ite takeBypassOn_moves (.refl _)⟩
  | bypassOff => exact ⟨_, rfl, takeRequest_moves fun _ => .ite (.refl _) takeBypassOff_moves⟩
  | _ => simp [beyondMoves] at h

/-! ### The settings -/

/-- The settings of the station's requests, gathered from their blocks (R2, R19, R48, R85, R88, R89, R165, R190). -/
structure Settings where
  geom : Geometry
  rot : RotationSettings
  drive : DriveSettings
  headerOffset : Nat
  slipLimit : Nat
  copyLimit : Nat
  minMargin : Nat
  ladder : List LadderStep
  length : Nat
  repeats : Nat
  cooldown : Nat
  holdLimit : Nat
  exportHold : Bool
  attnPulse : Bool

/-- The settings as they stand. -/
def settingsOf (s : State) : Settings :=
  ⟨s.geom, s.ixm.rot, s.dsq.set, s.rdc.headerOffset, s.rdc.slipLimit, s.vte.copyLimit, s.vte.minMargin, s.jbq.ladder,
    s.jbq.length, s.jbq.repeats, s.jbq.cooldown, s.mcp.holdLimit, s.tks.exportHold, s.mcp.attnPulse⟩

/-- The ranges read the settings alone. -/
theorem SettingsInRange.congr (h : SettingsInRange s) (e : settingsOf t = settingsOf s) : SettingsInRange t := by
  simp only [settingsOf, Settings.mk.injEq] at e
  obtain ⟨geom, rot, drive, offset, slip, copies, margin, ladder, length, repeats, cooldown, hold, -, -⟩ := e
  simpa only [SettingsInRange, geom, rot, drive, offset, slip, copies, margin, ladder, length, repeats, cooldown, hold]
    using h

theorem Move.settings (h : Move s t) : settingsOf t = settingsOf s := by
  cases h <;> simp_all [settingsOf, Machine.offer]

theorem Moves.settings (h : Moves s t) : settingsOf t = settingsOf s :=
  h.keeps (P := fun s t => settingsOf t = settingsOf s) (fun _ => rfl) fun k m => m.settings.trans k

theorem settingsOf_updIxm (f : Ixm → Ixm) (h : (f s.ixm).rot = s.ixm.rot) : settingsOf (s.updIxm f) = settingsOf s := by
  simp [settingsOf, h]

end Sys2Proof.Machine
end

section
/-! PROOF. Every setting stays within its range (R2, R19, R48, R85, R88, R89, R165, R190). -/

namespace Sys2Proof.Machine

variable {s t : State}

/-! ### The commands that store no setting -/

theorem settingsOf_reportViolations (n : Nat) : settingsOf (reportViolations n s) = settingsOf s := rfl

theorem settingsOf_badEvent {x : Ixm} (h : x.rot = s.ixm.rot) : settingsOf (badEvent x s) = settingsOf s := by
  have moved : settingsOf (reportViolations x.violations (s.updIxm fun _ => { x with latched := x.latched || latches x })) =
      settingsOf s := (settingsOf_reportViolations _).trans (settingsOf_updIxm _ h)
  unfold badEvent
  dsimp only
  split
  · exact (offerLatching_moves _ _ _).settings.trans moved
  · exact moved

theorem settingsOf_goodEvent (now : Timer) : settingsOf (goodEvent now s) = settingsOf s := by
  have moved : settingsOf (s.updIxm (goodIndex now)) = settingsOf s := settingsOf_updIxm _ rfl
  unfold goodEvent
  dsimp only
  split
  · exact (offer_moves _ _ _).settings.trans moved
  · exact moved

theorem settingsOf_monitorIndex (now : Timer) : settingsOf (monitorIndex now s) = settingsOf s := by
  unfold monitorIndex
  split
  · exact settingsOf_updIxm _ rfl
  · exact (offer_moves _ _ _).settings.trans (settingsOf_updIxm _ rfl)
  · exact settingsOf_badEvent rfl
  · exact settingsOf_goodEvent now
  · exact settingsOf_updIxm _ rfl

theorem settingsOf_qualifiedIndex (s : State) : settingsOf (qualifiedIndex s) = settingsOf s := by
  have taken : settingsOf (monitorIndex s.clock.rotationTimer (s.updIxm markTaken)) = settingsOf s :=
    (settingsOf_monitorIndex _).trans (settingsOf_updIxm _ rfl)
  have followed := (followSpindle_moves (spindleOf s.ixm)).settings.trans taken
  refine afterEvent_moves.settings.trans ?_
  split
  · exact (takeMark_moves _).settings.trans followed
  · exact followed

theorem settingsOf_resetBlocks (s : State) : settingsOf (resetBlocks s) = settingsOf s := by
  have ended := (resetJobs_moves (s := s)).settings
  simp only [settingsOf, Settings.mk.injEq] at ended
  simp [settingsOf, resetBlocks, restartMonitor, resetDsq, resetRdc, resetMcp, ended]

theorem settingsOf_softReset (s : State) : settingsOf (softReset s) = settingsOf s :=
  (offer_moves _ _ _).settings.trans (settingsOf_resetBlocks s)

theorem takeRequest_settings {code : Byte} {act : List Byte → State → State}
    (h : ∀ p, settingsOf (act p s) = settingsOf s) : settingsOf (takeRequest code act s) = settingsOf s :=
  takeRequest_keeps (P := fun t => settingsOf t = settingsOf s) rfl rfl h

/-! ### What is stored (R177) -/

theorem clampNat_bounds {lo hi : Nat} (h : lo ≤ hi) (x : Nat) : lo ≤ clampNat lo hi x ∧ clampNat lo hi x ≤ hi := by
  rw [clampNat_eq _ _ _ h]; omega

theorem clampInt_bounds {lo hi : Int} (h : lo ≤ hi) (x : Int) : lo ≤ clampInt lo hi x ∧ clampInt lo hi x ≤ hi := by
  rw [clampInt_eq _ _ _ h]; omega

theorem clampRotation_inRange (r : RotationSettings) : (clampRotation r).InRange := by
  obtain ⟨p1, p2⟩ := clampNat_bounds (show 8000 ≤ 50000 by decide) r.pNom
  obtain ⟨t1, t2⟩ := clampNat_bounds (show 1 ≤ 100 by decide) r.tol
  obtain ⟨-, u⟩ := clampNat_bounds (show 0 ≤ 7 by decide) r.startup
  obtain ⟨l1, l2⟩ := clampNat_bounds (show 1 ≤ 7 by decide) r.limit
  obtain ⟨-, n⟩ := clampNat_bounds (show 0 ≤ 6 by decide) r.shift
  obtain ⟨w1, w2⟩ := clampNat_bounds (show 1 ≤ 255 by decide) r.width
  exact ⟨p1, p2, t1, t2, u, l1, l2, n, w1, w2⟩

theorem driveSettingsOf_inRange (p : List Byte) : (driveSettingsOf p).InRange := by
  obtain ⟨t1, t2⟩ := clampNat_bounds (show 10 ≤ 500 by decide) (pairAt p 0)
  obtain ⟨-, w⟩ := clampNat_bounds (show 0 ≤ 50 by decide) (byteAt p 2)
  obtain ⟨-, q⟩ := clampNat_bounds (show 0 ≤ 7 by decide) (byteAt p 3)
  obtain ⟨f1, f2⟩ := clampNat_bounds (show 1 ≤ 15 by decide) (byteAt p 4)
  obtain ⟨y1, y2⟩ := clampNat_bounds (show 1 ≤ 600 by decide) (pairAt p 5)
  exact ⟨t1, t2, w, q, f1, f2, y1, y2⟩

theorem ladderRecordOf_inRange (p : List Byte) : (ladderRecordOf p).InRange := by
  obtain ⟨o1, o2⟩ := clampInt_bounds (show (-3 : Int) ≤ 3 by decide) (signedAt p 1)
  obtain ⟨s1, s2⟩ := clampInt_bounds (show (-4 : Int) ≤ 4 by decide) (signedAt p 2)
  obtain ⟨n1, n2⟩ := clampNat_bounds (show 1 ≤ 4 by decide) (byteAt p 3)
  exact ⟨o1, o2, s1, s2, n1, n2⟩

/-! ### The commands that store one -/

theorem SettingsInRange.reset : SettingsInRange State.reset := by
  unfold SettingsInRange RotationSettings.InRange DriveSettings.InRange LadderStep.InRange
  decide

theorem settingsOf_powerOn (s : State) : settingsOf (powerOn s) = settingsOf State.reset := rfl

theorem settingsOf_portNewGeometry (s : State) : settingsOf (portNewGeometry s) = settingsOf s := by
  unfold portNewGeometry
  split
  · exact (setTrack_moves _).settings
  · exact (setTrack_moves _).settings
  · exact startPort_moves.settings

theorem SettingsInRange.takeSetGeometry (h : SettingsInRange s) (p : List Byte) :
    SettingsInRange (takeSetGeometry p s) := by
  unfold Machine.takeSetGeometry
  dsimp only
  split
  · rename_i inRange
    split
    · have stored : SettingsInRange (s.updGeom fun _ => geometryOf p) := ⟨inRange, h.2⟩
      exact stored.congr ((arbitrate_moves.trans (answer_moves _ _ _)).settings.trans (settingsOf_portNewGeometry _))
    · exact h.congr rfl
  · exact h.congr rfl

theorem SettingsInRange.takeSetRotation (h : SettingsInRange s) (p : List Byte) :
    SettingsInRange (takeSetRotation p s) := by
  have ⟨geom, _, rest⟩ := h
  have stored : SettingsInRange (s.updIxm (restartMonitor (rotationOf p))) := ⟨geom, clampRotation_inRange _, rest⟩
  unfold Machine.takeSetRotation
  split
  · exact stored.congr (((followSpindle_moves _).trans afterEvent_moves).trans (answer_moves _ _ _)).settings
  · exact h.congr rfl

theorem SettingsInRange.takeSetRead (h : SettingsInRange s) (p : List Byte) : SettingsInRange (takeSetRead p s) := by
  obtain ⟨geom, rot, drive, -, -, -, rest⟩ := h
  obtain ⟨-, offset⟩ := clampNat_bounds (show 0 ≤ 2000 by decide) (pairAt p 0)
  obtain ⟨least, most⟩ := clampNat_bounds (show 10 ≤ 2000 by decide) (pairAt p 2)
  exact ⟨geom, rot, drive, offset, least, most, rest⟩

theorem SettingsInRange.takeSetVote (h : SettingsInRange s) (p : List Byte) : SettingsInRange (takeSetVote p s) := by
  obtain ⟨geom, rot, drive, offset, slip, slip', -, -, -, rest⟩ := h
  obtain ⟨least, most⟩ := clampNat_bounds (show 3 ≤ 5 by decide) (byteAt p 0)
  obtain ⟨-, margin⟩ := clampNat_bounds (show 0 ≤ 40 by decide) (byteAt p 1)
  exact ⟨geom, rot, drive, offset, slip, slip', least, most, margin, rest⟩

theorem SettingsInRange.takeSetLadderStep (h : SettingsInRange s) (p : List Byte) :
    SettingsInRange (takeSetLadderStep p s) := by
  unfold Machine.takeSetLadderStep
  split
  · obtain ⟨geom, rot, drive, offset, slip, slip', copies, copies', margin, twelve, records, rest⟩ := h
    refine ⟨geom, rot, drive, offset, slip, slip', copies, copies', margin, ?_, fun r hr => ?_, rest⟩
    · exact (List.length_set ..).trans twelve
    · rcases List.mem_or_eq_of_mem_set hr with held | rfl
      · exact records r held
      · exact ladderRecordOf_inRange p
  · exact h.congr rfl

theorem SettingsInRange.takeSetLadderShape (h : SettingsInRange s) (p : List Byte) :
    SettingsInRange (takeSetLadderShape p s) := by
  obtain ⟨geom, rot, drive, offset, slip, slip', copies, copies', margin, twelve, records, -, -, -, -, hold⟩ := h
  obtain ⟨least, most⟩ := clampNat_bounds (show 1 ≤ 12 by decide) (byteAt p 0)
  obtain ⟨-, repeats⟩ := clampNat_bounds (show 0 ≤ 3 by decide) (byteAt p 1)
  obtain ⟨-, cooldown⟩ := clampNat_bounds (show 0 ≤ 60000 by decide) (pairAt p 2)
  exact ⟨geom, rot, drive, offset, slip, slip', copies, copies', margin, twelve, records, least, most, repeats, cooldown,
    hold⟩

theorem SettingsInRange.takeSetDrive (h : SettingsInRange s) (p : List Byte) : SettingsInRange (takeSetDrive p s) := by
  obtain ⟨geom, rot, -, rest⟩ := h
  have stored : SettingsInRange (s.updDsq fun d => { d with set := driveSettingsOf p }) :=
    ⟨geom, rot, driveSettingsOf_inRange p, rest⟩
  exact stored.congr (arbitrate_moves.trans (answer_moves _ _ _)).settings

theorem SettingsInRange.takeSetPort (h : SettingsInRange s) (p : List Byte) : SettingsInRange (takeSetPort p s) := by
  obtain ⟨geom, rot, drive, offset, slip, slip', copies, copies', margin, twelve, records, shape, shape', repeats,
    cooldown, -⟩ := h
  obtain ⟨-, hold⟩ := clampNat_bounds (show 0 ≤ 2000 by decide) (pairAt p 0)
  have stored : SettingsInRange (storePort (holdLimitOf p) (flagAt p 2) (flagAt p 3) s) :=
    ⟨geom, rot, drive, offset, slip, slip', copies, copies', margin, twelve, records, shape, shape', repeats, cooldown,
      hold⟩
  exact stored.congr (arbitrate_moves.trans (answer_moves _ _ _)).settings

/-! ### Every command and every step -/

theorem SettingsInRange.takeRequest {code : Byte} {act : List Byte → State → State} (h : SettingsInRange s)
    (acts : ∀ p, SettingsInRange (act p s)) : SettingsInRange (takeRequest code act s) :=
  takeRequest_keeps (P := SettingsInRange) h (h.congr rfl) acts

theorem exec_settingsInRange {c : Instr} (h : SettingsInRange s) (e : exec c s = .next t) : SettingsInRange t := by
  by_cases moves : beyondMoves c = false
  · obtain ⟨u, hu, reach⟩ := exec_moves c s moves
    cases e.symm.trans hu
    exact h.congr reach.settings
  cases c with
  | powerOnReset =>
    have start : SettingsInRange (powerOn s) := SettingsInRange.reset.congr (settingsOf_powerOn s)
    cases e
    exact start.congr (Moves.ite (raiseFence_moves _ _) (.ite (raiseFence_moves _ _) (.refl _))).settings
  | indexQualified n =>
    cases e
    refine h.congr ?_
    split
    · exact settingsOf_qualifiedIndex s
    · rfl
  | startupWindowExpiry =>
    cases e
    refine h.congr ?_
    split
    · exact ((followSpindle_moves _).trans afterEvent_moves).settings.trans (settingsOf_badEvent rfl)
    · rfl
  | closedWindowExpiry =>
    cases e
    refine h.congr ?_
    split
    · exact settingsOf_updIxm _ rfl
    · rfl
  | openWindowExpiry =>
    cases e
    refine h.congr ?_
    split
    · exact (((followSpindle_moves _).trans takeLateExpiry_moves).trans afterEvent_moves).settings.trans
        (settingsOf_badEvent rfl)
    · rfl
  | resyncLimitExpiry =>
    cases e
    refine h.congr ?_
    split
    · exact (((offer_moves _ _ _).trans (followSpindle_moves _)).trans afterEvent_moves).settings.trans
        (settingsOf_updIxm _ rfl)
    · rfl
  | getEvents => cases e; exact h.congr (takeRequest_settings fun _ => rfl)
  | getSnapshot => cases e; exact h.congr (takeRequest_settings fun _ => rfl)
  | clearStats => cases e; exact h.congr (takeRequest_settings fun _ => rfl)
  | attentionPulseEnd => cases e; exact h.congr (by split <;> rfl)
  | attentionGapEnd => cases e; exact h.congr (by split <;> rfl)
  | softReset => cases e; exact h.congr (takeRequest_settings fun _ => settingsOf_softReset s)
  | setGeometry => cases e; exact h.takeRequest h.takeSetGeometry
  | setRotation => cases e; exact h.takeRequest h.takeSetRotation
  | setRead => cases e; exact h.takeRequest h.takeSetRead
  | setVote => cases e; exact h.takeRequest h.takeSetVote
  | setLadderStep => cases e; exact h.takeRequest h.takeSetLadderStep
  | setLadderShape => cases e; exact h.takeRequest h.takeSetLadderShape
  | setDrive => cases e; exact h.takeRequest h.takeSetDrive
  | setPort => cases e; exact h.takeRequest h.takeSetPort
  | _ => exact absurd rfl moves

/-- What every command keeps, what taking a command off the queue keeps, and what a microsecond that passes with nothing
due keeps, every step keeps. -/
theorem step_keeps {P : State → Prop} (dequeue : ∀ (s : State) (rest : List Instr), P s → P { s with pending := rest })
    (command : ∀ (c : Instr) (s t : State), P s → exec c s = .next t → P t)
    (passes : ∀ s, P s → dueCommand s = none → P (passTime s)) (h : P s) (e : step s = .next t) : P t := by
  cases pending : s.pending with
  | cons c rest =>
    rw [step, pending] at e
    exact command c _ t (dequeue s rest h) e
  | nil =>
    cases due : dueCommand s with
    | some c =>
      rw [step_of_due pending due] at e
      exact command c s t h e
    | none =>
      rw [step_of_nothing_due pending due] at e
      cases e
      exact passes s h due

/-- Settles O9: a command stores no setting, or one within its range, and time that passes stores none. -/
theorem stepKeepsSettingsInRange : Obligations.StepKeepsSettingsInRange := fun _ _ =>
  step_keeps (fun _ _ h => h.congr rfl) (fun _ _ _ => exec_settingsInRange) fun _ h _ => h.congr rfl

end Sys2Proof.Machine
end

section
/-! PROOF. What each command of the Index Monitor leaves in it, and the bounds of the rotation average (R4 to R14). -/

namespace Sys2Proof.Machine

variable {s t : State} {x : Ixm} {now : Timer}

/-! ### The monitor after its commands -/

/-- The monitor after a bad event that moved it to `x` (R10). -/
def afterBad (x : Ixm) : Ixm :=
  { x with latched := x.latched || latches x }

theorem badEvent_ixm (x : Ixm) (s : State) : (badEvent x s).ixm = afterBad x := by
  unfold badEvent
  dsimp only
  split <;> rfl

theorem goodEvent_ixm (now : Timer) (s : State) : (goodEvent now s).ixm = goodIndex now s.ixm := by
  unfold goodEvent
  dsimp only
  split <;> rfl

/-- The monitor after a qualified index (R5 to R9). -/
def indexed (now : Timer) (x : Ixm) : Ixm :=
  match x.window with
  | .idle => enterStartup now x
  | .startup => enterClosed now x
  | .closed => afterBad (enterClosed now (countBad x))
  | .opened => goodIndex now x
  | .resync => enterClosed now x

theorem monitorIndex_ixm (now : Timer) (s : State) : (monitorIndex now s).ixm = indexed now s.ixm := by
  unfold monitorIndex indexed
  cases s.ixm.window with
  | idle => rfl
  | startup => rfl
  | closed => exact badEvent_ixm _ _
  | opened => exact goodEvent_ixm _ _
  | resync => rfl

theorem followSpindle_ixm (old : Spindle) (s : State) : (followSpindle old s).ixm = s.ixm :=
  (followSpindle_changes old).2 .ixm (by decide)

theorem takeMark_ixm (r : Timer) (s : State) : (takeMark r s).ixm = s.ixm :=
  (takeMark_changes r).2 .ixm (by decide)

theorem takeLateExpiry_ixm (s : State) : (takeLateExpiry s).ixm = s.ixm :=
  takeLateExpiry_changes.2 .ixm (by decide)

theorem afterEvent_ixm (s : State) : (afterEvent s).ixm = s.ixm :=
  afterEvent_changes.2 .ixm (by decide)

theorem qualifiedIndex_ixm (s : State) :
    (qualifiedIndex s).ixm = indexed s.clock.rotationTimer (markTaken s.ixm) := by
  have moved : (followSpindle (spindleOf s.ixm) (monitorIndex s.clock.rotationTimer (s.updIxm markTaken))).ixm =
      indexed s.clock.rotationTimer (markTaken s.ixm) := by
    rw [followSpindle_ixm, monitorIndex_ixm, State.updIxm_ixm]
  unfold qualifiedIndex
  dsimp only
  rw [afterEvent_ixm]
  split
  · rw [takeMark_ixm, moved]
  · exact moved

theorem storeRotation_ixm (r : RotationSettings) (s : State) : (storeRotation r s).ixm = restartMonitor r s.ixm := by
  rw [storeRotation, afterEvent_ixm, followSpindle_ixm, State.updIxm_ixm]

/-! ### The bounds of A (R4, R13, R14) -/

theorem RotationSettings.InRange.slack_le {r : RotationSettings} (h : r.InRange) : 10 * r.slack ≤ r.pNom := by
  obtain ⟨-, -, -, tol, -⟩ := h
  have product : r.pNom * r.tol ≤ r.pNom * 100 := Nat.mul_le_mul_left _ tol
  unfold RotationSettings.slack
  omega

/-- A moves toward the interval, and not past it (R13). -/
theorem averageAfter_between {lo hi a i : Int} (n : Nat) (ha : lo ≤ a ∧ a ≤ hi) (hi' : lo ≤ i ∧ i ≤ hi) :
    lo ≤ averageAfter a i n ∧ averageAfter a i n ≤ hi := by
  have positive : (1 : Int) ≤ 2 ^ n := one_le_pow₀ (by decide)
  unfold averageAfter
  rcases le_total a i with up | down
  · have low : 0 ≤ (i - a).tdiv (2 ^ n) := Int.tdiv_nonneg (by omega) (by omega)
    have high : (i - a).tdiv (2 ^ n) ≤ i - a := Int.tdiv_le_self _ (by omega)
    omega
  · have low : 0 ≤ (a - i).tdiv (2 ^ n) := Int.tdiv_nonneg (by omega) (by omega)
    have high : (a - i).tdiv (2 ^ n) ≤ a - i := Int.tdiv_le_self _ (by omega)
    have mirrored : (i - a).tdiv (2 ^ n) = -(a - i).tdiv (2 ^ n) := by rw [← Int.neg_tdiv, neg_sub]
    omega

theorem elapsed_self (now : Timer) : elapsed now now = 0 := by
  simp [elapsed]

/-- One more microsecond has passed, unless the timer has gone all the way round (R1). -/
theorem elapsed_succ (now start : Timer) (h : elapsed now start < 4294967295) :
    elapsed (now + 1) start = elapsed now start + 1 := by
  unfold elapsed at *
  bv_omega

/-- AverageKept, of a monitor at a reading of the rotation timer. -/
structure MonitorKept (x : Ixm) (now : Timer) : Prop where
  range : x.rot.InRange
  average : (x.rot.pNom : Int) - x.rot.slack ≤ x.average ∧ x.average ≤ (x.rot.pNom : Int) + x.rot.slack
  closed : x.window = .closed → ∃ r, x.reference = some r ∧ x.expiry = some ⟨r, x.rot.pNom - x.rot.slack⟩ ∧
    elapsed now r ≤ x.rot.pNom - x.rot.slack
  opened : x.window = .opened → ∃ r, x.reference = some r ∧ x.expiry = some ⟨r, x.rot.pNom + x.rot.slack⟩ ∧
    x.rot.pNom - x.rot.slack ≤ elapsed now r ∧ elapsed now r ≤ x.rot.pNom + x.rot.slack
  violations : x.violations ≤ 7

theorem averageKept_iff (s : State) : AverageKept s ↔ MonitorKept s.ixm s.clock.rotationTimer :=
  ⟨fun ⟨range, average, closed, opened, violations⟩ => ⟨range, average, closed, opened, violations⟩,
    fun ⟨range, average, closed, opened, violations⟩ => ⟨range, average, closed, opened, violations⟩⟩

/-! ### What the monitor's moves keep -/

theorem MonitorKept.markTaken (h : MonitorKept x now) : MonitorKept (markTaken x) now :=
  ⟨h.range, h.average, h.closed, h.opened, h.violations⟩

theorem MonitorKept.countBad (h : MonitorKept x now) : MonitorKept (countBad x) now :=
  ⟨h.range, h.average, h.closed, h.opened, Nat.min_le_left _ _⟩

theorem MonitorKept.afterBad (h : MonitorKept x now) : MonitorKept (afterBad x) now :=
  ⟨h.range, h.average, h.closed, h.opened, h.violations⟩

theorem MonitorKept.enterStartup (h : MonitorKept x now) : MonitorKept (enterStartup now x) now :=
  ⟨h.range, h.average, nofun, nofun, h.violations⟩

theorem MonitorKept.enterResync (h : MonitorKept x now) : MonitorKept (enterResync now x) now :=
  ⟨h.range, h.average, nofun, nofun, h.violations⟩

theorem MonitorKept.enterIdleWindow (h : MonitorKept x now) : MonitorKept (enterIdleWindow x) now :=
  ⟨h.range, h.average, nofun, nofun, h.violations⟩

/-- A window that opens now has run for no time. -/
theorem MonitorKept.enterClosed (h : MonitorKept x now) : MonitorKept (enterClosed now x) now where
  range := h.range
  average := h.average
  closed _ := ⟨now, rfl, rfl, by rw [elapsed_self]; exact Nat.zero_le _⟩
  opened := nofun
  violations := h.violations

/-- The expiry of CLOSED has fallen: at least its length has passed, and no more than the length of OPEN. -/
theorem MonitorKept.enterOpen (h : MonitorKept x now) (closed : x.window = .closed)
    (due : ∃ e, x.expiry = some e ∧ e.FallenAt now) : MonitorKept (enterOpen x) now where
  range := h.range
  average := h.average
  closed := nofun
  opened _ := by
    obtain ⟨r, reference, expiry, upper⟩ := h.closed closed
    obtain ⟨e, same, fallen⟩ := due
    cases expiry.symm.trans same
    have lower : x.rot.pNom - x.rot.slack ≤ elapsed now r := fallen
    refine ⟨r, reference, by simp [Machine.enterOpen, reference], lower, ?_⟩
    show elapsed now r ≤ x.rot.pNom + x.rot.slack
    omega
  violations := h.violations

/-- A good interval lies within the tolerance, so A stays there (R7, R8, R13). -/
theorem MonitorKept.goodIndex (h : MonitorKept x now) (opened : x.window = .opened) :
    MonitorKept (goodIndex now x) now where
  range := h.range
  average := by
    obtain ⟨r, reference, -, lower, upper⟩ := h.opened opened
    have small := h.range.slack_le
    have interval : (x.rot.pNom : Int) - x.rot.slack ≤ elapsed now (x.reference.getD now) ∧
        (elapsed now (x.reference.getD now) : Int) ≤ x.rot.pNom + x.rot.slack := by
      rw [reference, Option.getD_some]
      omega
    exact averageAfter_between x.rot.shift h.average interval
  closed _ := ⟨now, rfl, rfl, by rw [elapsed_self]; exact Nat.zero_le _⟩
  opened := nofun
  violations := (Nat.sub_le _ _).trans h.violations

theorem MonitorKept.indexed (h : MonitorKept x now) : MonitorKept (indexed now x) now := by
  unfold Machine.indexed
  split
  · exact h.enterStartup
  · exact h.enterClosed
  · exact h.countBad.enterClosed.afterBad
  · exact h.goodIndex ‹_›
  · exact h.enterClosed

/-- A restarted monitor has A at the nominal period (R17, R18). -/
theorem MonitorKept.restartMonitor {r : RotationSettings} (h : r.InRange) (x : Ixm) (now : Timer) :
    MonitorKept (restartMonitor r x) now where
  range := h
  average := by
    show (r.pNom : Int) - r.slack ≤ r.pNom ∧ (r.pNom : Int) ≤ r.pNom + r.slack
    omega
  closed := nofun
  opened := nofun
  violations := Nat.zero_le _

/-- Time passes only while the window's expiry has not fallen, so it cannot pass the end of the window. -/
theorem MonitorKept.tick (h : MonitorKept x now) (closed : x.window = .closed → ¬ ∃ e, x.expiry = some e ∧ e.FallenAt now)
    (opened : x.window = .opened → ¬ ∃ e, x.expiry = some e ∧ e.FallenAt now) : MonitorKept (tickLine x) (now + 1) where
  range := h.range
  average := h.average
  closed w := by
    obtain ⟨-, period, -⟩ := h.range
    obtain ⟨r, reference, expiry, -⟩ := h.closed w
    have running : ¬ x.rot.pNom - x.rot.slack ≤ elapsed now r := fun fallen => closed w ⟨_, expiry, fallen⟩
    refine ⟨r, reference, expiry, ?_⟩
    rw [elapsed_succ now r (by omega)]
    show elapsed now r + 1 ≤ x.rot.pNom - x.rot.slack
    omega
  opened w := by
    obtain ⟨-, period, -⟩ := h.range
    have small := h.range.slack_le
    obtain ⟨r, reference, expiry, lower, -⟩ := h.opened w
    have running : ¬ x.rot.pNom + x.rot.slack ≤ elapsed now r := fun fallen => opened w ⟨_, expiry, fallen⟩
    refine ⟨r, reference, expiry, ?_⟩
    rw [elapsed_succ now r (by omega)]
    show x.rot.pNom - x.rot.slack ≤ elapsed now r + 1 ∧ elapsed now r + 1 ≤ x.rot.pNom + x.rot.slack
    omega
  violations := h.violations

/-! ### Every command and every step -/

/-- The clock stands under a command, so it keeps A's bounds if it leaves a monitor within them. -/
theorem AverageKept.of_ixm (clock : t.clock = s.clock) (h : MonitorKept t.ixm s.clock.rotationTimer) : AverageKept t :=
  (averageKept_iff t).mpr (clock ▸ h)

theorem AverageKept.congr (h : AverageKept s) (clock : t.clock = s.clock) (ixm : t.ixm = s.ixm) : AverageKept t :=
  .of_ixm clock (ixm ▸ (averageKept_iff s).mp h)

theorem powerOn_averageKept (s : State) : MonitorKept (powerOn s).ixm (powerOn s).clock.rotationTimer :=
  have start := MonitorKept.restartMonitor SettingsInRange.reset.2.1 State.reset.ixm 0
  ⟨start.range, start.average, nofun, nofun, start.violations⟩

theorem exec_averageKept {c : Instr} (h : AverageKept s) (e : exec c s = .next t) : AverageKept t := by
  have kept := (averageKept_iff s).mp h
  by_cases power : c = .powerOnReset
  · subst power
    have fenced (cause : FenceCause) (v : State) (k : MonitorKept v.ixm v.clock.rotationTimer) :
        AverageKept (raiseFence cause v v) :=
      .congr ((averageKept_iff v).mpr k) ((raiseFence_changes cause v).2 .clock (by decide))
        ((raiseFence_changes cause v).2 .ixm (by decide))
    cases e
    have start := powerOn_averageKept s
    split
    · exact fenced _ _ start
    · split
      · exact fenced _ _ start
      · exact (averageKept_iff _).mpr start
  have clock : t.clock = s.clock := exec_same e power (b := .clock) (by decide) (clock_not_mem_ownBlocks c)
  by_cases own : .ixm ∈ ownBlocks c
  · refine .of_ixm clock ?_
    rcases ixm_mem_ownBlocks own with ⟨n, rfl⟩ | rfl | rfl | rfl | rfl | rfl | rfl
    · cases e
      split
      · rw [qualifiedIndex_ixm]; exact kept.markTaken.indexed
      · exact kept
    · cases e
      split
      · rw [afterEvent_ixm, followSpindle_ixm, badEvent_ixm]; exact kept.countBad.enterIdleWindow.afterBad
      · exact kept
    · cases e
      split
      · rename_i due
        obtain ⟨window, fallen⟩ := (windowDue_iff .closed s).mp due
        exact kept.enterOpen window fallen
      · exact kept
    · cases e
      split
      · rw [afterEvent_ixm, takeLateExpiry_ixm, followSpindle_ixm, badEvent_ixm]
        exact kept.countBad.enterResync.afterBad
      · exact kept
    · cases e
      split
      · rw [afterEvent_ixm, followSpindle_ixm]; exact kept.enterIdleWindow
      · exact kept
    · cases e
      refine takeRequest_keeps (P := fun t => MonitorKept t.ixm s.clock.rotationTimer) kept kept fun p => ?_
      unfold takeSetRotation
      split
      · show MonitorKept (storeRotation _ s).ixm _
        rw [storeRotation_ixm]
        exact .restartMonitor (clampRotation_inRange _) _ _
      · exact kept
    · cases e
      exact takeRequest_keeps (P := fun t => MonitorKept t.ixm s.clock.rotationTimer) kept kept fun p =>
        .restartMonitor kept.range _ _
  · exact h.congr clock (exec_same e power (b := .ixm) (by decide) own)

theorem passTime_averageKept (h : AverageKept s) (none : dueCommand s = none) : AverageKept (passTime s) := by
  have running (w : Window) (c : Instr) (hc : Fallen c s ↔ windowDue w s = true) (window : s.ixm.window = w) :
      ¬ ∃ e, s.ixm.expiry = some e ∧ e.FallenAt s.clock.rotationTimer := fun fallen => by
    obtain ⟨d, due, -⟩ := (dueCommand_takesFirst s).first c (hc.mpr ((windowDue_iff w s).mpr ⟨window, fallen⟩))
      (Nat.zero_le _)
    simp [none] at due
  have kept := ((averageKept_iff s).mp h).tick (running .closed .closedWindowExpiry (windowDue_iff _ s).symm)
    (running .opened .openWindowExpiry (windowDue_iff _ s).symm)
  refine (averageKept_iff _).mpr ?_
  rw [show (passTime s).clock.rotationTimer = s.clock.rotationTimer + 1 from (advanceClock_cases s.clock).1]
  exact kept

/-- Settles O13: a good interval and the A it moves lie within the tolerance, and no window runs past its end. -/
theorem stepKeepsAverageInBounds : Obligations.StepKeepsAverageInBounds := fun _ _ =>
  step_keeps (fun _ _ h => h.congr rfl rfl) (fun _ _ _ => exec_averageKept) fun _ => passTime_averageKept

end Sys2Proof.Machine
end

section
/-! PROOF. Power-on (R18, R46, R60, R69, R87, R88, R112, R129, R144, R167, R168, R178). -/

namespace Sys2Proof.Machine

variable {s t : State}

/-! ### Power-on without a fence cause -/

theorem transferAfterReset_eq (x : Transfer) : transferAfterReset x = if x = .none then .none else .ignored := by
  cases x <;> rfl

theorem powerOn_blocksReset (s : State) : BlocksReset s (powerOn s) := by
  refine ⟨rfl, rfl, rfl, rfl, rfl, rfl, rfl, rfl, rfl, rfl, rfl, rfl, rfl, ?_⟩
  show (⟨transferAfterReset s.stl.transfer, none, none, none, 0, false, 0, []⟩ : Stl) = _
  rw [transferAfterReset_eq]

theorem exec_powerOnReset_quiet (fault : s.pins.driveFault = false) (select : s.pins.selectHeld ≠ some false) :
    exec .powerOnReset s = .next (powerOn s) := by
  simp [exec, execPowerOnReset, fault, select]

theorem exec_powerOnReset_fence {cause : FenceCause} (h : s.pins.driveFault = true ∧ cause = .driveFault ∨
    s.pins.driveFault = false ∧ s.pins.selectHeld = some false ∧ cause = .contention) :
    exec .powerOnReset s = .next (raiseFence cause (powerOn s) (powerOn s)) := by
  rcases h with ⟨fault, rfl⟩ | ⟨quiet, select, rfl⟩
  · simp [exec, execPowerOnReset, fault]
  · simp [exec, execPowerOnReset, quiet, select]

/-! ### The fence raised at power-on -/

/-- A sequencer without a grant abandons no more than the operation in flight. -/
theorem abandonWork_of_no_grant (h : s.dsq.grant = none) : abandonWork s = clearOperation s := by
  unfold abandonWork
  rw [h]

/-- Without a grant and without a fence, a fence changes the sequencer and the queue alone (R38). -/
theorem raiseFence_of_no_grant {cause : FenceCause} {before : State} (grant : s.dsq.grant = none)
    (fence : s.dsq.fence = none) : raiseFence cause before s =
      offerLatching .driveFenced (causeByte cause)
        { snapshotOf (.fence cause) (lastKnown before.dsq) before with faults := s.dsq.faults }
        ((clearOperation s).updDsq fun d => { d with fence := some cause, position := none, state := .fenced }) := by
  simp [raiseFence, fence, abandonWork_of_no_grant grant]

/-- The fence at power-on reaches no block that BlocksReset reads. -/
theorem fence_at_powerOn_blocksReset (cause : FenceCause) (s : State) :
    BlocksReset s (raiseFence cause (powerOn s) (powerOn s)) := by
  rw [raiseFence_of_no_grant rfl rfl]
  exact powerOn_blocksReset s

/-- Settles O4: the reset state where no line stands against it, and the first fence over it where one does. -/
theorem powerOnResetsEveryBlock : Obligations.PowerOnResetsEveryBlock := by
  refine ⟨fun s fault select => ?_, fun s cause h => ?_⟩
  · exact ⟨powerOn s, exec_powerOnReset_quiet fault select, powerOn_blocksReset s, rfl, rfl⟩
  · refine ⟨_, exec_powerOnReset_fence h, fence_at_powerOn_blocksReset cause s, ?_, ?_⟩
    · rw [raiseFence_of_no_grant rfl rfl]; rfl
    · rw [raiseFence_of_no_grant rfl rfl]; rfl

end Sys2Proof.Machine
end

section
/-! PROOF. SET_ROTATION (R17, R23), with the end of an event that grants nothing. -/

namespace Sys2Proof.Machine

variable {s t u : State} {bs : List Block}

/-! ### The spindle and the end of an event -/

theorem spindleDown_iff (x : Ixm) : spindleDown x = true ↔ x.window = .idle ∨ x.window = .startup := by
  unfold spindleDown spindleOf
  cases x.window <;> cases x.latched <;> simp

theorem spindleOf_ne_running_of_down {x : Ixm} (h : spindleDown x = true) : spindleOf x ≠ .running := by
  intro running
  simp [spindleDown, running] at h

/-- An event that ends with the drive busy, the spindle not RUNNING, or a batch running, ends with the port's part alone
(R25, R72). -/
theorem afterEvent_of_no_grant (h : s.dsq.state ≠ .idle ∨ spindleOf s.ixm ≠ .running ∨ s.vte.batch.isSome) :
    afterEvent s = testHold (followReady s) := by
  have port : ChangesOnly [.mcp] s (testHold (followReady s)) := followReady_changes.trans testHold_changes
  refine arbitrate_eq_self ?_
  rw [show (testHold (followReady s)).dsq = s.dsq from port.2 .dsq (by decide),
    show (testHold (followReady s)).ixm = s.ixm from port.2 .ixm (by decide),
    show (testHold (followReady s)).vte = s.vte from port.2 .vte (by decide)]
  exact h

theorem afterEvent_changes_port (h : s.dsq.state ≠ .idle ∨ spindleOf s.ixm ≠ .running ∨ s.vte.batch.isSome) :
    ChangesOnly [.mcp] s (afterEvent s) := by
  rw [afterEvent_of_no_grant h]
  exact followReady_changes.trans testHold_changes

/-- A port that is not detached is NOT_READY while the spindle is STOPPED or STARTING (R146). -/
theorem followReady_of_down (h : spindleDown s.ixm = true) (attached : s.mcp.state ≠ .detached) :
    (followReady s).mcp.state = .notReady := by
  have unready : readyToServe s = false := by simp [readyToServe, h]
  unfold followReady
  split
  · exact absurd ‹_› attached
  · simpa [unready] using ‹_›
  · simp [unready, leaveFor]

theorem afterEvent_of_down (h : spindleDown s.ixm = true) (attached : s.mcp.state ≠ .detached) :
    (afterEvent s).mcp.state = .notReady := by
  have unready := followReady_of_down h attached
  rw [afterEvent_of_no_grant (.inr (.inl (spindleOf_ne_running_of_down h))),
    testHold_eq_self (by rw [unready]; decide)]
  exact unready

/-! ### A quiet drive follows the spindle -/

theorem driveQuiet_iff (s : State) : driveQuiet s = true ↔ s.dsq.state = .offline ∨ s.dsq.state = .idle := by
  simp [driveQuiet]

/-- An OFFLINE or IDLE sequencer is OFFLINE once the spindle has stopped, and nothing else of it changes (R23). -/
theorem followDown_of_quiet (h : s.dsq.state = .offline ∨ s.dsq.state = .idle) : followDown s = setDsqState .offline s := by
  unfold followDown
  rcases h with h | h
  · rw [h]
    show s = { s with dsq := { s.dsq with state := .offline } }
    rw [← h]
  · rw [h]

/-- What following the spindle can do once it has stopped: nothing where it stood so, and the sequencer's part of R23. -/
theorem followSpindle_of_stopped (old : Spindle) (h : spindleOf s.ixm = .stopped) :
    followSpindle old s = if old = .stopped then s else followDown s := by
  by_cases same : old = .stopped
  · simp [followSpindle, h, same]
  · simp [followSpindle, h, same, Ne.symm same]

/-! ### A request that answers -/

theorem answer_within {r : ResultCode} {code : Byte} {p : List Byte} (h : ChangesOnly bs s u) :
    ChangesOnly (.stl :: bs) s (answer r code p u) :=
  (h.mono (List.subset_cons_self _ _)).andThen (answer_changes _ _ _) (by simp)

theorem answer_answers {r : ResultCode} {code : Byte} {p : List Byte} (h : ChangesOnly bs s u) (hb : .stl ∉ bs) :
    Answered r code p s (answer r code p u) := by
  have same : u.stl = s.stl := h.2 .stl hb
  unfold Answered
  rw [← same]
  rfl

/-! ### The rotation settings (R2, R210) -/

theorem byteAt_le (p : List Byte) (i : Nat) : byteAt p i ≤ 255 :=
  Nat.le_of_lt_succ (p.getD i 0).isLt

theorem rotationOf_eq (p : List Byte) : rotationOf p =
    ⟨max 8000 (min 50000 (pairAt p 0)), max 1 (min 100 (byteAt p 2)), min 7 (byteAt p 3), max 1 (min 7 (byteAt p 4)),
      min 6 (byteAt p 5), max 1 (byteAt p 6)⟩ := by
  have width := byteAt_le p 6
  simp only [rotationOf, clampRotation, RotationSettings.mk.injEq]
  simp only [clampNat_eq _ _ _ (show 8000 ≤ 50000 by decide), clampNat_eq _ _ _ (show 1 ≤ 100 by decide),
    clampNat_eq _ _ _ (show 0 ≤ 7 by decide), clampNat_eq _ _ _ (show 1 ≤ 7 by decide),
    clampNat_eq _ _ _ (show 0 ≤ 6 by decide), clampNat_eq _ _ _ (show 1 ≤ 255 by decide), true_and]
  omega

/-- Settings within their ranges stand in the echo as they are. -/
theorem rotationBytes_fields {r : RotationSettings} (h : r.InRange) :
    (rotationBytes r).length = 7 ∧ pairAt (rotationBytes r) 0 = r.pNom ∧ byteAt (rotationBytes r) 2 = r.tol ∧
      byteAt (rotationBytes r) 3 = r.startup ∧ byteAt (rotationBytes r) 4 = r.limit ∧
      byteAt (rotationBytes r) 5 = r.shift ∧ byteAt (rotationBytes r) 6 = r.width := by
  obtain ⟨-, pNom, -, tol, startup, -, limit, shift, -, width⟩ := h
  simp only [rotationBytes, u16, u8, List.cons_append, List.nil_append, pairAt, byteAt, List.getD_cons_zero,
    List.getD_cons_succ, BitVec.toNat_ofNat, List.length_cons, List.length_nil, true_and]
  omega

/-! ### SET_ROTATION -/

/-- With the drive quiet the sequencer follows the stopped spindle alone (R17, R23). -/
theorem storeRotation_changes (r : RotationSettings) (h : s.dsq.state = .offline ∨ s.dsq.state = .idle) :
    ChangesOnly [.ixm, .dsq, .mcp] s (storeRotation r s) := by
  have stopped : spindleOf (s.updIxm (restartMonitor r)).ixm = .stopped := rfl
  have follow : ChangesOnly [.ixm, .dsq, .mcp] s
      (followSpindle (spindleOf s.ixm) (s.updIxm (restartMonitor r))) := by
    have restarted : ChangesOnly [.ixm, .dsq, .mcp] s (s.updIxm (restartMonitor r)) := (updIxm_changes _).mono (by decide)
    rw [followSpindle_of_stopped _ stopped, followDown_of_quiet (s := s.updIxm _) h]
    exact .ite restarted (restarted.andThen (setDsqState_changes _) (by decide))
  refine follow.andThen (afterEvent_changes_port (.inr (.inl ?_))) (by decide)
  rw [followSpindle_ixm, stopped]
  decide

theorem storeRotation_dsq (r : RotationSettings) (h : s.dsq.state = .offline ∨ s.dsq.state = .idle)
    (up : spindleDown s.ixm = false) : (storeRotation r s).dsq = { s.dsq with state := .offline } := by
  have stopped : spindleOf (s.updIxm (restartMonitor r)).ixm = .stopped := rfl
  have turning : spindleOf s.ixm ≠ .stopped := fun k => by simp [spindleDown, k] at up
  have follow : followSpindle (spindleOf s.ixm) (s.updIxm (restartMonitor r)) =
      setDsqState .offline (s.updIxm (restartMonitor r)) := by
    rw [followSpindle_of_stopped _ stopped, if_neg turning, followDown_of_quiet (s := s.updIxm _) h]
  unfold storeRotation
  rw [follow]
  exact (afterEvent_changes_port (.inl (show DsqState.offline ≠ .idle by decide))).2 .dsq (by decide)

/-- Settles O31: the settings are clamped, the monitor restarts, and a quiet drive follows the spindle it stops. -/
theorem setRotationRestartsMonitor : Obligations.SetRotationRestartsMonitor := by
  intro s p taking
  have act : exec .setRotation s = .next (takeSetRotation p s) :=
    congrArg Host.Outcome.next (takeRequest_of_taking takeSetRotation taking)
  refine ⟨fun busy working => ⟨_, act, ?_⟩, fun quiet => ?_⟩
  · have loud : driveQuiet s ≠ true := fun k => (driveQuiet_iff s).mp k |>.elim busy working
    rw [takeSetRotation, if_neg loud]
    exact ⟨refuse_changes _ _, answer_answered _ _ _⟩
  · have stored := storeRotation_changes (rotationOf p) quiet
    obtain ⟨length, fields⟩ := rotationBytes_fields (clampRotation_inRange
      ⟨pairAt p 0, byteAt p 2, byteAt p 3, byteAt p 4, byteAt p 5, byteAt p 6⟩)
    refine ⟨_, rotationBytes (rotationOf p), rotationOf p, act, ?_⟩
    rw [takeSetRotation, if_pos ((driveQuiet_iff s).mpr quiet)]
    refine ⟨(answer_within stored).mono (by decide), answer_answers stored (by decide), rotationOf_eq p,
      storeRotation_ixm _ s, length, ?_⟩
    obtain ⟨pNom, tol, startup, limit, shift, width⟩ := fields
    exact ⟨pNom, tol, startup, limit, shift, width, storeRotation_dsq _ quiet⟩

end Sys2Proof.Machine
end

section
/-! PROOF. What the events of rotation have in common: records that stand, work abandoned, passes counted, and the
sequencer following the spindle (R23, R24, R30 to R33, R195, R197, R201). -/

namespace Sys2Proof.Machine

variable {s t u : State} {bs : List Block} {g : Grant}

/-! ### Events and snapshots under moves (R195, R197, R201) -/

theorem Move.records (h : Move s t) : s.evq.records <+: t.evq.records := by
  cases h with
  | offer k tr n => exact offer_prefix k tr n s
  | latch x =>
    show s.evq.records <+: (latchSnapshot x s.evq).records
    unfold latchSnapshot
    split <;> exact List.prefix_rfl
  | _ => exact List.prefix_rfl

/-- The records held stay at the front of the queue. -/
theorem Moves.records (h : Moves s t) : s.evq.records <+: t.evq.records :=
  h.keeps (P := fun s t => s.evq.records <+: t.evq.records) (fun _ => List.prefix_rfl) fun k m => k.trans m.records

theorem Move.snapshot {x : Snapshot} (h : Move s t) (held : s.evq.snapshot = some x) : t.evq.snapshot = some x := by
  cases h with
  | offer k tr n => exact (offer_cases k tr n s).2.1.trans held
  | latch y =>
    show (latchSnapshot y s.evq).snapshot = some x
    simp [latchSnapshot, held]
  | _ => exact held

/-- A snapshot, once latched, stands. -/
theorem Moves.snapshot {x : Snapshot} (h : Moves s t) (held : s.evq.snapshot = some x) : t.evq.snapshot = some x :=
  h.keeps (P := fun s t => s.evq.snapshot = some x → t.evq.snapshot = some x) (fun _ k => k)
    (fun k m held => m.snapshot (k held)) held

theorem Move.peakViolations (h : Move s t) : t.rct.peakViolations = s.rct.peakViolations := by
  cases h with
  | rct f peak => exact peak
  | _ => rfl

theorem Moves.peakViolations (h : Moves s t) : t.rct.peakViolations = s.rct.peakViolations :=
  h.keeps (P := fun s t => t.rct.peakViolations = s.rct.peakViolations) (fun _ => rfl) fun k m => m.peakViolations.trans k

/-- An event offered to a queue as it stood is the first queued, whatever moves follow. -/
theorem firstQueued_of_offer {k : EventKind} {tr : Option Track} {n : Nat} (same : u.evq = s.evq)
    (moves : Moves (offer k tr n u) t) : FirstQueued k tr n s t := by
  intro room
  have joined : (offer k tr n u).evq.records = s.evq.records ++ [⟨s.evq.counter, k, tr, n⟩] := by
    rcases (offer_cases k tr n u).2.2 with ⟨-, records, -⟩ | ⟨full, -⟩
    · rw [records, same]
    · rw [same] at full; omega
  exact joined ▸ moves.records

/-! ### Work abandoned (R32, R33, R38) -/

theorem endUnpassed_rdc (g : Grant) (s : State) : (endUnpassed g s).rdc = s.rdc :=
  (endUnpassed_changes g).2 .rdc (by decide)

theorem endFetch_dsq (k : GrantKind) (tr : Track) (s : State) : (endFetch k tr s).dsq = s.dsq :=
  (endFetch_changes k tr).2 .dsq (by decide)

theorem endFetch_rdc (k : GrantKind) (tr : Track) (s : State) : (endFetch k tr s).rdc = s.rdc :=
  (endFetch_changes k tr).2 .rdc (by decide)

theorem endFetch_ixm (k : GrantKind) (tr : Track) (s : State) : (endFetch k tr s).ixm = s.ixm :=
  (endFetch_changes k tr).2 .ixm (by decide)

theorem endUnpassed_job (kind : g.kind = .jobPass) : endUnpassed g s = requeueJob g.track (setGrant none s) :=
  if_pos kind

theorem endUnpassed_begun (kind : g.kind ≠ .jobPass) (begun : g.begun = true) :
    endUnpassed g s = endFetch g.kind g.track (setGrant none s) :=
  (if_neg kind).trans (if_pos begun)

theorem endUnpassed_fetch (kind : g.kind ≠ .jobPass) (begun : g.begun = false) :
    endUnpassed g s = dropFetchTallies (releaseFrame g.track (setGrant none s)) :=
  (if_neg kind).trans (if_neg (by simp [begun]))

theorem abortPass_job (kind : g.kind = .jobPass) :
    abortPass g s = requeueJob g.track (setGrant none (endPassContext s)) :=
  if_pos kind

theorem abortPass_fetch (kind : g.kind ≠ .jobPass) :
    abortPass g s = endFetch g.kind g.track (setGrant none (endPassContext s)) :=
  if_neg kind

theorem endUnpassed_dsq (g : Grant) (s : State) : (endUnpassed g s).dsq = { s.dsq with grant := none } := by
  unfold endUnpassed
  split
  · rfl
  · split
    · exact endFetch_dsq _ _ _
    · rfl

theorem abortPass_dsq (g : Grant) (s : State) : (abortPass g s).dsq = { s.dsq with grant := none } := by
  unfold abortPass
  split
  · rfl
  · exact endFetch_dsq _ _ _

theorem abortPass_rdc (g : Grant) (s : State) : (abortPass g s).rdc = { s.rdc with pass := none, assembly := none } := by
  unfold abortPass
  split
  · rfl
  · exact endFetch_rdc _ _ _

theorem abandonWork_of_approach (grant : s.dsq.grant = some g) (phase : g.phase = .approach) :
    abandonWork s = clearOperation (endUnpassed g s) := by
  simp [abandonWork, grant, phase]

theorem abandonWork_of_inPass (grant : s.dsq.grant = some g) (phase : g.phase = .inPass) :
    abandonWork s = clearOperation (abortPass g s) := by
  simp [abandonWork, grant, phase]

theorem abandonWork_of_voting (grant : s.dsq.grant = some g) (phase : g.phase = .voting) :
    abandonWork s = clearOperation s := by
  simp [abandonWork, grant, phase]

/-- Of the sequencer, the grant and the operation in flight alone are abandoned. -/
theorem abandonWork_dsq (s : State) :
    (abandonWork s).dsq = { s.dsq with grant := (abandonWork s).dsq.grant, seekTarget := none, expiry := none } := by
  cases grant : s.dsq.grant with
  | none => rw [abandonWork_of_no_grant grant]; rfl
  | some g =>
    cases phase : g.phase with
    | approach =>
      rw [abandonWork_of_approach grant phase]
      show { (endUnpassed g s).dsq with expiry := none, seekTarget := none } =
        { s.dsq with grant := (endUnpassed g s).dsq.grant, seekTarget := none, expiry := none }
      rw [endUnpassed_dsq]
    | inPass =>
      rw [abandonWork_of_inPass grant phase]
      show { (abortPass g s).dsq with expiry := none, seekTarget := none } =
        { s.dsq with grant := (abortPass g s).dsq.grant, seekTarget := none, expiry := none }
      rw [abortPass_dsq]
    | voting => rw [abandonWork_of_voting grant phase]; rfl

/-- GrantAbandoned reads before the event what the monitor and the table do not hold, ... -/
theorem GrantAbandoned.before (pre : ChangesOnly [.ixm, .rct, .evq] s u) (h : GrantAbandoned g u t) :
    GrantAbandoned g s t := by
  have rdc : u.rdc = s.rdc := pre.2 .rdc (by decide)
  have tks : u.tks = s.tks := pre.2 .tks (by decide)
  have jbq : u.jbq = s.jbq := pre.2 .jbq (by decide)
  unfold GrantAbandoned at h
  rw [rdc, tks, jbq] at h
  obtain ⟨ended, pass, wait, job, release, cut⟩ := h
  refine ⟨ended, pass, wait, job, release, fun kind phase => ?_⟩
  obtain ⟨x, changes, rest⟩ := cut kind phase
  exact ⟨x, (pre.mono (by decide)).trans changes, rest⟩

/-- ... and after it the grant, the pass, the frames, the jobs and the copies. -/
theorem GrantAbandoned.after (h : GrantAbandoned g s u) (post : ChangesOnly [.dsq, .mcp] u t)
    (grant : t.dsq.grant = u.dsq.grant) : GrantAbandoned g s t := by
  have rdc : t.rdc = u.rdc := post.2 .rdc (by decide)
  have tks : t.tks = u.tks := post.2 .tks (by decide)
  have jbq : t.jbq = u.jbq := post.2 .jbq (by decide)
  have cps : t.cps = u.cps := post.2 .cps (by decide)
  unfold GrantAbandoned at h ⊢
  rwa [grant, rdc, tks, jbq, cps]

/-- A grant whose pass has not begun: the job waits again, the fetch is released, or cut short where an earlier attempt had
begun (R33; log entry 12). -/
theorem endUnpassed_abandons (phase : g.phase = .approach) : GrantAbandoned g s (endUnpassed g s) := by
  refine ⟨by rw [endUnpassed_dsq], by simp [phase], fun _ => endUnpassed_rdc g s, fun kind => ?_, fun kind _ begun => ?_,
    fun kind passed => ?_⟩
  · rw [endUnpassed_job kind]
    exact ⟨rfl, rfl⟩
  · rw [endUnpassed_fetch kind begun]
    exact ⟨rfl, rfl⟩
  · have begun : g.begun = true := by simpa [phase] using passed
    refine ⟨setGrant none s, (setGrant_changes none).mono (by decide), rfl, ?_⟩
    rw [endUnpassed_begun kind begun]
    exact ⟨rfl, rfl, rfl⟩

/-- A pass in flight: the job waits again, the fetch is cut short (R32). -/
theorem abortPass_abandons (phase : g.phase = .inPass) : GrantAbandoned g s (abortPass g s) := by
  refine ⟨by rw [abortPass_dsq], fun _ => abortPass_rdc g s, by simp [phase], fun kind => ?_, by simp [phase],
    fun kind _ => ?_⟩
  · rw [abortPass_job kind]
    exact ⟨rfl, rfl⟩
  · refine ⟨setGrant none (endPassContext s), ?_, rfl, ?_⟩
    · exact .andThen ((updRdc_changes _).mono (by decide)) (setGrant_changes none) (by decide)
    · rw [abortPass_fetch kind]
      exact ⟨rfl, rfl, rfl⟩

theorem abandonWork_abandons (grant : s.dsq.grant = some g) (phase : g.phase ≠ .voting) :
    GrantAbandoned g s (abandonWork s) := by
  have ended (v : State) : ChangesOnly [.dsq, .mcp] v (clearOperation v) := (updDsq_changes _).mono (by decide)
  cases p : g.phase with
  | approach =>
    rw [abandonWork_of_approach grant p]
    exact (endUnpassed_abandons p).after (ended _) rfl
  | inPass =>
    rw [abandonWork_of_inPass grant p]
    exact (abortPass_abandons p).after (ended _) rfl
  | voting => exact absurd p phase

/-! ### The sequencer follows a spindle that has stopped (R23) -/

theorem followDown_of_moving
    (h : s.dsq.state = .seeking ∨ s.dsq.state = .settling ∨ s.dsq.state = .recalibrating) :
    followDown s = setDsqState .offline (losePosition (abandonWork s)) := by
  unfold followDown
  rcases h with h | h | h <;> rw [h]

theorem followDown_of_reading (h : s.dsq.state = .reading) : followDown s = setDsqState .offline (abandonWork s) := by
  unfold followDown
  rw [h]

theorem followDown_of_standing (h : s.dsq.state = .voting ∨ s.dsq.state = .resting ∨ s.dsq.state = .offline ∨
    s.dsq.state = .fenced ∨ s.dsq.state = .detached) : followDown s = s := by
  unfold followDown
  rcases h with h | h | h | h | h <;> rw [h]

/-- In the states at work, following down changes what abandoning the work does, and of the sequencer no more of the
grant. -/
theorem followDown_of_working (h : s.dsq.state = .seeking ∨ s.dsq.state = .settling ∨ s.dsq.state = .recalibrating ∨
    s.dsq.state = .reading) : ChangesOnly [.dsq, .mcp] (abandonWork s) (followDown s) ∧
      (followDown s).dsq.grant = (abandonWork s).dsq.grant := by
  have moved : ChangesOnly [.dsq, .mcp] (abandonWork s) (setDsqState .offline (losePosition (abandonWork s))) :=
    ((updDsq_changes _).trans (updDsq_changes _)).mono (by decide)
  rcases h with h | h | h | h
  · rw [followDown_of_moving (.inl h)]; exact ⟨moved, rfl⟩
  · rw [followDown_of_moving (.inr (.inl h))]; exact ⟨moved, rfl⟩
  · rw [followDown_of_moving (.inr (.inr h))]; exact ⟨moved, rfl⟩
  · rw [followDown_of_reading h]; exact ⟨(updDsq_changes _).mono (by decide), rfl⟩

theorem followSpindle_of_down {old : Spindle} (changed : spindleOf s.ixm ≠ old) (down : spindleDown s.ixm = true) :
    followSpindle old s = followDown s := by
  unfold followSpindle
  rw [if_neg changed]
  rcases (spindleDown_iff s.ixm).mp down with h | h <;> simp [spindleOf, h]

theorem followDown_ixm (down : spindleDown s.ixm = true) : (followDown s).ixm = s.ixm := by
  rw [← followSpindle_of_down (spindleOf_ne_running_of_down down) down, followSpindle_ixm]

theorem followDown_mcp (down : spindleDown s.ixm = true) : (followDown s).mcp = s.mcp := by
  rw [← followSpindle_of_down (spindleOf_ne_running_of_down down) down]
  exact (followSpindle_changes _).2 .mcp (by decide)

/-- After an event that has stopped the spindle the sequencer and the port have followed (R23, R146). -/
theorem followDown_followsStopped (pre : ChangesOnly [.ixm, .rct, .evq] s u) (down : spindleDown u.ixm = true) :
    FollowsStopped s (afterEvent (followDown u)) := by
  have dsq : u.dsq = s.dsq := pre.2 .dsq (by decide)
  have stopped : spindleDown (followDown u).ixm = true := by rwa [followDown_ixm down]
  have port := afterEvent_changes_port (.inr (.inl (spindleOf_ne_running_of_down stopped)))
  have left : (afterEvent (followDown u)).dsq = (followDown u).dsq := port.2 .dsq (by decide)
  refine ⟨fun h => ?_, fun h => ?_, fun h => ?_, fun h => ⟨fun free => ?_, fun g grant phase => ?_⟩, fun h => ?_,
    fun attached => afterEvent_of_down stopped ?_⟩
  · rw [left, followDown_of_quiet (.inr (dsq ▸ h)), ← dsq]; rfl
  · rw [left, followDown_of_moving (dsq ▸ h), ← dsq]
    show { (abandonWork u).dsq with state := .offline, position := none } = _
    rw [abandonWork_dsq]
    rfl
  · rw [left, followDown_of_reading (dsq ▸ h), ← dsq]
    show { (abandonWork u).dsq with state := .offline } = _
    rw [abandonWork_dsq]
    rfl
  · rw [left, (followDown_of_working (dsq ▸ h)).2, abandonWork_of_no_grant (dsq ▸ free)]
    exact (congrArg Dsq.grant dsq).trans free
  · obtain ⟨changes, same⟩ := followDown_of_working (s := u) (dsq ▸ h)
    have abandoned : GrantAbandoned g u (abandonWork u) := abandonWork_abandons (dsq ▸ grant) phase
    exact ((abandoned.before pre).after changes same).after (port.mono (by decide)) (by rw [left])
  · rw [left, followDown_of_standing (dsq ▸ h), dsq]
  · rw [followDown_mcp down, show u.mcp = s.mcp from pre.2 .mcp (by decide)]
    exact attached

end Sys2Proof.Machine
end

section
/-! PROOF. What the monitor's bad and good events do to the table and the queue, and what the sequencer makes of a mark, a
late expiry, and a spindle that has become UNSTABLE (R10, R11, R24, R29, R30, R202). -/

namespace Sys2Proof.Machine

variable {s t u : State} {g : Grant}

/-! ### Commands that complete -/

theorem CompletesWithin.changes {bs : List Block} {c : Instr} (h : CompletesWithin bs c s) (e : exec c s = .next t) :
    ChangesOnly bs s t := by
  obtain ⟨v, hv, changes⟩ := h
  cases e.symm.trans hv
  exact changes

/-! ### Bad and good events (R10, R11) -/

/-- A bad event that leaves CLOSED or RESYNC latches from the limit on (R10). -/
theorem afterBad_of_turning {x : Ixm} (h : x.window = .closed ∨ x.window = .resync) :
    afterBad x = { x with latched := x.latched || decide (x.rot.limit ≤ x.violations) } := by
  unfold afterBad latches
  rcases h with h | h <;> cases x.latched <;> simp [h]

/-- The startup window's bad event, which leaves IDLE, does not latch (R6, R10). -/
theorem latches_of_idle {x : Ixm} (h : x.window = .idle) : latches x = false := by
  simp [latches, h]

theorem latches_of_limit {x : Ixm} (h : x.window = .closed ∨ x.window = .resync) (unlatched : x.latched = false)
    (limit : x.rot.limit ≤ x.violations) : latches x = true := by
  rcases h with h | h <;> simp [latches, h, unlatched, limit]

/-- The monitor and the peak after a bad event, before it is known whether it latches (R10). -/
def badMoved (x : Ixm) (s : State) : State :=
  reportViolations x.violations (s.updIxm fun _ => afterBad x)

theorem badEvent_of_latches {x : Ixm} (h : latches x = true) : badEvent x s =
    offerLatching .spindleUnstable x.violations (snapshotOf .unstable s.dsq.position (badMoved x s)) (badMoved x s) :=
  if_pos h

theorem badEvent_of_unlatched {x : Ixm} (h : latches x = false) : badEvent x s = badMoved x s :=
  if_neg (by simp [h])

/-- A bad event reaches the peak, and the table in nothing else (R10). -/
theorem badEvent_rct (x : Ixm) (s : State) :
    (badEvent x s).rct = { s.rct with peakViolations := max s.rct.peakViolations x.violations } := by
  cases h : latches x
  · rw [badEvent_of_unlatched h]; rfl
  · rw [badEvent_of_latches h]; rfl

theorem goodEvent_rct (now : Timer) (s : State) : (goodEvent now s).rct = s.rct := by
  unfold goodEvent
  dsimp only
  split <;> rfl

theorem monitorIndex_startup (now : Timer) (h : s.ixm.window = .startup) :
    monitorIndex now s = offer .spindleRunning none s.ixm.violations (s.updIxm (enterClosed now)) := by
  simp [monitorIndex, h]

theorem monitorIndex_closed (now : Timer) (h : s.ixm.window = .closed) :
    monitorIndex now s = badEvent (enterClosed now (countBad s.ixm)) s := by
  simp [monitorIndex, h]

theorem monitorIndex_opened (now : Timer) (h : s.ixm.window = .opened) : monitorIndex now s = goodEvent now s := by
  simp [monitorIndex, h]

theorem monitorIndex_entries (now : Timer) (s : State) : (monitorIndex now s).rct.entries = s.rct.entries := by
  unfold monitorIndex
  split
  · rfl
  · rfl
  · rw [badEvent_rct]
  · rw [goodEvent_rct]
  · rfl

/-! ### Marks and late expiries (R29, R30) -/

theorem takeMark_of_not_reading (r : Timer) (h : s.dsq.state ≠ .reading) : takeMark r s = s := by
  unfold takeMark
  split
  · exact absurd ‹_› h
  · rfl

theorem takeLateExpiry_of_not_reading (h : s.dsq.state ≠ .reading) : takeLateExpiry s = s := by
  unfold takeLateExpiry
  split
  · exact absurd ‹_› h
  · rfl

theorem takeMark_approach_running (r : Timer) (reading : s.dsq.state = .reading) (grant : s.dsq.grant = some g)
    (phase : g.phase = .approach) (running : spindleOf s.ixm = .running) : takeMark r s = beginPass g r s := by
  simp [takeMark, reading, grant, phase, running]

theorem takeMark_approach_waits (r : Timer) (reading : s.dsq.state = .reading) (grant : s.dsq.grant = some g)
    (phase : g.phase = .approach) (down : spindleOf s.ixm ≠ .running) : takeMark r s = s := by
  simp [takeMark, reading, grant, phase, down]

theorem takeMark_inPass (r : Timer) (reading : s.dsq.state = .reading) (grant : s.dsq.grant = some g)
    (phase : g.phase = .inPass) : takeMark r s = countPass g s := by
  simp [takeMark, reading, grant, phase]

theorem takeLateExpiry_approach (reading : s.dsq.state = .reading) (grant : s.dsq.grant = some g)
    (phase : g.phase = .approach) : takeLateExpiry s = s := by
  simp [takeLateExpiry, reading, grant, phase]

theorem takeLateExpiry_inPass (reading : s.dsq.state = .reading) (grant : s.dsq.grant = some g)
    (phase : g.phase = .inPass) : takeLateExpiry s = countPass g s := by
  simp [takeLateExpiry, reading, grant, phase]

/-! ### A pass counted (R30, R31, R71, R95, R137) -/

/-- The pass stands in the job's counter and in its OPEN entry (R95, R137). -/
def passTallied (g : Grant) (s : State) : State :=
  updEntry g.track Entry.countPass (updJob g.track (fun j => { j with counter := bump 65535 j.counter }) s)

/-- A job's pass as it ends: it is tallied, and the batch is formed and runs in VOTING (R31, R71). -/
def jobPassEnded (g : Grant) (s : State) : State :=
  (setDsqState .voting (setGrant (some { g with phase := .voting }) (passTallied g s))).updVte fun v =>
    { v with batch := some (formBatch g (passTallied g s)) }

theorem jobOf_passTallied {j : Job} (job : jobOf g.track s = some j) :
    jobOf g.track (passTallied g s) = some { j with counter := min 65535 (j.counter + 1) } := by
  have counted := jobOf_updJob (s := s) g.track (fun j => { j with counter := bump 65535 j.counter }) fun _ => rfl
  rw [job] at counted
  exact counted

theorem entryOf_passTallied {e : Entry} (entry : entryOf g.track s = some e) (opened : e.state = .opened) :
    entryOf g.track (passTallied g s) = some { e with passes := min 65535 (e.passes + 1) } := by
  have counted := entryOf_updEntry (s := updJob g.track (fun j => { j with counter := bump 65535 j.counter }) s) g.track
    Entry.countPass fun e => by unfold Entry.countPass; split <;> rfl
  rw [show entryOf g.track (updJob _ _ s) = some e from entry] at counted
  refine counted.trans ?_
  simp only [Option.map_some, Entry.countPass, opened, if_true]
  rfl

theorem jobPassEnded_changes (g : Grant) (s : State) : ChangesOnly [.dsq, .vte, .jbq, .rct] s (jobPassEnded g s) := by
  have tallied : ChangesOnly [.dsq, .vte, .jbq, .rct] s (passTallied g s) :=
    .andThen ((updJob_changes _ _).mono (by decide)) (updEntry_changes _ _) (by decide)
  exact ((tallied.andThen (setGrant_changes _) (by decide)).andThen (setDsqState_changes _) (by decide)).andThen
    (updVte_changes _) (by decide)

theorem countPass_fetch (kind : g.kind ≠ .jobPass) :
    countPass g s = enterIdle (endFetch g.kind g.track (setGrant none (endPassContext s))) :=
  if_neg kind

/-- The batch of a pass is the one R71 gives: the job's counter plays no part in it. -/
theorem formBatch_passTallied {j : Job} (job : jobOf g.track s = some j) :
    formBatch g (passTallied g s) = formedBatch g j s := by
  unfold formBatch formedBatch batchMembers
  rw [jobOf_passTallied job]
  rfl

theorem exec_batchCompletion {b : Batch} (h : s.vte.batch = some b) :
    exec .batchCompletion s = .next (afterEvent (completeBatch b s)) := by
  simp [exec, execBatchCompletion, h]

/-- A job's pass ends with its batch running, which completes at once without members (R31, R71). -/
theorem countPass_job (kind : g.kind = .jobPass) {j : Job} (job : jobOf g.track s = some j) :
    Host.Outcome.next (afterEvent (countPass g s)) =
      if (formedBatch g j s).members = [] then exec .batchCompletion (jobPassEnded g (endPassContext s))
      else .next (afterEvent (jobPassEnded g (endPassContext s))) := by
  have formed : formedBatch g j (endPassContext s) = formedBatch g j s := rfl
  have batch : (jobPassEnded g (endPassContext s)).vte.batch = some (formedBatch g j s) := by
    rw [← formed, ← formBatch_passTallied (s := endPassContext s) job]
    rfl
  have counted : countPass g s = if (formedBatch g j s).members.isEmpty
      then completeBatch (formedBatch g j s) (jobPassEnded g (endPassContext s))
      else jobPassEnded g (endPassContext s) := by
    rw [← formed, ← formBatch_passTallied (s := endPassContext s) job]
    exact if_pos kind
  rw [counted, exec_batchCompletion batch]
  by_cases none : (formedBatch g j s).members = []
  · simp [none]
  · simp [none]

/-- A pass in flight is counted where the spindle has not stopped (R30). -/
theorem countPass_counted (pre : ChangesOnly [.ixm, .rct, .evq] s u) (entries : u.rct.entries = s.rct.entries)
    (up : spindleDown u.ixm = false) :
    ∃ w, w.ixm = u.ixm ∧ PassCounted (.next (afterEvent (countPass g u))) g s w := by
  have rdc : u.rdc = s.rdc := pre.2 .rdc (by decide)
  have dsq : u.dsq = s.dsq := pre.2 .dsq (by decide)
  have vte : u.vte = s.vte := pre.2 .vte (by decide)
  have jbq : u.jbq = s.jbq := pre.2 .jbq (by decide)
  have cps : u.cps = s.cps := pre.2 .cps (by decide)
  have ended : ChangesOnly [.ixm, .dsq, .rdc, .rct, .evq] s (endPassContext u) :=
    (pre.mono (by decide)).andThen (updRdc_changes _) (by decide)
  by_cases kind : g.kind = .jobPass
  · refine ⟨jobPassEnded g (endPassContext u), rfl, ?_, fun fetch => absurd kind fetch, fun j _ job => ?_⟩
    · rw [← rdc]; rfl
    have job' : jobOf g.track u = some j := (jobOf_congr _ (congrArg Jbq.jobs jbq)).trans job
    have formed : formedBatch g j u = formedBatch g j s := by simp only [formedBatch, vte, cps]
    refine ⟨(ended.mono (by decide)).andThen (jobPassEnded_changes _ _) (by decide), ?_, ?_, jobOf_passTallied job',
      fun e entry opened => ?_, ?_⟩
    · rw [← dsq]; rfl
    · rw [← vte, ← formed, ← formBatch_passTallied job']; rfl
    · exact entryOf_passTallied (s := endPassContext u) ((entryOf_congr _ entries).trans entry) opened
    · rw [← formed]; exact countPass_job kind job'
  · refine ⟨setGrant none (endPassContext u), rfl, ?_, fun _ => ⟨?_, ?_, ?_⟩, fun _ job => absurd job kind⟩
    · rw [← rdc]; rfl
    · exact ended.andThen (setGrant_changes none) (by decide)
    · rw [← dsq]; rfl
    · have turning : spindleDown (endFetch g.kind g.track (setGrant none (endPassContext u))).ixm = false := by
        rw [endFetch_ixm]; exact up
      rw [countPass_fetch kind, enterIdle, turning]
      rfl

/-! ### A spindle that has become UNSTABLE (R24) -/

theorem followUnstable_of_reading (h : s.dsq.state = .reading) : followUnstable s = setDsqState .idle (abandonWork s) := by
  unfold followUnstable
  rw [h]

theorem followUnstable_of_not_reading (h : s.dsq.state ≠ .reading) : followUnstable s = s := by
  unfold followUnstable
  split
  · exact absurd ‹_› h
  · rfl

theorem followUnstable_not_reading (s : State) : (followUnstable s).dsq.state ≠ .reading := by
  by_cases h : s.dsq.state = .reading
  · rw [followUnstable_of_reading h]
    show DsqState.idle ≠ .reading
    decide
  · rwa [followUnstable_of_not_reading h]

theorem followSpindle_unstable {old : Spindle} (changed : spindleOf s.ixm ≠ old) (h : spindleOf s.ixm = .unstable) :
    followSpindle old s = followUnstable s := by
  unfold followSpindle
  rw [if_neg changed, h]

theorem followUnstable_moves : Moves s (followUnstable s) := by
  by_cases h : s.dsq.state = .reading
  · rw [followUnstable_of_reading h]; exact abandonWork_moves.trans (setDsqState_moves _)
  · rw [followUnstable_of_not_reading h]; exact .refl s

/-- A spindle that turns leaves READING with its work where it has not become UNSTABLE (R23, R24). -/
theorem followSpindle_of_reading {old : Spindle} (reading : s.dsq.state = .reading)
    (h : spindleOf s.ixm = old ∨ spindleOf s.ixm = .running) : followSpindle old s = s := by
  unfold followSpindle
  by_cases same : spindleOf s.ixm = old
  · rw [if_pos same]
  · rw [if_neg same, h.resolve_left same]
    simp [followRunning, reading]

theorem spindleOf_turning {x : Ixm} (h : x.window = .closed ∨ x.window = .opened ∨ x.window = .resync) :
    spindleOf x = if x.latched then .unstable else .running := by
  rcases h with h | h | h <;> simp [spindleOf, h]

theorem spindleDown_of_turning {x : Ixm} (h : x.window = .closed ∨ x.window = .opened ∨ x.window = .resync) :
    spindleDown x = false := by
  rw [spindleDown, spindleOf_turning h]
  cases x.latched <;> rfl

end Sys2Proof.Machine
end

section
/-! PROOF. The window expiries (R6 to R12, R23, R29, R30). -/

namespace Sys2Proof.Machine

variable {s t : State}

/-! ### The four expiries, fallen and not -/

theorem exec_startupWindowExpiry_fallen (h : Fallen .startupWindowExpiry s) : exec .startupWindowExpiry s =
    .next (afterEvent (followSpindle (spindleOf s.ixm) (badEvent (enterIdleWindow (countBad s.ixm)) s))) :=
  congrArg Host.Outcome.next (if_pos ((windowDue_iff .startup s).mpr h))

theorem exec_closedWindowExpiry_fallen (h : Fallen .closedWindowExpiry s) :
    exec .closedWindowExpiry s = .next (s.updIxm enterOpen) :=
  congrArg Host.Outcome.next (if_pos ((windowDue_iff .closed s).mpr h))

theorem exec_openWindowExpiry_fallen (h : Fallen .openWindowExpiry s) : exec .openWindowExpiry s =
    .next (afterEvent (takeLateExpiry (followSpindle (spindleOf s.ixm)
      (badEvent (enterResync s.clock.rotationTimer (countBad s.ixm)) s)))) :=
  congrArg Host.Outcome.next (if_pos ((windowDue_iff .opened s).mpr h))

theorem exec_resyncLimitExpiry_fallen (h : Fallen .resyncLimitExpiry s) : exec .resyncLimitExpiry s =
    .next (afterEvent (followSpindle (spindleOf s.ixm)
      (offer .spindleStopped none s.ixm.violations (s.updIxm enterIdleWindow)))) :=
  congrArg Host.Outcome.next (if_pos ((windowDue_iff .resync s).mpr h))

/-- An expiry that is not pending, not fallen, or of another window, has no effect (log entry 2). -/
theorem exec_windowExpiry_not_fallen (s : State) :
    (¬ Fallen .startupWindowExpiry s → exec .startupWindowExpiry s = .next s) ∧
      (¬ Fallen .closedWindowExpiry s → exec .closedWindowExpiry s = .next s) ∧
      (¬ Fallen .openWindowExpiry s → exec .openWindowExpiry s = .next s) ∧
      (¬ Fallen .resyncLimitExpiry s → exec .resyncLimitExpiry s = .next s) :=
  ⟨fun h => congrArg Host.Outcome.next (if_neg fun due => h ((windowDue_iff .startup s).mp due)),
    fun h => congrArg Host.Outcome.next (if_neg fun due => h ((windowDue_iff .closed s).mp due)),
    fun h => congrArg Host.Outcome.next (if_neg fun due => h ((windowDue_iff .opened s).mp due)),
    fun h => congrArg Host.Outcome.next (if_neg fun due => h ((windowDue_iff .resync s).mp due))⟩

/-! ### What they leave in the monitor -/

/-- The startup window's bad event does not latch (R6). -/
theorem startupWindowExpiry_ixm (s : State) : (badEvent (enterIdleWindow (countBad s.ixm)) s).ixm =
    { s.ixm with window := .idle, reference := none, expiry := none, latched := false
                 violations := min 7 (s.ixm.violations + 1) } := by
  have unlatched : latches (enterIdleWindow (countBad s.ixm)) = false := latches_of_idle rfl
  rw [badEvent_ixm, afterBad, unlatched]
  rfl

/-- The open window's bad event latches from the limit on (R8, R10). -/
theorem openWindowExpiry_ixm (s : State) :
    (badEvent (enterResync s.clock.rotationTimer (countBad s.ixm)) s).ixm =
      { s.ixm with
        window := .resync
        expiry := some ⟨s.clock.rotationTimer, (s.ixm.rot.startup + 1) * s.ixm.rot.pNom⟩
        violations := min 7 (s.ixm.violations + 1)
        latched := s.ixm.latched || decide (s.ixm.rot.limit ≤ min 7 (s.ixm.violations + 1)) } := by
  rw [badEvent_ixm, afterBad_of_turning (.inr rfl)]
  rfl

/-- The monitor enters IDLE at the end of STARTUP, and the rest follows the stopped spindle. -/
theorem startupWindowExpiry_stops (h : Fallen .startupWindowExpiry s) :
    ∃ t, exec .startupWindowExpiry s = .next t ∧ ChangesOnly (.ixm :: driveBlocks) s t ∧ FollowsStopped s t ∧
      t.ixm = { s.ixm with window := .idle, reference := none, expiry := none, latched := false
                           violations := min 7 (s.ixm.violations + 1) } := by
  have act := exec_startupWindowExpiry_fallen h
  have left := startupWindowExpiry_ixm s
  have down : spindleDown (badEvent (enterIdleWindow (countBad s.ixm)) s).ixm = true := by rw [left]; rfl
  have changed : spindleOf (badEvent (enterIdleWindow (countBad s.ixm)) s).ixm ≠ spindleOf s.ixm := by
    rw [left, show spindleOf s.ixm = .starting by simp [spindleOf, h.1]]
    show Spindle.stopped ≠ .starting
    decide
  refine ⟨_, act, startupWindowExpiry_within.changes act, ?_, ?_⟩
  · rw [followSpindle_of_down changed down]
    exact followDown_followsStopped (badEvent_changes _) down
  · rw [afterEvent_ixm, followSpindle_ixm, left]

theorem closedWindowExpiry_opens (h : Fallen .closedWindowExpiry s) :
    ∃ t, exec .closedWindowExpiry s = .next t ∧ ChangesOnly [.ixm] s t ∧
      ∀ r, s.ixm.reference = some r → t.ixm = { s.ixm with
        window := .opened, expiry := some ⟨r, s.ixm.rot.pNom + s.ixm.rot.pNom * s.ixm.rot.tol / 1000⟩ } := by
  refine ⟨_, exec_closedWindowExpiry_fallen h, updIxm_changes _, fun r reference => ?_⟩
  simp [enterOpen, reference, RotationSettings.slack]

/-- OPEN runs out into RESYNC; a drive that reads has its pass counted, or waits on, where the expiry has not latched
(R8, R29, R30). -/
theorem openWindowExpiry_resyncs (h : Fallen .openWindowExpiry s) :
    ∃ t, exec .openWindowExpiry s = .next t ∧ ChangesOnly (.ixm :: driveBlocks) s t ∧
      t.ixm = { s.ixm with
        window := .resync
        expiry := some ⟨s.clock.rotationTimer, (s.ixm.rot.startup + 1) * s.ixm.rot.pNom⟩
        violations := min 7 (s.ixm.violations + 1)
        latched := s.ixm.latched || decide (s.ixm.rot.limit ≤ min 7 (s.ixm.violations + 1)) } ∧
      ∀ g, s.dsq.state = .reading → s.dsq.grant = some g → s.ixm.latched = true ∨ t.ixm.latched = false →
        (g.phase = .approach → t.dsq = s.dsq ∧ t.rdc = s.rdc) ∧
        (g.phase = .inPass → ∃ w, w.ixm = t.ixm ∧ PassCounted (exec .openWindowExpiry s) g s w) := by
  have act := exec_openWindowExpiry_fallen h
  have left := openWindowExpiry_ixm s
  have pre := badEvent_changes (s := s) (enterResync s.clock.rotationTimer (countBad s.ixm))
  have entries : (badEvent (enterResync s.clock.rotationTimer (countBad s.ixm)) s).rct.entries = s.rct.entries := by
    rw [badEvent_rct]
  rw [act]
  generalize badEvent (enterResync s.clock.rotationTimer (countBad s.ixm)) s = u at *
  have ixm : (afterEvent (takeLateExpiry (followSpindle (spindleOf s.ixm) u))).ixm = u.ixm := by
    rw [afterEvent_ixm, takeLateExpiry_ixm, followSpindle_ixm]
  have dsq : u.dsq = s.dsq := pre.2 .dsq (by decide)
  have window : u.ixm.window = .resync := by rw [left]
  refine ⟨_, rfl, openWindowExpiry_within.changes act, ixm.trans left, fun g reading grant steady => ?_⟩
  rw [ixm] at steady
  have spindle : spindleOf u.ixm = spindleOf s.ixm ∨ spindleOf u.ixm = .running := by
    rw [spindleOf_turning (.inr (.inr window)), spindleOf_turning (.inr (.inl h.1))]
    rcases steady with latched | unlatched
    · left; rw [left]; simp [latched]
    · right; simp [unlatched]
  rw [followSpindle_of_reading (dsq ▸ reading) spindle] at ixm ⊢
  refine ⟨fun phase => ?_, fun phase => ?_⟩
  · rw [takeLateExpiry_approach (dsq ▸ reading) (dsq ▸ grant) phase]
    have port := afterEvent_changes_port (s := u) (.inl (by rw [dsq, reading]; decide))
    exact ⟨Eq.trans (port.2 .dsq (by decide)) dsq, Eq.trans (port.2 .rdc (by decide)) (pre.2 .rdc (by decide))⟩
  · rw [takeLateExpiry_inPass (dsq ▸ reading) (dsq ▸ grant) phase] at ixm ⊢
    obtain ⟨w, same, counted⟩ := countPass_counted pre entries (spindleDown_of_turning (.inr (.inr window))) (g := g)
    exact ⟨w, same.trans ixm.symm, counted⟩

/-- RESYNC runs out into IDLE: SPINDLE_STOPPED is queued, and the rest follows (R9, R11, R23). -/
theorem resyncLimitExpiry_stops (h : Fallen .resyncLimitExpiry s) :
    ∃ t, exec .resyncLimitExpiry s = .next t ∧ ChangesOnly (.ixm :: driveBlocks) s t ∧ FollowsStopped s t ∧
      FirstQueued .spindleStopped none s.ixm.violations s t ∧
      t.ixm = { s.ixm with window := .idle, reference := none, expiry := none, latched := false } := by
  have act := exec_resyncLimitExpiry_fallen h
  have pre : ChangesOnly [.ixm, .rct, .evq] s (offer .spindleStopped none s.ixm.violations (s.updIxm enterIdleWindow)) :=
    .andThen ((updIxm_changes _).mono (by decide)) (offer_changes _ _ _) (by decide)
  have queued : FirstQueued .spindleStopped none s.ixm.violations s (afterEvent (followSpindle (spindleOf s.ixm)
      (offer .spindleStopped none s.ixm.violations (s.updIxm enterIdleWindow)))) :=
    firstQueued_of_offer (u := s.updIxm enterIdleWindow) rfl ((followSpindle_moves _).trans afterEvent_moves)
  have left : (offer .spindleStopped none s.ixm.violations (s.updIxm enterIdleWindow)).ixm = enterIdleWindow s.ixm := rfl
  generalize offer .spindleStopped none s.ixm.violations (s.updIxm enterIdleWindow) = u at *
  have down : spindleDown u.ixm = true := by rw [left]; rfl
  have changed : spindleOf u.ixm ≠ spindleOf s.ixm := by
    rw [left, spindleOf_turning (.inr (.inr h.1)), show spindleOf (enterIdleWindow s.ixm) = .stopped from rfl]
    cases s.ixm.latched <;> decide
  refine ⟨_, act, resyncLimitExpiry_within.changes act, ?_, queued, ?_⟩
  · rw [followSpindle_of_down changed down]
    exact followDown_followsStopped pre down
  · rw [afterEvent_ixm, followSpindle_ixm, left]
    rfl

/-- Settles O41: each expiry, fallen, moves its window and what follows it, and not fallen does nothing. -/
theorem windowExpiriesMoveWindow : Obligations.WindowExpiriesMoveWindow := by
  refine ⟨fun s e expiry fallen => ⟨fun window => ?_, fun window => ?_, fun window => ?_, fun window => ?_⟩,
    exec_windowExpiry_not_fallen⟩
  · exact startupWindowExpiry_stops ⟨window, e, expiry, fallen⟩
  · exact closedWindowExpiry_opens ⟨window, e, expiry, fallen⟩
  · exact openWindowExpiry_resyncs ⟨window, e, expiry, fallen⟩
  · exact resyncLimitExpiry_stops ⟨window, e, expiry, fallen⟩

end Sys2Proof.Machine
end

section
/-! PROOF. INDEX_QUALIFIED (R3, R5 to R11, R13, R15, R23, R29, R30, R50, R55, R71, R95). -/

namespace Sys2Proof.Machine

variable {s t : State} {g : Grant}

/-! ### The command -/

theorem qualifies_iff_qualifies (n : Nat) (s : State) : s.ixm.line.qualifies s.ixm.rot.width n = true ↔ Qualifies n s :=
  qualifies_iff _ _ _

theorem exec_indexQualified_of_qualifies {n : Nat} (h : Qualifies n s) :
    exec (.indexQualified n) s = .next (qualifiedIndex s) :=
  congrArg Host.Outcome.next (if_pos ((qualifies_iff_qualifies n s).mpr h))

theorem exec_indexQualified_not_qualifies {n : Nat} (h : ¬ Qualifies n s) : exec (.indexQualified n) s = .next s :=
  congrArg Host.Outcome.next (if_neg fun k => h ((qualifies_iff_qualifies n s).mp k))

/-- The state as the monitor has taken a qualified index, before the sequencer takes it. -/
def indexMonitored (s : State) : State :=
  monitorIndex s.clock.rotationTimer (s.updIxm markTaken)

theorem qualifiedIndex_of_mark (h : givesMark s.ixm.window = true) : qualifiedIndex s =
    afterEvent (takeMark s.clock.rotationTimer (followSpindle (spindleOf s.ixm) (indexMonitored s))) :=
  congrArg afterEvent (if_pos h)

theorem qualifiedIndex_of_no_mark (h : givesMark s.ixm.window = false) :
    qualifiedIndex s = afterEvent (followSpindle (spindleOf s.ixm) (indexMonitored s)) :=
  congrArg afterEvent (if_neg (by simp [h]))

theorem givesMark_of_turning {w : Window} (h : w = .closed ∨ w = .opened ∨ w = .resync) : givesMark w = true := by
  rcases h with rfl | rfl | rfl <;> rfl

theorem indexMonitored_changes (s : State) : ChangesOnly [.ixm, .rct, .evq] s (indexMonitored s) :=
  .andThen ((updIxm_changes _).mono (by decide)) (monitorIndex_changes _) (by decide)

theorem indexMonitored_ixm (s : State) : (indexMonitored s).ixm = indexed s.clock.rotationTimer (markTaken s.ixm) :=
  monitorIndex_ixm _ _

theorem qualifiedIndex_ixm_eq_monitored (s : State) : (qualifiedIndex s).ixm = (indexMonitored s).ixm :=
  (qualifiedIndex_ixm s).trans (indexMonitored_ixm s).symm

theorem indexMonitored_entries (s : State) : (indexMonitored s).rct.entries = s.rct.entries :=
  monitorIndex_entries _ _

theorem indexMonitored_moves (s : State) : Moves (indexMonitored s) (qualifiedIndex s) := by
  have followed := followSpindle_moves (s := indexMonitored s) (spindleOf s.ixm)
  exact .trans (.ite (followed.trans (takeMark_moves _)) followed) afterEvent_moves

/-! ### The monitor after it, window by window (R5 to R10, R13) -/

/-- CLOSED with the index of this moment as its reference, and the expiry of the new window (R4, R6 to R9). -/
def closedNow (s : State) : Ixm :=
  { s.ixm with
    window := .closed, reference := some s.clock.rotationTimer, line := { s.ixm.line with taken := 0 }
    expiry := some ⟨s.clock.rotationTimer, s.ixm.rot.pNom - s.ixm.rot.pNom * s.ixm.rot.tol / 1000⟩ }

theorem indexed_idle (h : s.ixm.window = .idle) : indexed s.clock.rotationTimer (markTaken s.ixm) =
    { s.ixm with
      window := .startup, reference := some s.clock.rotationTimer, line := { s.ixm.line with taken := 0 }
      expiry := some ⟨s.clock.rotationTimer, (s.ixm.rot.startup + 1) * s.ixm.rot.pNom⟩ } := by
  rw [indexed, show (markTaken s.ixm).window = .idle from h]
  rfl

theorem indexed_startup_or_resync (h : s.ixm.window = .startup ∨ s.ixm.window = .resync) :
    indexed s.clock.rotationTimer (markTaken s.ixm) = closedNow s := by
  rcases h with h | h
  · rw [indexed, show (markTaken s.ixm).window = .startup from h]; rfl
  · rw [indexed, show (markTaken s.ixm).window = .resync from h]; rfl

theorem indexed_closed (h : s.ixm.window = .closed) : indexed s.clock.rotationTimer (markTaken s.ixm) =
    { closedNow s with
      violations := min 7 (s.ixm.violations + 1)
      latched := s.ixm.latched || decide (s.ixm.rot.limit ≤ min 7 (s.ixm.violations + 1)) } := by
  rw [indexed, show (markTaken s.ixm).window = .closed from h]
  dsimp only
  rw [afterBad_of_turning (.inl rfl)]
  rfl

theorem indexed_opened {r : Timer} (h : s.ixm.window = .opened) (reference : s.ixm.reference = some r) :
    indexed s.clock.rotationTimer (markTaken s.ixm) = { closedNow s with
      average := s.ixm.average + (((s.clock.rotationTimer - r).toNat : Int) - s.ixm.average).tdiv (2 ^ s.ixm.rot.shift)
      violations := s.ixm.violations - 1
      latched := s.ixm.latched && decide (1 < s.ixm.violations) } := by
  have kept : (s.ixm.violations - 1 != 0) = decide (1 < s.ixm.violations) := by
    rw [Bool.eq_iff_iff]
    simp
    omega
  rw [indexed, show (markTaken s.ixm).window = .opened from h]
  dsimp only [goodIndex]
  rw [show (markTaken s.ixm).reference = some r from reference, Option.getD_some]
  show _ = Ixm.mk _ _ _ _ (s.ixm.latched && _) _ _ _
  rw [← kept]
  rfl

theorem indexed_window (h : s.ixm.window ≠ .idle) :
    (indexed s.clock.rotationTimer (markTaken s.ixm)).window = .closed := by
  unfold indexed
  split
  · exact absurd ‹_› h
  all_goals rfl

/-- An index taken is no index again at the same moment (R3). -/
theorem indexed_taken (now : Timer) (x : Ixm) : (indexed now (markTaken x)).line.taken = 0 := by
  unfold indexed
  split <;> rfl

theorem indexMonitored_window (turning : s.ixm.window = .closed ∨ s.ixm.window = .opened ∨ s.ixm.window = .resync) :
    (indexMonitored s).ixm.window = .closed := by
  rw [indexMonitored_ixm]
  exact indexed_window (by rcases turning with h | h | h <;> rw [h] <;> decide)

/-! ### The second index of STARTUP (R6, R23) -/

theorem qualifiedIndex_startup (h : s.ixm.window = .startup) :
    FirstQueued .spindleRunning none s.ixm.violations s (qualifiedIndex s) := by
  have offered : indexMonitored s = offer .spindleRunning none s.ixm.violations
      ((s.updIxm markTaken).updIxm (enterClosed s.clock.rotationTimer)) := monitorIndex_startup _ h
  exact firstQueued_of_offer (u := (s.updIxm markTaken).updIxm (enterClosed s.clock.rotationTimer)) rfl
    (offered ▸ indexMonitored_moves s)

theorem beginRecalibrate_of_up (h : spindleDown s.ixm = false) : beginRecalibrate s = s.updDsq fun d =>
    { d with
      state := .recalibrating, position := none, seekTarget := none
      expiry := some (uptimeExpiry s (10 * d.set.seekTimeout)) } :=
  if_neg (by simp [h])

theorem qualifiedIndex_startup_recalibrates (h : s.ixm.window = .startup) (offline : s.dsq.state = .offline)
    (unlatched : s.ixm.latched = false) : (qualifiedIndex s).dsq = { s.dsq with
      state := .recalibrating, position := none, seekTarget := none
      expiry := some ⟨s.clock.uptime, 10 * s.dsq.set.seekTimeout⟩ } := by
  rw [qualifiedIndex_of_no_mark (by rw [h]; rfl)]
  have pre := indexMonitored_changes s
  have left : (indexMonitored s).ixm = closedNow s := (indexMonitored_ixm s).trans (indexed_startup_or_resync (.inl h))
  have dsq : (indexMonitored s).dsq = s.dsq := pre.2 .dsq (by decide)
  have clock : (indexMonitored s).clock = s.clock := pre.2 .clock (by decide)
  generalize indexMonitored s = u at *
  have running : spindleOf u.ixm = .running := by rw [left]; simp [spindleOf, closedNow, unlatched]
  have changed : spindleOf u.ixm ≠ spindleOf s.ixm := by
    rw [running, show spindleOf s.ixm = .starting by simp [spindleOf, h]]
    decide
  have follow : followSpindle (spindleOf s.ixm) u = beginRecalibrate u := by
    unfold followSpindle
    rw [if_neg changed, running]
    simp [followRunning, dsq, offline]
  rw [follow, beginRecalibrate_of_up (by rw [spindleDown, running])]
  refine Eq.trans ((afterEvent_changes_port (.inl ?_)).2 .dsq (by decide)) ?_
  · show DsqState.recalibrating ≠ .idle
    decide
  · rw [State.updDsq_dsq, dsq, uptimeExpiry, clock]

/-! ### Revolution marks (R29, R30) -/

/-- What a mark does in READING where the spindle has not become UNSTABLE by it. -/
theorem qualifiedIndex_mark (turning : s.ixm.window = .closed ∨ s.ixm.window = .opened ∨ s.ixm.window = .resync)
    (reading : s.dsq.state = .reading) (steady : s.ixm.latched = true ∧ (indexMonitored s).ixm.latched = true ∨
      (indexMonitored s).ixm.latched = false) :
    qualifiedIndex s = afterEvent (takeMark s.clock.rotationTimer (indexMonitored s)) := by
  have window := indexMonitored_window turning
  have same : (indexMonitored s).dsq = s.dsq := (indexMonitored_changes s).2 .dsq (by decide)
  rw [qualifiedIndex_of_mark (givesMark_of_turning turning), followSpindle_of_reading (by rw [same]; exact reading)]
  rw [spindleOf_turning turning, spindleOf_turning (.inl window)]
  rcases steady with ⟨before, after⟩ | after
  · left; simp [before, after]
  · right; simp [after]

/-- The pass waited for begins, timed from the index of this moment (R29, R50, R55). -/
theorem qualifiedIndex_begins (turning : s.ixm.window = .closed ∨ s.ixm.window = .opened ∨ s.ixm.window = .resync)
    (reading : s.dsq.state = .reading) (grant : s.dsq.grant = some g) (phase : g.phase = .approach)
    (unlatched : (qualifiedIndex s).ixm.latched = false) :
    (qualifiedIndex s).dsq = { s.dsq with grant := some { g with phase := .inPass, begun := true } } ∧
      (qualifiedIndex s).rdc = { s.rdc with
        pass := some ⟨g.track, g.openSet, s.clock.rotationTimer, (qualifiedIndex s).ixm.average, g.shift, g.step, g.passNo,
          s.rdc.headerOffset, s.rdc.slipLimit, s.geom.sectors⟩
        shift := g.shift, assembly := none } := by
  have ixm := qualifiedIndex_ixm_eq_monitored s
  have window := indexMonitored_window turning
  have pre := indexMonitored_changes s
  rw [ixm] at unlatched ⊢
  rw [qualifiedIndex_mark turning reading (.inr unlatched)]
  generalize indexMonitored s = u at *
  have dsq : u.dsq = s.dsq := pre.2 .dsq (by decide)
  have rdc : u.rdc = s.rdc := pre.2 .rdc (by decide)
  have geom : u.geom = s.geom := pre.2 .geom (by decide)
  have running : spindleOf u.ixm = .running := by rw [spindleOf_turning (.inl window)]; simp [unlatched]
  rw [takeMark_approach_running _ (dsq ▸ reading) (dsq ▸ grant) phase running]
  have port := afterEvent_changes_port (s := beginPass g s.clock.rotationTimer u) (.inl (by
    show u.dsq.state ≠ .idle
    rw [dsq, reading]
    decide))
  rw [show (afterEvent (beginPass g s.clock.rotationTimer u)).dsq = _ from port.2 .dsq (by decide),
    show (afterEvent (beginPass g s.clock.rotationTimer u)).rdc = _ from port.2 .rdc (by decide), ← dsq, ← rdc, ← geom]
  exact ⟨rfl, rfl⟩

/-- The wait for a mark goes on while the spindle is UNSTABLE (R29). -/
theorem qualifiedIndex_waits (turning : s.ixm.window = .closed ∨ s.ixm.window = .opened ∨ s.ixm.window = .resync)
    (reading : s.dsq.state = .reading) (grant : s.dsq.grant = some g) (phase : g.phase = .approach)
    (before : s.ixm.latched = true) (after : (qualifiedIndex s).ixm.latched = true) :
    (qualifiedIndex s).dsq = s.dsq ∧ (qualifiedIndex s).rdc = s.rdc := by
  have ixm := qualifiedIndex_ixm_eq_monitored s
  have window := indexMonitored_window turning
  have pre := indexMonitored_changes s
  rw [ixm] at after
  rw [qualifiedIndex_mark turning reading (.inl ⟨before, after⟩)]
  generalize indexMonitored s = u at *
  have dsq : u.dsq = s.dsq := pre.2 .dsq (by decide)
  have unstable : spindleOf u.ixm ≠ .running := by rw [spindleOf_turning (.inl window)]; simp [after]
  rw [takeMark_approach_waits _ (dsq ▸ reading) (dsq ▸ grant) phase unstable]
  have port := afterEvent_changes_port (s := u) (.inl (by rw [dsq, reading]; decide))
  exact ⟨Eq.trans (port.2 .dsq (by decide)) dsq, Eq.trans (port.2 .rdc (by decide)) (pre.2 .rdc (by decide))⟩

/-- The pass in flight is counted unless the mark has latched UNSTABLE (R30). -/
theorem qualifiedIndex_counts (turning : s.ixm.window = .closed ∨ s.ixm.window = .opened ∨ s.ixm.window = .resync)
    (reading : s.dsq.state = .reading) (grant : s.dsq.grant = some g) (phase : g.phase = .inPass)
    (steady : s.ixm.latched = true ∨ (qualifiedIndex s).ixm.latched = false) :
    ∃ w, w.ixm = (qualifiedIndex s).ixm ∧ PassCounted (.next (qualifiedIndex s)) g s w := by
  have ixm := qualifiedIndex_ixm_eq_monitored s
  have window := indexMonitored_window turning
  have dsq : (indexMonitored s).dsq = s.dsq := (indexMonitored_changes s).2 .dsq (by decide)
  have kept : s.ixm.latched = true ∧ (indexMonitored s).ixm.latched = true ∨ (indexMonitored s).ixm.latched = false := by
    rw [ixm] at steady
    cases after : (indexMonitored s).ixm.latched
    · exact .inr rfl
    · exact .inl ⟨by simpa [after] using steady, rfl⟩
  rw [ixm, qualifiedIndex_mark turning reading kept, takeMark_inPass _ (by rw [dsq]; exact reading)
    (by rw [dsq]; exact grant) phase]
  exact countPass_counted (indexMonitored_changes s) (indexMonitored_entries s) (spindleDown_of_turning (.inl window))

/-- Settles O40: the monitor's part window by window, then the sequencer's at a change of the spindle and at a mark. -/
theorem indexMovesWindow : Obligations.IndexMovesWindow := by
  intro s n
  refine ⟨exec_indexQualified_not_qualifies, fun qualifies => ?_⟩
  have act := exec_indexQualified_of_qualifies qualifies
  have left := qualifiedIndex_ixm s
  refine ⟨qualifiedIndex s, _, closedNow s, act, (indexQualified_within n).changes act, rfl, ?_, rfl,
    fun window => left.trans (indexed_idle window), fun window => left.trans (indexed_startup_or_resync window),
    fun window => ⟨qualifiedIndex_startup window, qualifiedIndex_startup_recalibrates window⟩,
    fun window => left.trans (indexed_closed window), fun r window reference => left.trans (indexed_opened window reference),
    fun g turning reading grant => ⟨qualifiedIndex_begins turning reading grant,
      qualifiedIndex_waits turning reading grant, fun phase steady => ?_⟩⟩
  · rintro ⟨again, -⟩
    rw [left, indexed_taken] at again
    exact Nat.not_lt_zero n again
  · rw [act]
    exact qualifiedIndex_counts turning reading grant phase steady

end Sys2Proof.Machine
end

section
/-! PROOF. The latch of UNSTABLE, its event and snapshot, and its clearing (R6, R10, R11, R16, R24, R32, R201, R202). -/

namespace Sys2Proof.Machine

variable {s t u v : State}

/-! ### A bad event that latches -/

/-- The snapshot latched is that of the bad event, with the sequence its event takes (R201, R202). -/
theorem offerLatching_snapshot (k : EventKind) (n : Nat) (x : Snapshot) (free : s.evq.snapshot = none) :
    (offerLatching k n x s).evq.snapshot = some { x with seqNo := s.evq.counter } := by
  have still : (offer k none n s).evq.snapshot = none := (offer_cases k none n s).2.1.trans free
  show (latchSnapshot _ (offer k none n s).evq).snapshot = _
  simp [latchSnapshot, still]

theorem grantedJob_of_jobPass {d : Dsq} {g : Grant} (grant : d.grant = some g) (kind : g.kind = .jobPass) :
    grantedJob d = some (g.track, g.step) := by
  simp [grantedJob, grant, kind]

theorem grantedJob_of_fetch {d : Dsq} {g : Grant} (grant : d.grant = some g) (kind : g.kind ≠ .jobPass) :
    grantedJob d = none := by
  simp [grantedJob, grant, kind]

theorem grantedJob_of_free {d : Dsq} (grant : d.grant = none) : grantedJob d = none := by
  simp [grantedJob, grant]

/-- What O42 says of the latching of UNSTABLE with a count, from `s` to `t`. -/
def LatchesUnstable (count : Nat) (s t : State) : Prop :=
  spindleOf t.ixm = .unstable ∧ FirstQueued .spindleUnstable none count s t ∧
  (s.evq.snapshot = none → ∃ x, t.evq.snapshot = some x ∧ x.cause = .unstable ∧ x.seqNo = s.evq.counter ∧
    x.uptime = s.clock.uptime ∧ x.dsqState = s.dsq.state ∧ x.position = s.dsq.position ∧
    (∀ g, s.dsq.grant = some g → g.kind = .jobPass → x.job = some (g.track, g.step)) ∧
    (∀ g, s.dsq.grant = some g → g.kind ≠ .jobPass → x.job = none) ∧ (s.dsq.grant = none → x.job = none) ∧
    x.average = s.ixm.average ∧ x.violations = count ∧ x.faults = s.dsq.faults ∧
    x.lastDeviation = s.rdc.lastDeviation) ∧
  (s.dsq.state ≠ .reading → t.dsq = s.dsq ∧ t.rdc = s.rdc) ∧
  (s.dsq.state = .reading → t.dsq.state = .idle ∧ t.dsq.position = s.dsq.position ∧
    ∀ g, s.dsq.grant = some g → g.phase ≠ .voting → GrantAbandoned g s t)

/-- The sequencer follows an UNSTABLE spindle and the event ends: READING is left with its pass aborted, every other state
stands (R24). -/
theorem followUnstable_follows (pre : ChangesOnly [.ixm, .rct, .evq] s u) (unstable : spindleOf u.ixm = .unstable) :
    (s.dsq.state ≠ .reading → (afterEvent (followUnstable u)).dsq = s.dsq ∧
      (afterEvent (followUnstable u)).rdc = s.rdc) ∧
    (s.dsq.state = .reading → (afterEvent (followUnstable u)).dsq.state = .idle ∧
      (afterEvent (followUnstable u)).dsq.position = s.dsq.position ∧
      ∀ g, s.dsq.grant = some g → g.phase ≠ .voting → GrantAbandoned g s (afterEvent (followUnstable u))) := by
  have dsq : u.dsq = s.dsq := pre.2 .dsq (by decide)
  have ixm : (followUnstable u).ixm = u.ixm := by
    rw [← followSpindle_unstable (old := .running) (by rw [unstable]; decide) unstable, followSpindle_ixm]
  have port := afterEvent_changes_port (s := followUnstable u) (.inr (.inl (by rw [ixm, unstable]; decide)))
  have left : (afterEvent (followUnstable u)).dsq = (followUnstable u).dsq := port.2 .dsq (by decide)
  refine ⟨fun h => ?_, fun h => ?_⟩
  · rw [followUnstable_of_not_reading (dsq ▸ h)] at port ⊢
    exact ⟨Eq.trans (port.2 .dsq (by decide)) dsq, Eq.trans (port.2 .rdc (by decide)) (pre.2 .rdc (by decide))⟩
  · rw [followUnstable_of_reading (dsq ▸ h)] at port left ⊢
    refine ⟨by rw [left]; rfl, ?_, fun g grant phase => ?_⟩
    · rw [left]
      show (abandonWork u).dsq.position = _
      rw [abandonWork_dsq, dsq]
    · have abandoned : GrantAbandoned g u (abandonWork u) := abandonWork_abandons (dsq ▸ grant) phase
      have idle : ChangesOnly [.dsq, .mcp] (abandonWork u) (setDsqState .idle (abandonWork u)) :=
        (setDsqState_changes _).mono (by decide)
      exact ((abandoned.before pre).after idle rfl).after (port.mono (by decide)) (by rw [left])

/-- A bad event that latches, taken on a state that differs in the monitor alone, with the sequencer's part and the end of
the event. -/
theorem badEvent_latchesUnstable {x : Ixm} (pre : ChangesOnly [.ixm] s v) (window : x.window = .closed ∨ x.window = .resync)
    (latching : latches x = true) (average : x.average = s.ixm.average) :
    LatchesUnstable x.violations s (afterEvent (followUnstable (badEvent x v))) := by
  have latched : (badEvent x v).ixm.latched = true := by
    rw [badEvent_ixm, afterBad, latching]
    exact Bool.or_true _
  have moved : (badEvent x v).ixm.window = .closed ∨ (badEvent x v).ixm.window = .resync := by
    rw [badEvent_ixm]; exact window
  have unstable : spindleOf (badEvent x v).ixm = .unstable := by
    rw [spindleOf_turning (moved.imp_right .inr)]; simp [latched]
  have changes : ChangesOnly [.ixm, .rct, .evq] s (badEvent x v) :=
    (pre.mono (by decide)).andThen (badEvent_changes x) (by decide)
  have follow : Moves (badEvent x v) (afterEvent (followUnstable (badEvent x v))) :=
    followUnstable_moves.trans afterEvent_moves
  have evq : (badMoved x v).evq = s.evq := pre.2 .evq (by decide)
  have clock : v.clock = s.clock := pre.2 .clock (by decide)
  have dsq : v.dsq = s.dsq := pre.2 .dsq (by decide)
  have rdc : v.rdc = s.rdc := pre.2 .rdc (by decide)
  obtain ⟨standing, reading⟩ := followUnstable_follows changes unstable
  refine ⟨?_, ?_, fun free => ?_, standing, reading⟩
  · rw [afterEvent_ixm, ← unstable, ← followSpindle_unstable (old := .running) (by rw [unstable]; decide) unstable,
      followSpindle_ixm]
  · rw [badEvent_of_latches latching] at follow ⊢
    exact firstQueued_of_offer evq ((Move.latch _).moves.trans follow)
  · have held : (badEvent x v).evq.snapshot =
        some { snapshotOf .unstable v.dsq.position (badMoved x v) with seqNo := (badMoved x v).evq.counter } := by
      rw [badEvent_of_latches latching]
      exact offerLatching_snapshot _ _ _ (by rw [evq]; exact free)
    refine ⟨_, follow.snapshot held, rfl, congrArg Evq.counter evq, congrArg Clock.uptime clock, congrArg Dsq.state dsq,
      congrArg Dsq.position dsq, fun g grant kind => ?_, fun g grant kind => ?_, fun grant => ?_, average, rfl,
      congrArg Dsq.faults dsq, congrArg Rdc.lastDeviation rdc⟩
    · exact (congrArg grantedJob dsq).trans (grantedJob_of_jobPass grant kind)
    · exact (congrArg grantedJob dsq).trans (grantedJob_of_fetch grant kind)
    · exact (congrArg grantedJob dsq).trans (grantedJob_of_free grant)

/-! ### The two bad events that can latch, and the two that cannot -/

theorem indexMonitored_closed (h : s.ixm.window = .closed) : indexMonitored s =
    badEvent (enterClosed s.clock.rotationTimer (countBad (markTaken s.ixm))) (s.updIxm markTaken) :=
  monitorIndex_closed _ h

/-- An early index reaches the peak, and latches from the limit on (R7, R10). -/
theorem qualifiedIndex_closed_bad (h : s.ixm.window = .closed) :
    (qualifiedIndex s).rct.peakViolations = max s.rct.peakViolations (min 7 (s.ixm.violations + 1)) ∧
      (s.ixm.latched = false → s.ixm.rot.limit ≤ min 7 (s.ixm.violations + 1) →
        LatchesUnstable (min 7 (s.ixm.violations + 1)) s (qualifiedIndex s)) := by
  refine ⟨?_, fun unlatched limit => ?_⟩
  · rw [(indexMonitored_moves s).peakViolations, indexMonitored_closed h, badEvent_rct]
    rfl
  · have latching : latches (enterClosed s.clock.rotationTimer (countBad (markTaken s.ixm))) = true :=
      latches_of_limit (.inl rfl) unlatched limit
    have unstable : spindleOf (indexMonitored s).ixm = .unstable := by
      rw [spindleOf_turning (.inl (indexMonitored_window (.inl h))), indexMonitored_ixm, indexed_closed h]
      simp [limit]
    have before : spindleOf s.ixm = .running := by rw [spindleOf_turning (.inl h)]; simp [unlatched]
    rw [qualifiedIndex_of_mark (by rw [h]; rfl), followSpindle_unstable (by rw [unstable, before]; decide) unstable,
      takeMark_of_not_reading _ (followUnstable_not_reading _), indexMonitored_closed h]
    exact badEvent_latchesUnstable (updIxm_changes _) (.inl rfl) latching rfl

/-- A late expiry reaches the peak, and latches from the limit on (R8, R10). -/
theorem openWindowExpiry_bad (e : exec .openWindowExpiry s = .next t) (h : Fallen .openWindowExpiry s) :
    t.rct.peakViolations = max s.rct.peakViolations (min 7 (s.ixm.violations + 1)) ∧
      (s.ixm.latched = false → s.ixm.rot.limit ≤ min 7 (s.ixm.violations + 1) →
        LatchesUnstable (min 7 (s.ixm.violations + 1)) s t) := by
  cases e.symm.trans (exec_openWindowExpiry_fallen h)
  refine ⟨?_, fun unlatched limit => ?_⟩
  · rw [(((followSpindle_moves _).trans takeLateExpiry_moves).trans afterEvent_moves).peakViolations, badEvent_rct]
    rfl
  · have latching : latches (enterResync s.clock.rotationTimer (countBad s.ixm)) = true :=
      latches_of_limit (.inr rfl) unlatched limit
    have unstable : spindleOf (badEvent (enterResync s.clock.rotationTimer (countBad s.ixm)) s).ixm = .unstable := by
      rw [openWindowExpiry_ixm, spindleOf_turning (.inr (.inr rfl))]
      simp [limit]
    have before : spindleOf s.ixm = .running := by rw [spindleOf_turning (.inr (.inl h.1))]; simp [unlatched]
    rw [followSpindle_unstable (by rw [unstable, before]; decide) unstable,
      takeLateExpiry_of_not_reading (followUnstable_not_reading _)]
    exact badEvent_latchesUnstable (.refl _ _) (.inr rfl) latching rfl

/-- The startup window's bad event reaches the peak, and does not latch (R6, R10). -/
theorem startupWindowExpiry_bad (e : exec .startupWindowExpiry s = .next t) (h : Fallen .startupWindowExpiry s) :
    t.rct.peakViolations = max s.rct.peakViolations (min 7 (s.ixm.violations + 1)) ∧ t.ixm.latched = false := by
  cases e.symm.trans (exec_startupWindowExpiry_fallen h)
  refine ⟨?_, ?_⟩
  · rw [((followSpindle_moves _).trans afterEvent_moves).peakViolations, badEvent_rct]
    rfl
  · rw [afterEvent_ixm, followSpindle_ixm, startupWindowExpiry_ixm]

/-! ### The good event that clears the latch (R11) -/

theorem goodEvent_of_clearing (now : Timer) (latched : s.ixm.latched = true) (last : s.ixm.violations ≤ 1) :
    goodEvent now s = offer .spindleRunning none 0 (s.updIxm (goodIndex now)) := by
  have none : s.ixm.violations - 1 = 0 := by omega
  have cleared : (goodIndex now s.ixm).latched = false := by
    show (s.ixm.latched && (s.ixm.violations - 1 != 0)) = false
    simp [none]
  have count : (goodIndex now s.ixm).violations = 0 := none
  simp [goodEvent, latched, cleared, count]

theorem qualifiedIndex_clears (window : s.ixm.window = .opened) (latched : s.ixm.latched = true)
    (last : s.ixm.violations ≤ 1) :
    spindleOf (qualifiedIndex s).ixm = .running ∧ FirstQueued .spindleRunning none 0 s (qualifiedIndex s) := by
  have offered : indexMonitored s =
      offer .spindleRunning none 0 ((s.updIxm markTaken).updIxm (goodIndex s.clock.rotationTimer)) :=
    (monitorIndex_opened (s := s.updIxm markTaken) _ window).trans
      (goodEvent_of_clearing (s := s.updIxm markTaken) _ latched last)
  have moves := indexMonitored_moves s
  refine ⟨?_, ?_⟩
  · have unlatched : (indexMonitored s).ixm.latched = false := by
      rw [offered]
      show (s.ixm.latched && (s.ixm.violations - 1 != 0)) = false
      simp [Nat.sub_eq_zero_of_le last]
    rw [qualifiedIndex_ixm_eq_monitored, spindleOf_turning (.inl (indexMonitored_window (.inr (.inl window))))]
    simp [unlatched]
  · rw [offered] at moves
    exact firstQueued_of_offer (u := (s.updIxm markTaken).updIxm (goodIndex s.clock.rotationTimer)) rfl moves

/-- Settles O42: the peak after each bad event, the latch where the limit is reached, and its clearing at 0. -/
theorem unstableLatchesAndClears : Obligations.UnstableLatchesAndClears := by
  refine ⟨fun s t c count e counted bad => ?_, fun s t e h => startupWindowExpiry_bad e h,
    fun s t n e qualifies window latched last => ?_⟩
  · subst counted
    rcases bad with ⟨window, n, rfl, qualifies⟩ | ⟨-, rfl, fallen⟩
    · cases e.symm.trans (exec_indexQualified_of_qualifies qualifies)
      exact qualifiedIndex_closed_bad window
    · exact openWindowExpiry_bad e fallen
  · cases e.symm.trans (exec_indexQualified_of_qualifies qualifies)
    exact qualifiedIndex_clears window latched last

end Sys2Proof.Machine
end

section
/-! PROOF. SOFT_RESET (R18, R47, R60, R69, R87, R108, R112, R129, R144, R167, R178, R194, R204). -/

namespace Sys2Proof.Machine

variable {s t u : State} {j : Job}

/-! ### Lookups where no two members share a key -/

theorem find_key_of_mem {α κ : Type} [DecidableEq κ] (key : α → κ) {l : List α} {x : α} (nodup : (l.map key).Nodup)
    (hx : x ∈ l) : l.find? (fun y => key y == key x) = some x := by
  induction l with
  | nil => cases hx
  | cons y l ih =>
    obtain ⟨fresh, rest⟩ := List.nodup_cons.mp nodup
    rcases List.mem_cons.mp hx with rfl | later
    · simp
    · have other : key y ≠ key x := fun same => fresh (same ▸ List.mem_map_of_mem later)
      rw [List.find?_cons_of_neg (by simpa using other)]
      exact ih rest later

theorem find_key_of_not_mem {α κ : Type} [DecidableEq κ] (key : α → κ) {l : List α} {k : κ} (h : k ∉ l.map key) :
    l.find? (fun y => key y == k) = none := by
  simp only [List.find?_eq_none, beq_iff_eq]
  exact fun x hx same => h (same ▸ List.mem_map_of_mem hx)

theorem copiesOf_freeTrack_ne {tr : Track} {a : SectorAddr} (c : Cps) (h : a.track ≠ tr) :
    copiesOf a (freeTrack tr c) = copiesOf a c := by
  have same : (c.lists.filter fun l => l.addr.track != tr).find? (fun l => l.addr == a) =
      c.lists.find? fun l => l.addr == a := by
    rw [List.find?_filter]
    congr 1
    funext l
    by_cases e : l.addr = a
    · simp [e, h]
    · simp [e]
  unfold copiesOf copyListOf freeTrack
  rw [same]

/-! ### One job's end at a reset (R108, R112) -/

/-- What a job's end with reason CANCELLED, PARTIAL without an event, makes of an entry (R112, R138). -/
def cancelEntry (j : Job) (held : Nat → Nat) (e : Entry) : Entry :=
  if e.track = j.track ∧ e.state = .opened then e.close (fallsWith j) (endReason (.cause .cancelled) j) held true else e

theorem cancelEntry_track (j : Job) (held : Nat → Nat) (e : Entry) : (cancelEntry j held e).track = e.track := by
  unfold cancelEntry
  split <;> rfl

theorem cancelEntry_of_ne {held : Nat → Nat} {e : Entry} (h : e.track ≠ j.track) : cancelEntry j held e = e :=
  if_neg fun k => h k.1

/-- A closing without an event changes the entries alone, each track having one. -/
theorem closeEntry_quiet (held : Nat → Nat) (nodup : (s.rct.entries.map Entry.track).Nodup) :
    closeEntry j.track (fallsWith j) (endReason (.cause .cancelled) j) held true true s =
      s.updRct fun r => { r with entries := r.entries.map (cancelEntry j held) } := by
  have stands (h : ∀ e ∈ s.rct.entries, e.track = j.track → e.state ≠ .opened) :
      s = s.updRct fun r => { r with entries := r.entries.map (cancelEntry j held) } := by
    have same : s.rct.entries.map (cancelEntry j held) = s.rct.entries.map id :=
      List.map_congr_left fun e he => if_neg fun k => h e he k.1 k.2
    show s = { s with rct := { s.rct with entries := s.rct.entries.map (cancelEntry j held) } }
    rw [same, List.map_id]
  unfold closeEntry
  cases found : entryOf j.track s with
  | none =>
    refine stands fun e he same => ?_
    have := find_key_of_mem Entry.track nodup he
    rw [same] at this
    exact absurd (found.symm.trans this) nofun
  | some e =>
    have only (x : Entry) (hx : x ∈ s.rct.entries) (same : x.track = j.track) : x = e := by
      have here := find_key_of_mem Entry.track nodup hx
      rw [same] at here
      exact Option.some.inj (here.symm.trans found)
    by_cases opened : e.state = .opened
    · have closed : (s.rct.entries.map fun x => if x.track = j.track
          then x.close (fallsWith j) (endReason (.cause .cancelled) j) held true else x) =
          s.rct.entries.map (cancelEntry j held) := by
        refine List.map_congr_left fun x hx => ?_
        by_cases same : x.track = j.track
        · rw [if_pos same, cancelEntry, if_pos ⟨same, only x hx same ▸ opened⟩]
        · rw [if_neg same, cancelEntry_of_ne same]
      simp only [opened, if_true, updEntry, State.updRct, closed]
    · simp only [opened, if_false]
      exact stands fun x hx same => only x hx same ▸ opened

/-- A job's end at a reset: the table's entry, the peak of passes, the copies, the frame and the queue; no event. -/
theorem endJob_cancelled (nodup : (s.rct.entries.map Entry.track).Nodup) :
    (endJob (.cause .cancelled) true true j s).rct = { s.rct with
        entries := s.rct.entries.map (cancelEntry j (copyCount s j.track))
        peakPasses := max s.rct.peakPasses j.counter } ∧
      (endJob (.cause .cancelled) true true j s).evq = s.evq ∧
      (endJob (.cause .cancelled) true true j s).cps = freeTrack j.track s.cps ∧
      (endJob (.cause .cancelled) true true j s).tks = (endFrame j s).tks := by
  have frame := endFrame_changes j (s := s)
  have rct : (endFrame j s).rct = s.rct := frame.2 .rct (by decide)
  have evq : (endFrame j s).evq = s.evq := frame.2 .evq (by decide)
  have cps : (endFrame j s).cps = s.cps := frame.2 .cps (by decide)
  have closed := closeEntry_quiet (s := endCopies j (endFrame j s)) (j := j) (copyCount s j.track)
    (by show ((endFrame j s).rct.entries.map Entry.track).Nodup; rw [rct]; exact nodup)
  have ended : endJob (.cause .cancelled) true true j s = removeJob j.track (reportPasses j.counter
      ((endCopies j (endFrame j s)).updRct fun r =>
        { r with entries := r.entries.map (cancelEntry j (copyCount s j.track)) })) :=
    congrArg (fun v => removeJob j.track (reportPasses j.counter v)) closed
  rw [ended]
  refine ⟨?_, evq, congrArg (freeTrack j.track) cps, rfl⟩
  rw [← rct]
  rfl

/-! ### All jobs end (R112) -/

/-- The ends of the jobs listed, one after another. -/
def cancelAll (js : List Job) (s : State) : State :=
  js.foldl (fun s j => endJob (.cause .cancelled) true true j s) s

theorem cancelAll_cons (j : Job) (js : List Job) (s : State) :
    cancelAll (j :: js) s = cancelAll js (endJob (.cause .cancelled) true true j s) := rfl

/-- What the ends of the jobs listed make of an entry: the one job on its track is what counts. -/
def cancelledBy (js : List Job) (s : State) (e : Entry) : Entry :=
  match js.find? fun j => j.track == e.track with
  | some j => cancelEntry j (copyCount s j.track) e
  | none => e

theorem endJob_cancelled_nodup (nodup : (s.rct.entries.map Entry.track).Nodup) :
    ((endJob (.cause .cancelled) true true j s).rct.entries.map Entry.track).Nodup := by
  rw [(endJob_cancelled nodup).1]
  show ((s.rct.entries.map (cancelEntry j (copyCount s j.track))).map Entry.track).Nodup
  rw [List.map_map, show Entry.track ∘ cancelEntry j (copyCount s j.track) = Entry.track from
    funext (cancelEntry_track j _)]
  exact nodup

theorem cancelAll_evq (js : List Job) (nodup : (s.rct.entries.map Entry.track).Nodup) : (cancelAll js s).evq = s.evq := by
  induction js generalizing s with
  | nil => rfl
  | cons j js ih => rw [cancelAll_cons, ih (endJob_cancelled_nodup nodup), (endJob_cancelled nodup).2.1]

/-- Each entry is closed by the job on its track, with the copies as they stood before the reset. -/
theorem cancelAll_rct (js : List Job) (jobs : (js.map Job.track).Nodup) (nodup : (s.rct.entries.map Entry.track).Nodup) :
    (cancelAll js s).rct = { s.rct with
      entries := s.rct.entries.map (cancelledBy js s), peakPasses := (js.map Job.counter).foldl max s.rct.peakPasses } := by
  induction js generalizing s with
  | nil =>
    show s.rct = { s.rct with entries := s.rct.entries.map id }
    rw [List.map_id]
  | cons j js ih =>
    obtain ⟨fresh, rest⟩ := List.nodup_cons.mp jobs
    obtain ⟨rct, -, cps, -⟩ := endJob_cancelled (j := j) nodup
    have each (e : Entry) : cancelledBy js (endJob (.cause .cancelled) true true j s)
        (cancelEntry j (copyCount s j.track) e) = cancelledBy (j :: js) s e := by
      unfold cancelledBy
      rw [cancelEntry_track]
      by_cases same : e.track = j.track
      · rw [same, find_key_of_not_mem Job.track fresh, List.find?_cons_of_pos (by simp)]
      · rw [cancelEntry_of_ne same, List.find?_cons_of_neg (by simpa using Ne.symm same)]
        cases found : js.find? fun k => k.track == e.track with
        | none => rfl
        | some k =>
          have other : k.track ≠ j.track := by rwa [find_key_some Job.track found]
          have held : copyCount (endJob (.cause .cancelled) true true j s) k.track = copyCount s k.track := by
            funext i
            unfold copyCount
            rw [cps, copiesOf_freeTrack_ne _ other]
          simp only [held]
    rw [cancelAll_cons, ih rest (endJob_cancelled_nodup nodup), rct]
    simp only [List.map_map, List.map_cons, List.foldl_cons]
    congr 1
    exact List.map_congr_left fun e _ => each e

/-! ### The images that wait for the station (R108, R204) -/

/-- The end of the job releases the frame: its fill is pending and the frame wholly EMPTY (R108). -/
def releasedBy (j : Job) (f : Frame) : Bool :=
  j.holdsFrame && j.fill && f.allEmpty

/-- The frame is pending for the station and the jobs listed do not release it. -/
def staysPending (js : List Job) (f : Frame) : Bool :=
  f.exportPending && !((js.find? fun j => j.track == f.track).any fun j => releasedBy j f)

theorem failSectors_keeps (sectors : List Nat) (f : Frame) :
    (failSectors sectors f).track = f.track ∧ (failSectors sectors f).exportPending = f.exportPending := by
  unfold failSectors
  induction sectors generalizing f with
  | nil => exact ⟨rfl, rfl⟩
  | cons i is ih => exact ih _

theorem releasesFrame_iff (nodup : (s.tks.frames.map Frame.track).Nodup) {f : Frame} (hf : f ∈ s.tks.frames)
    (same : f.track = j.track) (holds : j.holdsFrame = true) : releasesFrame j s = releasedBy j f := by
  have found : frameOf j.track s = some f := same ▸ find_key_of_mem Frame.track nodup hf
  simp [releasesFrame, releasedBy, found, holds]

theorem endFrame_frames_nodup (nodup : (s.tks.frames.map Frame.track).Nodup) :
    ((endFrame j s).tks.frames.map Frame.track).Nodup := by
  unfold endFrame
  split
  · split
    · exact nodup.sublist (List.filter_sublist.map _)
    · show ((s.tks.frames.map fun f => if f.track = j.track then failSectors j.openSet f else f).map Frame.track).Nodup
      rw [keys_change Frame.track _ _ _ fun f => (failSectors_keeps j.openSet f).1]
      exact nodup
  · exact nodup

/-- The frames still pending after one job's end are those that it and the jobs after it do not release. -/
theorem countP_endFrame (js : List Job) (fresh : j.track ∉ js.map Job.track)
    (nodup : (s.tks.frames.map Frame.track).Nodup) :
    (endFrame j s).tks.frames.countP (staysPending js) = s.tks.frames.countP (staysPending (j :: js)) := by
  have other {f : Frame} (h : f.track ≠ j.track) : staysPending (j :: js) f = staysPending js f := by
    unfold staysPending
    rw [List.find?_cons_of_neg (by simpa using h.symm)]
  have own {f : Frame} (h : f.track = j.track) :
      staysPending (j :: js) f = (f.exportPending && !releasedBy j f) ∧ staysPending js f = f.exportPending := by
    unfold staysPending
    rw [h, find_key_of_not_mem Job.track fresh, List.find?_cons_of_pos (by simp)]
    simp
  cases holds : j.holdsFrame with
  | false =>
    rw [show endFrame j s = s from if_neg (by simp [holds])]
    refine List.countP_congr fun f _ => ?_
    by_cases h : f.track = j.track
    · simp [own h, releasedBy, holds]
    · rw [other h]
  | true =>
    cases releases : releasesFrame j s with
    | true =>
      rw [show endFrame j s = releaseFrame j.track s from (if_pos holds).trans (if_pos releases)]
      show (s.tks.frames.filter fun f => f.track != j.track).countP (staysPending js) = _
      rw [List.countP_filter]
      refine List.countP_congr fun f hf => ?_
      by_cases h : f.track = j.track
      · simp [own h, h, ← releasesFrame_iff nodup hf h holds, releases]
      · simp [other h, h]
    | false =>
      rw [show endFrame j s = updFrame j.track (failSectors j.openSet) s from
        (if_pos holds).trans (if_neg (by simp [releases]))]
      show (s.tks.frames.map fun f => if f.track = j.track then failSectors j.openSet f else f).countP (staysPending js) = _
      rw [List.countP_map]
      refine List.countP_congr fun f hf => ?_
      by_cases h : f.track = j.track
      · obtain ⟨track, pending⟩ := failSectors_keeps j.openSet f
        have kept : (staysPending js ∘ fun f => if f.track = j.track then failSectors j.openSet f else f) f =
            f.exportPending := by
          rw [Function.comp_apply, if_pos h, ← pending, ← (own (track.trans h)).2]
        rw [kept, (own h).1, ← releasesFrame_iff nodup hf h holds, releases]
        simp
      · simp [other h, h]

theorem countP_cancelAll (js : List Job) (jobs : (js.map Job.track).Nodup)
    (entries : (s.rct.entries.map Entry.track).Nodup) (frames : (s.tks.frames.map Frame.track).Nodup) :
    (cancelAll js s).tks.frames.countP Frame.exportPending = s.tks.frames.countP (staysPending js) := by
  induction js generalizing s with
  | nil =>
    refine List.countP_congr fun f _ => ?_
    simp [staysPending]
  | cons j js ih =>
    obtain ⟨fresh, rest⟩ := List.nodup_cons.mp jobs
    have tks := (endJob_cancelled (j := j) entries).2.2.2
    rw [cancelAll_cons, ih rest (endJob_cancelled_nodup entries) (by rw [tks]; exact endFrame_frames_nodup frames), tks,
      countP_endFrame js fresh frames]

/-! ### SOFT_RESET -/

theorem cancelledBy_of_closed {js : List Job} {e : Entry} (h : e.state ≠ .opened) : cancelledBy js s e = e := by
  unfold cancelledBy
  split
  · exact if_neg fun k => h k.2
  · rfl

/-- An OPEN entry closes PARTIAL, and what falls with its job is FAILED, reason CANCELLED (R112, R138). -/
theorem cancelledBy_of_opened {e : Entry} (h : e.state = .opened) (job : jobOf e.track s = some j) :
    cancelledBy s.jbq.jobs s e = { e with
      state := .incomplete
      outcomes := e.outcomes.map fun o =>
        if (j.fill = false ∧ o.sector ∈ j.openSet) ∨ (j.fill = true ∧ o.result = .pending)
        then ⟨o.sector, .failed (copiesOf ⟨e.track, o.sector⟩ s.cps).length .cancelled⟩ else o } := by
  have track : e.track = j.track := (jobOf_track job).symm
  have outcomes : failOpen (fallsWith j) (endReason (.cause .cancelled) j) (copyCount s j.track) e.outcomes =
      e.outcomes.map fun o =>
        if (j.fill = false ∧ o.sector ∈ j.openSet) ∨ (j.fill = true ∧ o.result = .pending)
        then ⟨o.sector, .failed (copiesOf ⟨e.track, o.sector⟩ s.cps).length .cancelled⟩ else o := by
    refine List.map_congr_left fun o _ => ?_
    rw [track]
    exact if_congr (fallsWith_iff j o) rfl rfl
  unfold cancelledBy
  rw [show s.jbq.jobs.find? (fun k => k.track == e.track) = some j from job]
  show cancelEntry j (copyCount s j.track) e = _
  rw [cancelEntry, if_pos ⟨track, h⟩, ← outcomes]
  rfl

/-- Settles O39: the jobs end one by one, each closing its own track's entry, and the blocks then restart. -/
theorem softResetRestartsTheBlocks : Obligations.SoftResetRestartsTheBlocks := by
  intro s p taking table bounded
  obtain ⟨-, -, -, -, frames, -, jobs, -, -, entries⟩ := bounded
  have act : exec .softReset s = .next (answer .ok 0x5F [] (softReset s)) :=
    congrArg Host.Outcome.next (takeRequest_of_taking (fun _ s => answer .ok 0x5F [] (softReset s)) taking)
  have work := resetJobs_changes (s := s)
  have settings := (resetJobs_moves (s := s)).settings
  have rct : (resetJobs s).rct = _ := cancelAll_rct s.jbq.jobs jobs entries
  have evq : (resetJobs s).evq = s.evq := cancelAll_evq s.jbq.jobs entries
  have images : pendingImages (resetJobs s).tks = s.tks.frames.countP (staysPending s.jbq.jobs) :=
    countP_cancelAll s.jbq.jobs jobs entries frames
  have clock : (resetJobs s).clock = s.clock := work.2 .clock (by decide)
  simp only [settingsOf, Settings.mk.injEq] at settings
  obtain ⟨-, -, -, -, -, -, -, ladder, length, repeats, cooldown, -, hold, -⟩ := settings
  have offered : (softReset s).evq = (offer .resetDone none (s.tks.frames.countP (staysPending s.jbq.jobs)) s).evq := by
    show enqueue .resetDone none (pendingImages (resetJobs s).tks) s.mcp.attnPulse (resetJobs s).clock.rotationTimer
      (resetJobs s).evq = _
    rw [images, clock, evq]
    rfl
  have entry (i : Nat) : (resetJobs s).rct.entries[i]? = s.rct.entries[i]?.map (cancelledBy s.jbq.jobs s) := by
    rw [rct]
    exact List.getElem?_map
  obtain ⟨-, -, queue⟩ := offer_cases .resetDone none (s.tks.frames.countP (staysPending s.jbq.jobs)) s
  refine ⟨_, _, act, (softReset_within.changes act).mono (by decide), rfl, rfl, rfl, rfl, rfl, rfl, ?_, ?_, rfl, ?_, ?_,
    fun i e found closed => ?_, fun i e j found opened job => ?_, rfl, offered, fun room => ?_, fun full => ?_⟩
  · show { (resetJobs s).jbq with jobs := [], fetch := none } = { s.jbq with jobs := [], fetch := none }
    rw [Jbq.mk.injEq]
    exact ⟨rfl, ladder, length, repeats, cooldown, rfl⟩
  · show { (resetJobs s).tks with frames := [] } = { s.tks with frames := [] }
    exact congrArg (Tks.mk []) hold
  · show (resetJobs s).rct = { s.rct with
      entries := (resetJobs s).rct.entries
      peakPasses := (s.jbq.jobs.map Job.counter).foldl max s.rct.peakPasses }
    rw [rct]
  · show (resetJobs s).rct.entries.length = _
    rw [rct]
    exact List.length_map _
  · exact (entry i).trans (by rw [found, Option.map_some, cancelledBy_of_closed closed])
  · exact (entry i).trans (by rw [found, Option.map_some, cancelledBy_of_opened opened job])
  · show (softReset s).evq.records = _
    rw [offered]
    rcases queue with ⟨-, records, -⟩ | ⟨full, -⟩
    · exact records
    · omega
  · show (softReset s).evq.records = _ ∧ (softReset s).evq.overrun = _
    rw [offered]
    rcases queue with ⟨room, -⟩ | ⟨-, same⟩
    · omega
    · rw [same]
      exact ⟨rfl, rfl⟩

end Sys2Proof.Machine
end

section
/-! PROOF. What the shared operations leave in each block they do not reach, and what the operations of the sequencer leave
in it, in the pass and in the batch (R22 to R35). -/

namespace Sys2Proof.Machine

variable {s t u : State} {g : Grant} {bs : List Block}

/-! ### A block out of reach stands -/

theorem ChangesOnly.clock (h : ChangesOnly bs s t) (hb : .clock ∉ bs := by decide) : t.clock = s.clock := h.2 .clock hb
theorem ChangesOnly.pins (h : ChangesOnly bs s t) (hb : .pins ∉ bs := by decide) : t.pins = s.pins := h.2 .pins hb
theorem ChangesOnly.geom (h : ChangesOnly bs s t) (hb : .geom ∉ bs := by decide) : t.geom = s.geom := h.2 .geom hb
theorem ChangesOnly.ixm (h : ChangesOnly bs s t) (hb : .ixm ∉ bs := by decide) : t.ixm = s.ixm := h.2 .ixm hb
theorem ChangesOnly.dsq (h : ChangesOnly bs s t) (hb : .dsq ∉ bs := by decide) : t.dsq = s.dsq := h.2 .dsq hb
theorem ChangesOnly.rdc (h : ChangesOnly bs s t) (hb : .rdc ∉ bs := by decide) : t.rdc = s.rdc := h.2 .rdc hb
theorem ChangesOnly.cps (h : ChangesOnly bs s t) (hb : .cps ∉ bs := by decide) : t.cps = s.cps := h.2 .cps hb
theorem ChangesOnly.vte (h : ChangesOnly bs s t) (hb : .vte ∉ bs := by decide) : t.vte = s.vte := h.2 .vte hb
theorem ChangesOnly.jbq (h : ChangesOnly bs s t) (hb : .jbq ∉ bs := by decide) : t.jbq = s.jbq := h.2 .jbq hb
theorem ChangesOnly.tks (h : ChangesOnly bs s t) (hb : .tks ∉ bs := by decide) : t.tks = s.tks := h.2 .tks hb
theorem ChangesOnly.rct (h : ChangesOnly bs s t) (hb : .rct ∉ bs := by decide) : t.rct = s.rct := h.2 .rct hb
theorem ChangesOnly.mcp (h : ChangesOnly bs s t) (hb : .mcp ∉ bs := by decide) : t.mcp = s.mcp := h.2 .mcp hb
theorem ChangesOnly.stl (h : ChangesOnly bs s t) (hb : .stl ∉ bs := by decide) : t.stl = s.stl := h.2 .stl hb
theorem ChangesOnly.evq (h : ChangesOnly bs s t) (hb : .evq ∉ bs := by decide) : t.evq = s.evq := h.2 .evq hb

/-! ### The state a sequencer left without work enters (R23, R31) -/

/-- OFFLINE while the spindle is STOPPED or STARTING, and IDLE otherwise. -/
def restState (x : Ixm) : DsqState :=
  if spindleDown x then .offline else .idle

theorem restState_cases (x : Ixm) : restState x = .offline ∨ restState x = .idle := by
  unfold restState
  split <;> simp

theorem enterIdle_dsq (s : State) : (enterIdle s).dsq = { s.dsq with state := restState s.ixm } := rfl

/-! ### Batches and counted passes (R30, R31, R71) -/

theorem completeBatch_dsq (b : Batch) (s : State) : (completeBatch b s).dsq =
    { s.dsq with
      grant := none, state := if s.dsq.state = .voting then restState s.ixm else s.dsq.state } := by
  have same : ChangesOnly (.vte :: workBlocks) s
      (finishJobPass b.track ((deliverBatch b s).updVte fun v => { v with batch := none })) :=
    (((deliverBatch_changes b).mono (by decide)).andThen (updVte_changes _) (by decide)).andThen
      (finishJobPass_changes _) (by decide)
  unfold completeBatch
  dsimp only
  rw [show (setGrant none (finishJobPass b.track ((deliverBatch b s).updVte fun v => { v with batch := none }))).dsq =
    { s.dsq with grant := none } by rw [setGrant, State.updDsq_dsq, same.dsq]]
  split
  · rw [enterIdle_dsq, setGrant, State.updDsq_dsq, State.updDsq_ixm, same.dsq, same.ixm]
  · rw [setGrant, State.updDsq_dsq, same.dsq]

theorem completeBatch_vte (b : Batch) (s : State) : (completeBatch b s).vte = { s.vte with batch := none } := by
  have same : (finishJobPass b.track ((deliverBatch b s).updVte fun v => { v with batch := none })).vte =
      { s.vte with batch := none } := by
    rw [(finishJobPass_changes _).vte, State.updVte_vte, (deliverBatch_changes b).vte]
  unfold completeBatch
  dsimp only
  split <;> exact same

/-- A pass counted ends: its grant ends too, or stays for the batch that runs in VOTING. -/
theorem countPass_cases (g : Grant) (s : State) :
    (countPass g s).rdc = { s.rdc with pass := none, assembly := none } ∧
    ((countPass g s).dsq = { s.dsq with grant := none, state := restState s.ixm } ∧
        ((countPass g s).vte = s.vte ∨ (countPass g s).vte.batch = none) ∨
      g.kind = .jobPass ∧
        (countPass g s).dsq = { s.dsq with grant := some { g with phase := .voting }, state := .voting } ∧
        ∃ b, (countPass g s).vte.batch = some b ∧ b.track = g.track) := by
  by_cases kind : g.kind = .jobPass
  · have run := jobPassEnded_changes g (endPassContext s)
    have counted : countPass g s =
        if (formBatch g (passTallied g (endPassContext s))).members.isEmpty
        then completeBatch (formBatch g (passTallied g (endPassContext s))) (jobPassEnded g (endPassContext s))
        else jobPassEnded g (endPassContext s) := if_pos kind
    have rdc : (jobPassEnded g (endPassContext s)).rdc = { s.rdc with pass := none, assembly := none } := run.rdc
    rw [counted]
    split
    · refine ⟨(completeBatch_changes _).rdc.trans rdc, .inl ⟨?_, .inr (by rw [completeBatch_vte])⟩⟩
      rw [completeBatch_dsq, run.ixm]
      rfl
    · exact ⟨rdc, .inr ⟨kind, rfl, _, rfl, rfl⟩⟩
  · rw [countPass_fetch kind]
    refine ⟨(endFetch_rdc _ _ _), .inl ⟨?_, .inl (endFetch_changes _ _).vte⟩⟩
    rw [enterIdle_dsq, endFetch_dsq, endFetch_ixm]
    rfl

/-! ### Work abandoned (R32, R33) -/

theorem abandonWork_grant (s : State) :
    (abandonWork s).dsq.grant = s.dsq.grant.filter fun g => decide (g.phase = .voting) := by
  cases grant : s.dsq.grant with
  | none => rw [abandonWork_of_no_grant grant]; exact grant
  | some g =>
    cases phase : g.phase with
    | approach =>
      rw [abandonWork_of_approach grant phase]
      show (endUnpassed g s).dsq.grant = _
      simp [endUnpassed_dsq, Option.filter, phase]
    | inPass =>
      rw [abandonWork_of_inPass grant phase]
      show (abortPass g s).dsq.grant = _
      simp [abortPass_dsq, Option.filter, phase]
    | voting => rw [abandonWork_of_voting grant phase]; exact grant.trans (by simp [Option.filter, phase])

/-! ### Recalibrates, seeks and settle waits (R27, R28, R34) -/

theorem beginRecalibrate_of_down (h : spindleDown s.ixm = true) : (beginRecalibrate s).dsq =
    { s.dsq with state := .offline, position := none, seekTarget := none, expiry := none } := by
  unfold beginRecalibrate
  rw [if_pos h]
  rfl

theorem beginRecalibrate_dsq (s : State) : (beginRecalibrate s).dsq = { s.dsq with
    state := if spindleDown s.ixm then .offline else .recalibrating, position := none, seekTarget := none
    expiry := if spindleDown s.ixm then none else some ⟨s.clock.uptime, 10 * s.dsq.set.seekTimeout⟩ } := by
  cases h : spindleDown s.ixm
  · rw [beginRecalibrate_of_up h]; rfl
  · rw [beginRecalibrate_of_down h]; rfl

theorem endSettle_of_free (grant : s.dsq.grant = none) : endSettle s = enterIdle (clearOperation s) := by
  unfold endSettle
  rw [grant]

theorem endSettle_of_unstable (grant : s.dsq.grant = some g) (unstable : spindleOf s.ixm = .unstable) :
    endSettle s = enterIdle (endUnpassed g (clearOperation s)) := by
  unfold endSettle
  rw [grant]
  exact if_pos unstable

theorem endSettle_of_steady (grant : s.dsq.grant = some g) (steady : spindleOf s.ixm ≠ .unstable) :
    endSettle s = setDsqState .reading (clearOperation s) := by
  unfold endSettle
  rw [grant]
  exact if_neg steady

/-- Under a steady spindle the grant's settle wait begins, and one of 0 is over at once. -/
theorem beginSettle_steady (grant : s.dsq.grant = some g) (steady : spindleOf s.ixm ≠ .unstable) :
    beginSettle g s = s.updDsq fun d => { d with
      position := some ⟨g.track.cyl, g.track.head, g.offset⟩, lastPosition := some ⟨g.track.cyl, g.track.head, g.offset⟩
      seekTarget := none
      state := if d.set.settle = 0 then .reading else .settling
      expiry := if d.set.settle = 0 then none else some ⟨s.clock.uptime, d.set.settle⟩ } := by
  unfold beginSettle
  dsimp only
  by_cases zero : s.dsq.set.settle = 0
  · rw [if_pos zero]
    rw [endSettle_of_steady (g := g)]
    · simp [State.updDsq, setDsqState, clearOperation, Dsq.establish, zero]
    · exact grant
    · exact steady
  · rw [if_neg zero]
    simp [State.updDsq, Dsq.establish, zero, uptimeExpiry]

theorem takeUpGrant_of_unknown (h : s.dsq.position = none) : takeUpGrant g s = beginRecalibrate s := by
  simp [takeUpGrant, h]

theorem takeUpGrant_of_known {p : Position} (h : s.dsq.position = some p) : takeUpGrant g s =
    if p.cyl ≠ g.track.cyl then beginSeek g s
    else if p.head ≠ g.track.head ∨ p.offset ≠ g.offset then beginSettle g s
    else setDsqState .reading (clearOperation s) := by
  simp [takeUpGrant, h]

/-- A grant taken up under a steady spindle is brought to its track, and nothing is done but that (R27). -/
theorem takeUpGrant_steady_changes (grant : s.dsq.grant = some g) (steady : spindleOf s.ixm ≠ .unstable) :
    ChangesOnly [.dsq] s (takeUpGrant g s) := by
  cases position : s.dsq.position with
  | none => rw [takeUpGrant_of_unknown position]; exact beginRecalibrate_changes
  | some p =>
    rw [takeUpGrant_of_known position, beginSettle_steady grant steady]
    exact .ite (updDsq_changes _) (.ite (updDsq_changes _) ((updDsq_changes _).trans (updDsq_changes _)))

end Sys2Proof.Machine
end

section
/-! PROOF. The commands as sequences of events of the drive and of the queue: what such events keep, every step keeps. -/

namespace Sys2Proof.Machine

variable {s t u : State}

/-! ### Events -/

/-- The blocks that neither the sequencer's consistency nor the queue's reads. -/
def outerBlocks : List Block :=
  [.clock, .pins, .geom, .cps, .rct, .mcp, .ovl, .stl, .evq]

/-- The state after a recorded fence is cleared, before a FENCED sequencer recalibrates (R36, R39). -/
def clearedFence (c : FenceCause) (s : State) : State :=
  offer .fenceCleared none (causeByte c) (s.updDsq fun d => { d with fence := none, faults := 0, quiet := none })

/-- The sequencer begins a rest (R40). -/
def begunRest (ms : Nat) (s : State) : State :=
  (abandonWork s).updDsq fun d => { d with state := .resting, position := none, expiry := some (uptimeExpiry s ms) }

/-- One event of the drive or of the queue, or a change that reaches neither; a command is a sequence of them. -/
inductive Event : State → State → Prop where
  | outer {s t : State} (h : ChangesOnly outerBlocks s t) : Event s t
  | arbitrate (s : State) : Event s (arbitrate s)
  | spindle {s u : State} (h : ChangesOnly [.ixm, .rct, .evq] s u) : Event s (followSpindle (spindleOf s.ixm) u)
  | mark (r : Timer) (s : State) : Event s (takeMark r s)
  | lateExpiry (s : State) : Event s (takeLateExpiry s)
  | seekEnds {s : State} (h : s.dsq.state = .seeking) : Event s (completeSeek s)
  | recalibrateEnds {s : State} (h : s.dsq.state = .recalibrating) : Event s (completeRecalibrate s)
  | seekFault {s : State} (h : s.dsq.state = .seeking ∨ s.dsq.state = .settling ∨ s.dsq.state = .reading ∨
      s.rdc.pass.isSome) : Event s (seekFault s)
  | fence {s : State} (cause : FenceCause) (before : State) (h : s.dsq.state ≠ .detached) :
      Event s (raiseFence cause before s)
  | settleEnds {s : State} (h : s.dsq.state = .settling) : Event s (endSettle s)
  | rests {s : State} (ms : Nat) (fenced : s.dsq.state ≠ .fenced) (detached : s.dsq.state ≠ .detached) :
      Event s (begunRest ms s)
  | restEnds {s : State} (h : s.dsq.state = .resting) : Event s (beginRecalibrate s)
  | quietEnds (s : State) : Event s (s.updDsq fun d => { d with faults := 0, quiet := none })
  | tally {s : State} (tr : Track) (i : Nat) (f : Tally → Tally) : Event s (tallyPass tr i f s)
  | channel {s : State} (f : Rdc → Rdc) (h : (f s.rdc).pass = s.rdc.pass) : Event s (s.updRdc f)
  | goodCopy (c : SealedCopy) (s : State) : Event s (deliverGood c s)
  | badCopy (c : SealedCopy) (s : State) : Event s (deliverBad c s)
  | batchEnds {s : State} {b : Batch} (h : s.vte.batch = some b) : Event s (completeBatch b s)
  | cooled {s : State} {j : Job} (job : jobOf j.track s = some j) (h : j.state = .cooling) :
      Event s (updJob j.track warmJob s)
  | refresh (tr : Track) (s : State) : Event s (refreshFrame tr s)
  | exported (tr : Track) (s : State) : Event s (updFrame tr clearExport s)
  | merged (tr : Track) (s : State) : Event s (updJob tr (fun j => { j with origin := .station }) s)
  | keptJob {s : State} {tr : Track} {f : Frame} (n : Nat) (job : jobOf tr s = none) (frame : frameOf tr s = some f)
      (failed : sectorsWhere SectorRec.isFailed f ≠ []) : Event s (createKeptJob tr f n s)
  | framelessJob {s : State} {tr : Track} (n : Nat) (job : jobOf tr s = none) (frame : frameOf tr s = none) :
      Event s (createFramelessJob tr n s)
  | cancelled {s : State} {j : Job} (p : Bool) (job : jobOf j.track s = some j) :
      Event s (endJob (.cause .cancelled) p false j (cancelGrant j.track s))
  | geometry (g : Geometry) (s : State) : Event s (s.updDsq fun d => { d with position := keepPosition g d.position })
  | drive {s : State} (x : DriveSettings) (h : x.InRange) : Event s (s.updDsq fun d => { d with set := x })
  | vote {s : State} (f : Vte → Vte) (h : (f s.vte).batch = s.vte.batch) : Event s (s.updVte f)
  | ladder {s : State} (f : Jbq → Jbq) (h : (f s.jbq).jobs = s.jbq.jobs) : Event s (s.updJbq f)
  | exportHold (b : Bool) (s : State) : Event s (s.updTks fun k => { k with exportHold := b })
  | fenceCleared {s : State} {c : FenceCause} (h : s.dsq.fence = some c) :
      Event s (if s.dsq.state = .fenced then beginRecalibrate (clearedFence c s) else clearedFence c s)
  | bypassed (s : State) : Event s (bypassOn s)
  | reattached {s : State} (h : s.dsq.bypass = true) : Event s (reattachDrive s)
  | reset (s : State) : Event s (resetBlocks s)
  | powerOn (s : State) : Event s (powerOn s)

/-- A sequence of events. -/
def Events : State → State → Prop :=
  Relation.ReflTransGen Event

theorem Events.refl (s : State) : Events s s :=
  Relation.ReflTransGen.refl

theorem Event.events (h : Event s t) : Events s t :=
  Relation.ReflTransGen.single h

theorem Events.trans (h : Events s t) (k : Events t u) : Events s u :=
  Relation.ReflTransGen.trans h k

theorem Events.ite {p : Prop} [Decidable p] (h : Events s t) (k : Events s u) : Events s (if p then t else u) := by
  split <;> assumption

/-- What every event keeps, every sequence of events keeps. -/
theorem Events.keeps {P : State → Prop} (h : Events s t) (event : ∀ {u v}, P u → Event u v → P v) (k : P s) : P t := by
  induction h with
  | refl => exact k
  | tail _ e ih => exact event ih e

/-! ### The ends of events, and requests -/

theorem outer_events {bs : List Block} (h : ChangesOnly bs s t) (sub : bs ⊆ outerBlocks) : Events s t :=
  (Event.outer (h.mono sub)).events

theorem arbitrate_events : Events s (arbitrate s) :=
  (Event.arbitrate s).events

theorem afterEvent_events : Events s (afterEvent s) :=
  (outer_events (followReady_changes.trans testHold_changes) (by decide)).trans arbitrate_events

theorem afterJobs_events : Events s (afterJobs s) :=
  (outer_events testHold_changes (by decide)).trans arbitrate_events

theorem answer_events (r : ResultCode) (code : Byte) (p : List Byte) : Events s (answer r code p s) :=
  outer_events (answer_changes _ _ _) (by decide)

theorem refuse_events (r : ResultCode) (code : Byte) : Events s (refuse r code s) :=
  answer_events _ _ _

theorem takeRequest_events {code : Byte} {act : List Byte → State → State} (h : ∀ p, Events s (act p s)) :
    Events s (takeRequest code act s) :=
  takeRequest_keeps (P := Events s) (.refl s) (refuse_events _ _) h

/-! ### The drive's events -/

theorem fence_events (cause : FenceCause) (before : State) (h : s.dsq.state ≠ .detached) :
    Events s (afterEvent (raiseFence cause before s)) :=
  (Event.fence cause before h).events.trans afterEvent_events

theorem watchSelect_events : Events s (watchSelect s) := by
  rcases watchSelect_cases s with ⟨-, e⟩ | ⟨seen, e⟩ <;> rw [e]
  · exact .refl _
  · obtain ⟨_, -, attached, -⟩ := contentionNow_iff.mp seen
    exact fence_events _ _ attached

theorem seekFault_events (h : s.dsq.state = .seeking ∨ s.dsq.state = .settling ∨ s.dsq.state = .reading ∨
    s.rdc.pass.isSome) : Events s (afterEvent (seekFault s)) :=
  (Event.seekFault h).events.trans afterEvent_events

/-- The monitor moves, and the sequencer follows. -/
theorem spindle_events (h : ChangesOnly [.ixm, .rct, .evq] s u) : Events s (followSpindle (spindleOf s.ixm) u) :=
  (Event.spindle h).events

theorem followSpindle_same (h : spindleOf s.ixm = spindleOf u.ixm) : followSpindle (spindleOf s.ixm) u = u :=
  if_pos h.symm

theorem qualifiedIndex_events (s : State) : Events s (qualifiedIndex s) := by
  have followed := spindle_events (indexMonitored_changes s)
  exact .trans (.ite (followed.trans (Event.mark _ _).events) followed) afterEvent_events

/-- Time that passes turns no spindle. -/
theorem passTime_events (s : State) : Events s (passTime s) := by
  have moved : ChangesOnly [.ixm, .rct, .evq] (s.updClock advanceClock) (passTime s) := (updIxm_changes _).mono (by decide)
  have turned := spindle_events moved
  rw [followSpindle_same (by rfl)] at turned
  exact (outer_events (updClock_changes _) (by decide)).trans turned

theorem takeHeader_events {p : PassContext} (pass : s.rdc.pass = some p) (mark : Timer) (h : HeaderRead) :
    Events s (takeHeader p mark h s) :=
  .ite (.refl _) (.ite (.ite (Event.tally _ _ _).events (.refl _))
    (.ite (seekFault_events (.inr (.inr (.inr (by simp [pass]))))) (.ite (Event.channel _ rfl).events (.refl _))))

theorem deliverCopy_events (c : SealedCopy) : Events s (deliverCopy c s) := by
  have counted : Events s (tallyPass c.addr.track c.addr.sector Tally.countCopy
      (s.updRdc fun r => { r with lastDeviation := c.deviation, assembly := none })) :=
    (Event.channel _ rfl).events.trans (Event.tally _ _ _).events
  exact .trans (.ite (counted.trans (Event.goodCopy _ _).events) (counted.trans (Event.badCopy _ _).events))
    (outer_events testHold_changes (by decide))

theorem selectHead_changes (h : Nat) : ChangesOnly [.mcp] s (selectHead h s) := by
  have moved : ChangesOnly [.mcp] s (setTrack ⟨s.mcp.track.cyl, h⟩ s) := setTrack_changes _
  exact .ite (moved.trans (updMcp_changes _))
    (.ite (.ite moved (moved.trans beginHold_changes)) (moved.trans testHold_changes))

/-! ### The requests' events -/

theorem takeMarkExported_events (p : List Byte) : Events s (takeMarkExported p s) :=
  .ite (((outer_events (updEntry_changes _ _) (by decide)).trans (Event.exported _ _).events).trans arbitrate_events
    |>.trans (answer_events _ _ _)) (refuse_events _ _)

theorem takeReadSector_events (p : List Byte) : Events s (takeReadSector p s) := by
  unfold takeReadSector
  refine .ite ?_ (refuse_events _ _)
  split
  · exact (Event.refresh _ _).events.trans (answer_events _ _ _)
  · exact refuse_events _ _

theorem takeQueueTrack_events (p : List Byte) : Events s (takeQueueTrack p s) := by
  unfold takeQueueTrack
  refine .ite ?_ (refuse_events _ _)
  split
  · exact .ite (answer_events _ _ _) (.ite (refuse_events _ _)
      (((Event.merged _ _).events.trans (outer_events (updEntry_changes _ _) (by decide))).trans afterJobs_events
        |>.trans (answer_events _ _ _)))
  · rename_i job
    refine .ite (refuse_events _ _) ?_
    split
    · rename_i f frame
      unfold queueKept
      refine .ite (refuse_events _ _) ?_
      split
      · exact (outer_events (offer_changes _ _ _) (by decide)).trans (answer_events _ _ _)
      · rename_i failed
        exact ((Event.keptJob _ job frame (by simpa using failed)).events.trans afterJobs_events).trans
          (answer_events _ _ _)
    · rename_i frame
      exact ((Event.framelessJob _ job frame).events.trans afterJobs_events).trans (answer_events _ _ _)

theorem takeRetryTrack_events (p : List Byte) : Events s (takeRetryTrack p s) := by
  unfold takeRetryTrack
  refine .ite ?_ (refuse_events _ _)
  split
  · rename_i e f _ frame
    split
    · rename_i allowed
      have allowed : (e.state = .incomplete ∧ jobOf (trackOf p) s = none) ∧ sectorsWhere SectorRec.isFailed f ≠ [] := by
        simpa [retryAllowed, frame] using allowed
      obtain ⟨⟨-, job⟩, failed⟩ := allowed
      exact .ite (refuse_events _ _)
        (((Event.keptJob _ job frame failed).events.trans afterJobs_events).trans (answer_events _ _ _))
    · exact refuse_events _ _
  · exact refuse_events _ _
  · exact refuse_events _ _

theorem takeCancelJob_events (p : List Byte) : Events s (takeCancelJob p s) := by
  unfold takeCancelJob
  refine .ite ?_ (refuse_events _ _)
  split
  · rename_i j job
    rw [← jobOf_track job] at job
    exact ((Event.cancelled _ job).events.trans afterJobs_events).trans (answer_events _ _ _)
  · exact refuse_events _ _

theorem takeSetGeometry_events (p : List Byte) : Events s (takeSetGeometry p s) := by
  have port (v : State) : Events v (portNewGeometry v) := by
    refine outer_events (bs := [.mcp]) ?_ (by decide)
    unfold portNewGeometry
    split
    · exact updMcp_changes _
    · exact updMcp_changes _
    · exact (updMcp_changes _).trans beginHold_changes
  refine .ite (.ite ?_ (refuse_events _ _)) (refuse_events _ _)
  refine .trans ?_ (answer_events _ _ _)
  refine .trans ?_ arbitrate_events
  refine .trans ?_ (port _)
  exact (outer_events (updGeom_changes _) (by decide)).trans (Event.geometry _ _).events

theorem takeSetRotation_events (p : List Byte) : Events s (takeSetRotation p s) :=
  .ite (((spindle_events ((updIxm_changes _).mono (by decide))).trans afterEvent_events).trans (answer_events _ _ _))
    (refuse_events _ _)

theorem takeSetPort_events (p : List Byte) : Events s (takeSetPort p s) := by
  refine .trans (.trans ?_ arbitrate_events) (answer_events _ _ _)
  have mode : ChangesOnly outerBlocks s ((s.updEvq (setAttentionMode s.mcp.attnPulse (flagAt p 3))).updMcp fun m =>
      { m with holdLimit := holdLimitOf p, attnPulse := flagAt p 3 }) :=
    ((updEvq_changes _).mono (by decide)).andThen (updMcp_changes _) (by decide)
  exact (Event.outer mode).events.trans (Event.exportHold _ _).events

theorem takeClearFence_events : Events s (takeClearFence s) := by
  unfold takeClearFence
  refine .ite (refuse_events _ _) ?_
  split
  · rename_i c fence
    refine .trans ?_ (answer_events _ _ _)
    have cleared := (Event.fenceCleared fence).events
    unfold clearFence
    dsimp only
    split at cleared
    · rw [if_pos ‹_›]
      exact (cleared.trans afterEvent_events).trans watchSelect_events
    · rw [if_neg ‹_›]
      exact cleared
  · exact answer_events _ _ _

theorem takeRestDrive_events (p : List Byte) : Events s (takeRestDrive p s) := by
  unfold takeRestDrive
  split
  · exact refuse_events _ _
  · rename_i free
    obtain ⟨fenced, detached⟩ := not_or.mp free
    have rests (n : Nat) : Events s (begunRest n s) := (Event.rests n fenced detached).events
    exact (Events.ite ((rests _).trans (Event.restEnds rfl).events) (rests _)).trans afterEvent_events
      |>.trans (answer_events _ _ _)

theorem takeBypassOn_events : Events s (takeBypassOn s) :=
  .trans (.ite (.refl _) (Event.bypassed _).events) (answer_events _ _ _)

theorem takeBypassOff_events : Events s (takeBypassOff s) := by
  refine .trans ?_ (answer_events _ _ _)
  split
  · have port (v : State) : Events v (reattachPort v) :=
      outer_events (bs := [.mcp]) (.ite ((updMcp_changes _).trans beginHold_changes) (updMcp_changes _)) (by decide)
    exact ((Event.reattached ‹_›).events.trans (port _)).trans arbitrate_events
  · exact .refl _

/-! ### Every command and every step -/

theorem CompletesWithin.events {bs : List Block} {c : Instr} (h : CompletesWithin bs c s) (sub : bs ⊆ outerBlocks) :
    ∃ t, exec c s = .next t ∧ Events s t :=
  h.imp fun _ k => ⟨k.1, outer_events k.2 sub⟩

/-- Every command answers a state that a sequence of events reaches. -/
theorem exec_events (c : Instr) (s : State) : ∃ t, exec c s = .next t ∧ Events s t := by
  cases c with
  | powerOnReset =>
    have start := (Event.powerOn s).events
    have fenced (cause : FenceCause) := start.trans (Event.fence cause (powerOn s)
      (show DsqState.offline ≠ .detached by decide)).events
    exact ⟨_, rfl, .ite (fenced _) (.ite (fenced _) start)⟩
  | indexQualified n => exact ⟨_, rfl, .ite (qualifiedIndex_events s) (.refl _)⟩
  | startupWindowExpiry =>
    exact ⟨_, rfl, .ite ((spindle_events (badEvent_changes _)).trans afterEvent_events) (.refl _)⟩
  | closedWindowExpiry =>
    refine ⟨_, rfl, ?_⟩
    split
    · rename_i due
      obtain ⟨window, -⟩ := (windowDue_iff .closed s).mp due
      have turned := spindle_events (u := s.updIxm enterOpen) ((updIxm_changes _).mono (by decide))
      rwa [followSpindle_same (u := s.updIxm enterOpen) ((spindleOf_turning (.inl window)).trans
        (spindleOf_turning (x := enterOpen s.ixm) (.inr (.inl rfl))).symm)] at turned
    · exact .refl _
  | openWindowExpiry =>
    exact ⟨_, rfl, .ite (((spindle_events (badEvent_changes _)).trans (Event.lateExpiry _).events).trans
      afterEvent_events) (.refl _)⟩
  | resyncLimitExpiry =>
    refine ⟨_, rfl, .ite ((spindle_events ?_).trans afterEvent_events) (.refl _)⟩
    exact .andThen ((updIxm_changes _).mono (by decide)) (offer_changes _ _ _) (by decide)
  | seekComplete current =>
    refine ⟨_, rfl, .ite ?_ (.refl _)⟩
    split
    · exact (Event.seekEnds ‹_›).events.trans afterEvent_events
    · exact (Event.recalibrateEnds ‹_›).events.trans afterEvent_events
    · exact .refl _
  | seekError =>
    refine ⟨_, rfl, ?_⟩
    split
    · exact seekFault_events (.inl ‹_›)
    · exact seekFault_events (.inr (.inl ‹_›))
    · exact seekFault_events (.inr (.inr (.inl ‹_›)))
    · exact .refl _
  | seekTimeoutExpiry =>
    refine ⟨_, rfl, ?_⟩
    split
    · exact seekFault_events (.inl ((operationDue_iff _ s).mp ‹_›).1)
    · exact .refl _
  | recalibrateTimeoutExpiry =>
    refine ⟨_, rfl, ?_⟩
    split
    · exact fence_events _ _ (by rw [((operationDue_iff _ s).mp ‹_›).1]; decide)
    · exact .refl _
  | settleWaitEnd =>
    refine ⟨_, rfl, ?_⟩
    split
    · exact (Event.settleEnds ((operationDue_iff _ s).mp ‹_›).1).events.trans afterEvent_events
    · exact .refl _
  | restEnd =>
    refine ⟨_, rfl, ?_⟩
    split
    · exact (Event.restEnds ((operationDue_iff _ s).mp ‹_›).1).events.trans afterEvent_events
    · exact .refl _
  | quietExpiry => exact ⟨_, rfl, .ite (Event.quietEnds s).events (.refl _)⟩
  | driveFaultAsserted line =>
    refine ⟨_, rfl, ?_⟩
    dsimp only
    have taken : Events s (s.updPins fun p => { p with driveFault := line }) :=
      outer_events (updPins_changes _) (by decide)
    split
    · rename_i raised
      obtain ⟨-, attached⟩ : line = true ∧ s.dsq.state ≠ .detached := by simpa using raised
      exact taken.trans (fence_events _ _ attached)
    · exact taken
  | contentionSeen held =>
    exact ⟨_, rfl, (outer_events (updPins_changes _) (by decide)).trans watchSelect_events⟩
  | header mark cyl hd sector check outside =>
    refine ⟨_, rfl, ?_⟩
    split
    · exact takeHeader_events ‹_› _ _
    · exact .refl _
  | copySeal data check outside =>
    refine ⟨_, rfl, ?_⟩
    split
    · exact deliverCopy_events _
    · exact .refl _
  | batchCompletion =>
    refine ⟨_, rfl, ?_⟩
    split
    · exact (Event.batchEnds ‹_›).events.trans afterEvent_events
    · exact .refl _
  | cooldownExpiry cyl hd =>
    refine ⟨_, rfl, ?_⟩
    split
    · rename_i j job
      rw [← jobOf_track job] at job
      split
      · exact (Event.cooled job ((cooldownDue_iff j s).mp ‹_›).1).events.trans arbitrate_events
      · exact .refl _
    · exact .refl _
  | holdExpiry =>
    exact ⟨_, rfl, .ite ((outer_events (updMcp_changes _) (by decide)).trans arbitrate_events) (.refl _)⟩
  | seek cyl =>
    have moved (tr : Track) : Events s (beginHold (setTrack tr s)) :=
      outer_events ((setTrack_changes _).trans beginHold_changes) (by decide)
    exact ⟨_, rfl, .ite (.ite ((moved _).trans arbitrate_events) (outer_events (updMcp_changes _) (by decide))) (.refl _)⟩
  | head hd =>
    have selected : Events s (selectHead hd.toNat s) := outer_events (selectHead_changes _) (by decide)
    exact ⟨_, rfl, .ite (selected.trans arbitrate_events) (.refl _)⟩
  | recalibrate =>
    exact ⟨_, rfl, .ite ((outer_events ((setTrack_changes _).trans beginHold_changes) (by decide)).trans
      arbitrate_events) (.refl _)⟩
  | read =>
    refine ⟨_, rfl, .ite ?_ (.refl _)⟩
    have gated : Events s (s.updMcp fun m =>
        { m with gateTaken := true, activity := .reading (readAnswer (passingAddr s) s) }) :=
      outer_events (updMcp_changes _) (by decide)
    exact .ite (gated.trans (Event.refresh _ _).events) gated
  | markExported => exact ⟨_, rfl, takeRequest_events takeMarkExported_events⟩
  | readSector => exact ⟨_, rfl, takeRequest_events takeReadSector_events⟩
  | queueTrack => exact ⟨_, rfl, takeRequest_events takeQueueTrack_events⟩
  | retryTrack => exact ⟨_, rfl, takeRequest_events takeRetryTrack_events⟩
  | cancelJob => exact ⟨_, rfl, takeRequest_events takeCancelJob_events⟩
  | setGeometry => exact ⟨_, rfl, takeRequest_events takeSetGeometry_events⟩
  | setRotation => exact ⟨_, rfl, takeRequest_events takeSetRotation_events⟩
  | setRead => exact ⟨_, rfl, takeRequest_events fun _ => (Event.channel _ rfl).events.trans (answer_events _ _ _)⟩
  | setVote =>
    exact ⟨_, rfl, takeRequest_events fun _ => ((Event.vote _ rfl).events.trans
      (outer_events (updCps_changes _) (by decide))).trans (answer_events _ _ _)⟩
  | setLadderStep =>
    exact ⟨_, rfl, takeRequest_events fun _ => .ite ((Event.ladder _ rfl).events.trans (answer_events _ _ _))
      (refuse_events _ _)⟩
  | setLadderShape =>
    exact ⟨_, rfl, takeRequest_events fun _ => (Event.ladder _ rfl).events.trans (answer_events _ _ _)⟩
  | setDrive =>
    exact ⟨_, rfl, takeRequest_events fun p => ((Event.drive _ (driveSettingsOf_inRange p)).events.trans
      arbitrate_events).trans (answer_events _ _ _)⟩
  | setPort => exact ⟨_, rfl, takeRequest_events takeSetPort_events⟩
  | clearFence => exact ⟨_, rfl, takeRequest_events fun _ => takeClearFence_events⟩
  | restDrive => exact ⟨_, rfl, takeRequest_events takeRestDrive_events⟩
  | bypassOn => exact ⟨_, rfl, takeRequest_events fun _ => .ite takeBypassOn_events (.refl _)⟩
  | bypassOff => exact ⟨_, rfl, takeRequest_events fun _ => .ite (.refl _) takeBypassOff_events⟩
  | softReset =>
    exact ⟨_, rfl, takeRequest_events fun _ => ((Event.reset s).events.trans
      (outer_events (offer_changes _ _ _) (by decide))).trans (answer_events _ _ _)⟩
  | emulatedIndex => exact emulatedIndex_within.events (by decide)
  | sectorPulse => exact sectorPulse_within.events (by decide)
  | write => exact write_within.events (by decide)
  | writeDataComplete d => exact (writeDataComplete_within d).events (by decide)
  | faultClear => exact faultClear_within.events (by decide)
  | unitSelect active => exact (unitSelect_within active).events (by decide)
  | transferStart => exact transferStart_within.events (by decide)
  | requestCodeByte code => exact (requestCodeByte_within code).events (by decide)
  | frameComplete l p c => exact (frameComplete_within l p c).events (by decide)
  | selectRise => exact selectRise_within.events (by decide)
  | fetchFirstByte => exact fetchFirstByte_within.events (by decide)
  | responseReleased => exact responseReleased_within.events (by decide)
  | unknownRequest => exact unknownRequest_within.events (by decide)
  | frameError => exact frameError_within.events (by decide)
  | attentionPulseEnd => exact attentionPulseEnd_within.events (by decide)
  | attentionGapEnd => exact attentionGapEnd_within.events (by decide)
  | status => exact status_within.events (by decide)
  | getEvents => exact getEvents_within.events (by decide)
  | getSnapshot => exact getSnapshot_within.events (by decide)
  | getStats => exact getStats_within.events (by decide)
  | clearStats => exact clearStats_within.events (by decide)
  | listEntries => exact listEntries_within.events (by decide)
  | getEntry => exact getEntry_within.events (by decide)
  | listFrames => exact listFrames_within.events (by decide)
  | listJobs => exact listJobs_within.events (by decide)
  | listOverlay => exact listOverlay_within.events (by decide)
  | readOverlay => exact readOverlay_within.events (by decide)
  | dropOverlay => exact dropOverlay_within.events (by decide)
  | getSettings => exact getSettings_within.events (by decide)

/-- What taking a command off the queue keeps, and every event keeps, every step keeps. -/
theorem step_keeps_of_events {P : State → Prop}
    (dequeue : ∀ (s : State) (rest : List Instr), P s → P { s with pending := rest })
    (event : ∀ {s t : State}, P s → Event s t → P t) (h : P s) (e : step s = .next t) : P t := by
  refine step_keeps dequeue (fun c u v k run => ?_) (fun u k _ => (passTime_events u).keeps event k) h e
  obtain ⟨w, reached, events⟩ := exec_events c u
  cases run.symm.trans reached
  exact events.keeps event k

end Sys2Proof.Machine
end

section
/-! PROOF. The grant, the pass, the batch, the sequencer's state and the fence stay in keeping with one another
(R23, R29, R31, R37, R38, R42, R50, R72). -/

namespace Sys2Proof.Machine

variable {s t u : State} {g : Grant}

/-! ### What the two invariants read -/

/-- GrantKept but for what it says of the spindle: the part that stands while a change of the spindle is not yet
followed. -/
structure GrantFits (s : State) : Prop where
  pass : ∀ p, s.rdc.pass = some p →
    s.dsq.state = .reading ∧ ∃ g, s.dsq.grant = some g ∧ g.phase = .inPass ∧ g.track = p.track
  batch : ∀ b, s.vte.batch = some b → ∃ g, s.dsq.grant = some g ∧ g.phase = .voting ∧ g.track = b.track
  inPass : ∀ g, s.dsq.grant = some g → g.phase = .inPass → s.rdc.pass.isSome
  voting : ∀ g, s.dsq.grant = some g → g.phase = .voting → g.kind = .jobPass ∧ s.vte.batch.isSome
  withdrawn : ∀ g, s.dsq.grant = some g → s.dsq.state.withdrawn = true → g.phase = .voting
  still : ∀ g, s.dsq.grant = some g → g.phase = .voting →
    s.dsq.state ≠ .seeking ∧ s.dsq.state ≠ .settling ∧ s.dsq.state ≠ .reading
  busy : s.dsq.state = .reading ∨ s.dsq.state = .voting → s.dsq.grant.isSome

theorem grantKept_iff (s : State) :
    GrantKept s ↔ GrantFits s ∧ (spindleDown s.ixm = true → s.dsq.state.withdrawn = true) := by
  constructor
  · rintro ⟨pass, batch, grant, busy, down⟩
    exact ⟨⟨pass, batch, fun g k => (grant g k).1, fun g k => (grant g k).2.1, fun g k => (grant g k).2.2.1,
      fun g k => (grant g k).2.2.2, busy⟩, down⟩
  · rintro ⟨⟨pass, batch, inPass, voting, withdrawn, still, busy⟩, down⟩
    exact ⟨pass, batch, fun g k => ⟨inPass g k, voting g k, withdrawn g k, still g k⟩, busy, down⟩

/-- Both invariants of the drive, as a state keeps them. -/
structure DriveKept (s : State) : Prop where
  fits : GrantFits s
  down : spindleDown s.ixm = true → s.dsq.state.withdrawn = true
  fence : WithdrawalKept s

theorem driveKept_iff (s : State) : DriveKept s ↔ GrantKept s ∧ WithdrawalKept s := by
  rw [grantKept_iff]
  exact ⟨fun ⟨fits, down, fence⟩ => ⟨⟨fits, down⟩, fence⟩, fun ⟨⟨fits, down⟩, fence⟩ => ⟨fits, down, fence⟩⟩

theorem GrantFits.congr (h : GrantFits s) (grant : t.dsq.grant = s.dsq.grant) (state : t.dsq.state = s.dsq.state)
    (pass : t.rdc.pass = s.rdc.pass) (batch : t.vte.batch = s.vte.batch) : GrantFits t := by
  obtain ⟨pass', batch', inPass, voting, withdrawn, still, busy⟩ := h
  rw [← grant, ← state, ← pass] at pass'
  rw [← grant, ← batch] at batch'
  rw [← grant, ← pass] at inPass
  rw [← grant, ← batch] at voting
  rw [← grant, ← state] at withdrawn still busy
  exact ⟨pass', batch', inPass, voting, withdrawn, still, busy⟩

theorem WithdrawalKept.congr (h : WithdrawalKept s) (dsq : t.dsq = s.dsq) : WithdrawalKept t := by
  unfold WithdrawalKept
  rwa [dsq]

theorem DriveKept.congr (h : DriveKept s) (dsq : t.dsq = s.dsq) (pass : t.rdc.pass = s.rdc.pass)
    (batch : t.vte.batch = s.vte.batch) (down : spindleDown t.ixm = spindleDown s.ixm) : DriveKept t :=
  ⟨h.fits.congr (by rw [dsq]) (by rw [dsq]) pass batch, by rw [dsq, down]; exact h.down, h.fence.congr dsq⟩

/-- Changes beyond the four blocks that the invariants read. -/
theorem DriveKept.beyond {bs : List Block} (h : DriveKept s) (k : ChangesOnly bs s t) (dsq : .dsq ∉ bs := by decide)
    (rdc : .rdc ∉ bs := by decide) (vte : .vte ∉ bs := by decide) (ixm : .ixm ∉ bs := by decide) : DriveKept t :=
  h.congr (k.dsq dsq) (by rw [k.rdc rdc]) (by rw [k.vte vte]) (by rw [k.ixm ixm])

/-! ### What they say of a sequencer at work and of one that is not -/

/-- No pass is in flight, and no grant stands but one whose batch runs. -/
structure Abandoned (s : State) : Prop where
  pass : s.rdc.pass = none
  batch : ∀ b, s.vte.batch = some b → ∃ g, s.dsq.grant = some g ∧ g.phase = .voting ∧ g.track = b.track
  grant : ∀ g, s.dsq.grant = some g → g.phase = .voting ∧ g.kind = .jobPass ∧ s.vte.batch.isSome

theorem Abandoned.congr (h : Abandoned s) (grant : t.dsq.grant = s.dsq.grant) (pass : t.rdc.pass = s.rdc.pass)
    (batch : t.vte.batch = s.vte.batch) : Abandoned t := by
  obtain ⟨pass', batch', grant'⟩ := h
  refine ⟨pass.trans pass', ?_, ?_⟩
  · rwa [batch, grant]
  · rwa [batch, grant]

/-- Without a grant, a pass and a batch nothing is left of the work. -/
theorem Abandoned.free (grant : s.dsq.grant = none) (pass : s.rdc.pass = none) (batch : s.vte.batch = none) :
    Abandoned s :=
  ⟨pass, by simp [batch], by simp [grant]⟩

/-- In the states without work of the drive, and in an operation that no grant waits for. -/
theorem Abandoned.fits (h : Abandoned s) (reading : s.dsq.state ≠ .reading) (voting : s.dsq.state ≠ .voting)
    (moving : s.dsq.grant = none ∨ s.dsq.state ≠ .seeking ∧ s.dsq.state ≠ .settling) : GrantFits s where
  pass p k := by rw [h.pass] at k; cases k
  batch := h.batch
  inPass g k phase := by rw [(h.grant g k).1] at phase; cases phase
  voting g k _ := (h.grant g k).2
  withdrawn g k _ := (h.grant g k).1
  still g k _ := by
    rcases moving with free | ⟨seeking, settling⟩
    · rw [free] at k; cases k
    · exact ⟨seeking, settling, reading⟩
  busy k := k.elim (absurd · reading) (absurd · voting)

/-- A withdrawn state stands whatever the spindle does. -/
theorem Abandoned.fits_withdrawn (h : Abandoned s) (withdrawn : s.dsq.state.withdrawn = true)
    (voting : s.dsq.state ≠ .voting) : GrantFits s := by
  refine h.fits ?_ voting (.inr ⟨?_, ?_⟩)
  all_goals
    intro k
    rw [k] at withdrawn
    cases withdrawn

theorem GrantFits.abandoned_of_withdrawn (h : GrantFits s) (withdrawn : s.dsq.state.withdrawn = true) : Abandoned s where
  pass := by
    cases pass : s.rdc.pass with
    | none => rfl
    | some p =>
      rw [(h.pass p pass).1] at withdrawn
      cases withdrawn
  batch := h.batch
  grant g k := ⟨h.withdrawn g k withdrawn, h.voting g k (h.withdrawn g k withdrawn)⟩

/-- No batch runs beside a grant that is not voting. -/
theorem GrantFits.no_batch (h : GrantFits s) (grant : s.dsq.grant = some g) (phase : g.phase ≠ .voting) :
    s.vte.batch = none := by
  cases batch : s.vte.batch with
  | none => rfl
  | some b =>
    obtain ⟨g', grant', phase', -⟩ := h.batch b batch
    cases grant.symm.trans grant'
    exact absurd phase' phase

theorem GrantFits.no_batch_of_free (h : GrantFits s) (grant : s.dsq.grant = none) : s.vte.batch = none := by
  cases batch : s.vte.batch with
  | none => rfl
  | some b =>
    obtain ⟨g', grant', -⟩ := h.batch b batch
    cases grant.symm.trans grant'

theorem GrantFits.no_pass_of_free (h : GrantFits s) (grant : s.dsq.grant = none) : s.rdc.pass = none := by
  cases pass : s.rdc.pass with
  | none => rfl
  | some p =>
    obtain ⟨-, g', grant', -⟩ := h.pass p pass
    cases grant.symm.trans grant'

theorem GrantFits.no_pass (h : GrantFits s) (grant : s.dsq.grant = some g) (phase : g.phase ≠ .inPass) :
    s.rdc.pass = none := by
  cases pass : s.rdc.pass with
  | none => rfl
  | some p =>
    obtain ⟨-, g', grant', phase', -⟩ := h.pass p pass
    cases grant.symm.trans grant'
    exact absurd phase' phase

/-- In an operation no pass has begun. -/
theorem GrantFits.approach_of_moving (h : GrantFits s) (moving : s.dsq.state = .seeking ∨ s.dsq.state = .settling)
    (grant : s.dsq.grant = some g) : g.phase = .approach := by
  cases phase : g.phase with
  | approach => rfl
  | inPass =>
    obtain ⟨p, pass⟩ := Option.isSome_iff_exists.mp (h.inPass g grant phase)
    have reading := (h.pass p pass).1
    rw [reading] at moving
    rcases moving with k | k <;> cases k
  | voting =>
    obtain ⟨seeking, settling, -⟩ := h.still g grant phase
    exact moving.elim (absurd · seeking) (absurd · settling)

theorem GrantFits.free_of_idle (h : GrantFits s) (idle : s.dsq.state = .idle) (batch : s.vte.batch = none) :
    s.dsq.grant = none := by
  cases grant : s.dsq.grant with
  | none => rfl
  | some g =>
    have voting := h.withdrawn g grant (by rw [idle]; rfl)
    have := (h.voting g grant voting).2
    rw [batch] at this
    cases this

/-- A grant is brought to its track. -/
theorem GrantFits.of_approach (pass : s.rdc.pass = none) (batch : s.vte.batch = none) (grant : s.dsq.grant = some g)
    (phase : g.phase = .approach) (work : s.dsq.state.withdrawn = false) : GrantFits s where
  pass p k := by rw [pass] at k; cases k
  batch b k := by rw [batch] at k; cases k
  inPass g' k phase' := by cases grant.symm.trans k; rw [phase] at phase'; cases phase'
  voting g' k phase' := by cases grant.symm.trans k; rw [phase] at phase'; cases phase'
  withdrawn g' _ k := by rw [work] at k; cases k
  still g' k phase' := by cases grant.symm.trans k; rw [phase] at phase'; cases phase'
  busy _ := by rw [grant]; rfl

/-- The drive's work is abandoned whatever it is (R23, R24, R31 to R33, R38, R40, R42). -/
theorem GrantFits.abandonWork (h : GrantFits s) : Abandoned (abandonWork s) := by
  have vte : (Machine.abandonWork s).vte = s.vte := abandonWork_changes.vte
  have left := abandonWork_grant s
  cases grant : s.dsq.grant with
  | none =>
    rw [grant] at left
    refine .free left ?_ (vte ▸ h.no_batch_of_free grant)
    rw [abandonWork_of_no_grant grant]
    exact h.no_pass_of_free grant
  | some g =>
    cases phase : g.phase with
    | approach =>
      have other : g.phase ≠ .voting := by rw [phase]; decide
      refine .free (left.trans (by simp [grant, Option.filter, phase])) ?_ (by rw [vte]; exact h.no_batch grant other)
      rw [abandonWork_of_approach grant phase]
      show (endUnpassed g s).rdc.pass = none
      rw [endUnpassed_rdc]
      exact h.no_pass grant (by rw [phase]; decide)
    | inPass =>
      have other : g.phase ≠ .voting := by rw [phase]; decide
      refine .free (left.trans (by simp [grant, Option.filter, phase])) ?_ (by rw [vte]; exact h.no_batch grant other)
      rw [abandonWork_of_inPass grant phase]
      show (abortPass g s).rdc.pass = none
      rw [abortPass_rdc]
    | voting =>
      rw [abandonWork_of_voting grant phase]
      refine ⟨h.no_pass grant (by rw [phase]; decide), h.batch, fun g' k => ?_⟩
      cases grant.symm.trans k
      exact ⟨phase, h.voting g grant phase⟩

/-! ### What they say of the fence -/

/-- The sequencer is neither FENCED nor DETACHED. -/
def DsqState.attached : DsqState → Bool
  | .fenced | .detached => false
  | _ => true

/-- What WithdrawalKept reads beside the sequencer's state stands. -/
structure SameWithdrawal (d d' : Dsq) : Prop where
  fence : d'.fence = d.fence
  bypass : d'.bypass = d.bypass
  faults : d'.faults = d.faults
  set : d'.set = d.set
  quiet : d'.quiet = d.quiet

theorem WithdrawalKept.of_same (h : WithdrawalKept s) (same : SameWithdrawal s.dsq t.dsq)
    (state : t.dsq.state = s.dsq.state) : WithdrawalKept t := by
  unfold WithdrawalKept
  rw [same.fence, same.bypass, same.faults, same.set, same.quiet, state]
  exact h

theorem WithdrawalKept.no_fence (h : WithdrawalKept s) (attached : s.dsq.state.attached = true) : s.dsq.fence = none := by
  obtain ⟨fenced, -⟩ := h
  cases fence : s.dsq.fence with
  | none => rfl
  | some x =>
    rcases fenced (by rw [fence]; rfl) with k | k <;> rw [k] at attached <;> cases attached

theorem WithdrawalKept.not_bypassed (h : WithdrawalKept s) (attached : s.dsq.state ≠ .detached) :
    s.dsq.bypass = false := by
  obtain ⟨-, -, bypass, -⟩ := h
  cases k : s.dsq.bypass with
  | false => rfl
  | true => exact absurd (bypass.mp k) attached

/-- Without a fence and out of bypass the sequencer stands in any of the other states. -/
theorem WithdrawalKept.of_attached (h : WithdrawalKept s) (same : SameWithdrawal s.dsq t.dsq)
    (before : s.dsq.state.attached = true) (after : t.dsq.state.attached = true) : WithdrawalKept t := by
  have fence := h.no_fence before
  have bypass := h.not_bypassed fun k => by rw [k] at before; cases before
  obtain ⟨-, -, -, most, below, least, limit, quiet⟩ := h
  unfold WithdrawalKept
  rw [same.fence, same.bypass, same.faults, same.set, same.quiet, fence, bypass]
  refine ⟨nofun, fun k => ?_, ⟨nofun, fun k => ?_⟩, most, fun _ => below fence, least, limit, quiet⟩ <;>
    rw [k] at after <;> cases after

theorem abandonWork_same (s : State) :
    SameWithdrawal s.dsq (abandonWork s).dsq ∧ (abandonWork s).dsq.state = s.dsq.state := by
  rw [abandonWork_dsq]
  exact ⟨⟨rfl, rfl, rfl, rfl, rfl⟩, rfl⟩

/-! ### Recalibrates, settle waits and grants taken up (R27, R28, R34) -/

theorem beginRecalibrate_same (s : State) : SameWithdrawal s.dsq (beginRecalibrate s).dsq := by
  rw [beginRecalibrate_dsq]
  exact ⟨rfl, rfl, rfl, rfl, rfl⟩

theorem beginRecalibrate_state (s : State) :
    (beginRecalibrate s).dsq.state = if spindleDown s.ixm then .offline else .recalibrating := by
  rw [beginRecalibrate_dsq]

theorem beginRecalibrate_attached (s : State) : (beginRecalibrate s).dsq.state.attached = true := by
  rw [beginRecalibrate_state]
  split <;> rfl

/-- A recalibrate begun without work, or OFFLINE in its place. -/
theorem Abandoned.beginRecalibrate (h : Abandoned s) :
    GrantFits (beginRecalibrate s) ∧
      (spindleDown (beginRecalibrate s).ixm = true → (beginRecalibrate s).dsq.state.withdrawn = true) := by
  have kept : Abandoned (Machine.beginRecalibrate s) := h.congr (by rw [beginRecalibrate_dsq])
    (by rw [beginRecalibrate_changes.rdc]) (by rw [beginRecalibrate_changes.vte])
  have state := beginRecalibrate_state s
  rw [beginRecalibrate_changes.ixm, state]
  refine ⟨kept.fits ?_ ?_ (.inr ⟨?_, ?_⟩), fun down => by rw [if_pos down]; rfl⟩ <;>
    rw [state] <;> split <;> decide

/-- A grant taken up under a RUNNING spindle is at work, with the rest of the sequencer's records as they stood. -/
theorem takeUpGrant_running (grant : s.dsq.grant = some g) (running : spindleOf s.ixm = .running) :
    SameWithdrawal s.dsq (takeUpGrant g s).dsq ∧ (takeUpGrant g s).dsq.grant = some g ∧
      (takeUpGrant g s).dsq.state.withdrawn = false ∧ (takeUpGrant g s).dsq.state.attached = true := by
  have up : spindleDown s.ixm = false := by rw [spindleDown, running]
  cases position : s.dsq.position with
  | none =>
    rw [takeUpGrant_of_unknown position, beginRecalibrate_of_up up]
    exact ⟨⟨rfl, rfl, rfl, rfl, rfl⟩, grant, rfl, rfl⟩
  | some p =>
    rw [takeUpGrant_of_known position, beginSettle_steady grant (by rw [running]; decide)]
    split
    · exact ⟨⟨rfl, rfl, rfl, rfl, rfl⟩, grant, rfl, rfl⟩
    · split
      · refine ⟨⟨rfl, rfl, rfl, rfl, rfl⟩, grant, ?_, ?_⟩ <;>
          simp only [State.updDsq_dsq] <;> split <;> rfl
      · exact ⟨⟨rfl, rfl, rfl, rfl, rfl⟩, grant, rfl, rfl⟩

theorem running_of_up {x : Ixm} (up : spindleDown x = false) (steady : spindleOf x ≠ .unstable) :
    spindleOf x = .running := by
  unfold spindleDown at up
  cases k : spindleOf x <;> simp_all

/-- A grant that waits is taken up. -/
theorem DriveKept.takeUpGrant (h : WithdrawalKept s) (attached : s.dsq.state.attached = true) (pass : s.rdc.pass = none)
    (batch : s.vte.batch = none) (grant : s.dsq.grant = some g) (phase : g.phase = .approach)
    (running : spindleOf s.ixm = .running) : DriveKept (takeUpGrant g s) := by
  obtain ⟨same, grant', work, after⟩ := takeUpGrant_running grant running
  have only := takeUpGrant_steady_changes grant (by rw [running]; decide)
  refine ⟨.of_approach (by rw [only.rdc]; exact pass) (by rw [only.vte]; exact batch) grant' phase work, fun down => ?_,
    h.of_attached same attached after⟩
  rw [only.ixm, spindleDown, running] at down
  cases down

/-- The sequencer enters the state it rests in, nothing being left of the work. -/
theorem DriveKept.enterIdle (h : WithdrawalKept s) (attached : s.dsq.state.attached = true) (work : Abandoned s) :
    DriveKept (enterIdle s) := by
  have rest := restState_cases s.ixm
  have left : Abandoned (Machine.enterIdle s) := work.congr rfl rfl rfl
  refine ⟨left.fits_withdrawn ?_ ?_, fun _ => ?_, h.of_attached ⟨rfl, rfl, rfl, rfl, rfl⟩ attached ?_⟩
  all_goals
    rw [enterIdle_dsq]
    dsimp only
    rcases rest with k | k <;> rw [k] <;> decide

/-! ### Counted passes, ended grants and batches (R30 to R33) -/

theorem DriveKept.countPass (h : DriveKept s) (attached : s.dsq.state.attached = true) (grant : s.dsq.grant = some g)
    (phase : g.phase ≠ .voting) : DriveKept (countPass g s) := by
  obtain ⟨rdc, ⟨dsq, vte⟩ | ⟨kind, dsq, b, batch, track⟩⟩ := countPass_cases g s
  · have work : Abandoned (Machine.countPass g s) := by
      refine .free (by rw [dsq]) (by rw [rdc]) ?_
      rcases vte with same | ended
      · rw [same]; exact h.fits.no_batch grant phase
      · exact ended
    have rest := restState_cases s.ixm
    refine ⟨work.fits_withdrawn ?_ ?_, fun _ => ?_, h.fence.of_attached ?_ attached ?_⟩
    case refine_4 => rw [dsq]; exact ⟨rfl, rfl, rfl, rfl, rfl⟩
    all_goals
      rw [dsq]
      dsimp only
      rcases rest with k | k <;> rw [k] <;> decide
  · refine ⟨⟨?_, ?_, ?_, ?_, ?_, ?_, ?_⟩, fun _ => by rw [dsq]; rfl, h.fence.of_attached ?_ attached (by rw [dsq]; rfl)⟩
    · rw [rdc]; nofun
    · intro b' k
      cases batch.symm.trans k
      rw [dsq]
      exact ⟨_, rfl, rfl, track.symm⟩
    · rw [dsq]; rintro _ ⟨⟩ ⟨⟩
    · rw [dsq, batch]; rintro _ ⟨⟩ _; exact ⟨kind, rfl⟩
    · rw [dsq]; rintro _ ⟨⟩ _; rfl
    · rw [dsq]
      rintro _ ⟨⟩ _
      show DsqState.voting ≠ .seeking ∧ DsqState.voting ≠ .settling ∧ DsqState.voting ≠ .reading
      decide
    · rw [dsq]; exact fun _ => rfl
    · rw [dsq]; exact ⟨rfl, rfl, rfl, rfl, rfl⟩

/-- A grant whose pass has not begun ends. -/
theorem GrantFits.endUnpassed (h : GrantFits s) (grant : s.dsq.grant = some g) (phase : g.phase = .approach) :
    Abandoned (endUnpassed g s) := by
  refine .free (by rw [endUnpassed_dsq]) ?_ ?_
  · rw [endUnpassed_rdc]; exact h.no_pass grant (by rw [phase]; decide)
  · rw [(endUnpassed_changes g).vte]; exact h.no_batch grant (by rw [phase]; decide)

theorem endUnpassed_same (g : Grant) (s : State) :
    SameWithdrawal s.dsq (endUnpassed g s).dsq ∧ (endUnpassed g s).dsq.state = s.dsq.state := by
  rw [endUnpassed_dsq]
  exact ⟨⟨rfl, rfl, rfl, rfl, rfl⟩, rfl⟩

/-- The grant ends without a pass, and the sequencer enters the state it rests in (R24, R33). -/
theorem DriveKept.endUnpassed (h : DriveKept s) (attached : s.dsq.state.attached = true) (grant : s.dsq.grant = some g)
    (phase : g.phase = .approach) : DriveKept (Machine.enterIdle (endUnpassed g s)) := by
  obtain ⟨same, state⟩ := endUnpassed_same g s
  exact .enterIdle (h.fence.of_same same state) (by rw [state]; exact attached) (h.fits.endUnpassed grant phase)

theorem DriveKept.completeBatch {b : Batch} (h : DriveKept s) (batch : s.vte.batch = some b) :
    DriveKept (completeBatch b s) := by
  obtain ⟨g, grant, phase, -⟩ := h.fits.batch b batch
  obtain ⟨seeking, settling, reading⟩ := h.fits.still g grant phase
  have dsq := completeBatch_dsq b s
  have work : Abandoned (Machine.completeBatch b s) := by
    refine .free (by rw [dsq]) ?_ (by rw [completeBatch_vte])
    rw [(completeBatch_changes b).rdc]
    exact h.fits.no_pass grant (by rw [phase]; decide)
  have same : SameWithdrawal s.dsq (Machine.completeBatch b s).dsq := by rw [dsq]; exact ⟨rfl, rfl, rfl, rfl, rfl⟩
  have ixm := (completeBatch_changes (s := s) b).ixm
  by_cases voting : s.dsq.state = .voting
  · have rest := restState_cases s.ixm
    refine ⟨work.fits_withdrawn ?_ ?_, fun _ => ?_, h.fence.of_attached same (by rw [voting]; rfl) ?_⟩
    all_goals
      rw [dsq, voting]
      dsimp only [if_true]
      rcases rest with k | k <;> rw [k] <;> decide
  · have state : (Machine.completeBatch b s).dsq.state = s.dsq.state := by rw [dsq]; exact if_neg voting
    refine ⟨work.fits ?_ ?_ (.inl (by rw [dsq])), fun down => ?_, h.fence.of_same same state⟩
    · rwa [state]
    · rwa [state]
    · rw [state]; exact h.down (ixm ▸ down)

/-! ### Fences and seek faults (R35 to R38) -/

theorem raiseFence_of_fenced {cause : FenceCause} {before : State} (h : s.dsq.fence.isSome) :
    raiseFence cause before s = s :=
  if_pos h

/-- The state after a fence is raised, before its event is offered (R38). -/
def fencedBy (cause : FenceCause) (s : State) : State :=
  (abandonWork s).updDsq fun d => { d with fence := some cause, position := none, state := .fenced }

theorem raiseFence_of_free {cause : FenceCause} {before : State} (h : s.dsq.fence = none) :
    raiseFence cause before s = offerLatching .driveFenced (causeByte cause)
      { snapshotOf (.fence cause) (lastKnown before.dsq) before with faults := s.dsq.faults } (fencedBy cause s) :=
  if_neg (by simp [h])

theorem fencedBy_dsq (cause : FenceCause) (s : State) : (fencedBy cause s).dsq = { s.dsq with
    grant := (abandonWork s).dsq.grant, seekTarget := none, expiry := none, fence := some cause, position := none
    state := .fenced } := by
  show { (abandonWork s).dsq with fence := some cause, position := none, state := .fenced } = _
  rw [abandonWork_dsq]

/-- A fence is raised wherever the relay is open. -/
theorem GrantFits.raiseFence (h : GrantFits s) (cause : FenceCause) (before : State) (fence : s.dsq.fence = none)
    (bypass : s.dsq.bypass = false) (faults : s.dsq.faults ≤ 15)
    (limit : 1 ≤ s.dsq.set.fenceLimit ∧ s.dsq.set.fenceLimit ≤ 15) (quiet : s.dsq.quiet.isSome ↔ 0 < s.dsq.faults) :
    DriveKept (raiseFence cause before s) := by
  rw [raiseFence_of_free fence]
  have dsq := fencedBy_dsq cause s
  have raised : DriveKept (fencedBy cause s) := by
    have work : Abandoned (fencedBy cause s) := h.abandonWork.congr rfl rfl rfl
    refine ⟨work.fits_withdrawn (by rw [dsq]; rfl) (by rw [dsq]; exact DsqState.noConfusion), fun _ => by rw [dsq]; rfl, ?_⟩
    unfold WithdrawalKept
    rw [dsq]
    exact ⟨fun _ => .inl rfl, fun _ => rfl, ⟨(fun k => nomatch bypass.symm.trans k), nofun⟩, faults, nofun, limit.1, limit.2,
      quiet⟩
  exact raised.beyond (offerLatching_changes _ _ _)

theorem DriveKept.raiseFence (h : DriveKept s) (cause : FenceCause) (before : State) (attached : s.dsq.state ≠ .detached) :
    DriveKept (raiseFence cause before s) := by
  cases fence : s.dsq.fence with
  | some x => rw [raiseFence_of_fenced (by rw [fence]; rfl)]; exact h
  | none =>
    have bypass := h.fence.not_bypassed attached
    obtain ⟨-, -, -, most, -, least, limit, quiet⟩ := h.fence
    exact h.fits.raiseFence cause before fence bypass most ⟨least, limit⟩ quiet

/-- A seek fault counted (R35, R36). -/
def faultCounted (s : State) : State :=
  s.updDsq fun d => { d with faults := d.faults + 1, quiet := some (uptimeExpiry s (1000 * d.set.quietPeriod)) }

/-- The drive as it recalibrates after a seek fault that does not fence (R35). -/
def faultRetried (s : State) : State :=
  beginRecalibrate (clearOperation (endPassContext (setGrant (faultGrant (faultCounted s)) (faultCounted s))))

theorem seekFault_of_limit (h : s.dsq.set.fenceLimit ≤ s.dsq.faults + 1) :
    seekFault s = raiseFence .seek s (faultCounted s) :=
  if_pos h

theorem seekFault_of_below (h : s.dsq.faults + 1 < s.dsq.set.fenceLimit) : seekFault s = faultRetried s :=
  if_neg (Nat.not_le_of_lt h)

/-- The grant of a drive in an operation or a pass is not voting. -/
theorem GrantFits.not_voting (h : GrantFits s)
    (work : s.dsq.state = .seeking ∨ s.dsq.state = .settling ∨ s.dsq.state = .reading) (grant : s.dsq.grant = some g) :
    g.phase ≠ .voting := fun phase => by
  obtain ⟨seeking, settling, reading⟩ := h.still g grant phase
  rcases work with k | k | k
  exacts [seeking k, settling k, reading k]

theorem afterFault_approach (q : Nat) (b : Bool) (g : Grant) : (afterFault q b g).phase = .approach := by
  unfold afterFault
  split
  · rfl
  · split <;> rfl

theorem faultGrant_of_free (grant : s.dsq.grant = none) : faultGrant s = none := by
  simp [faultGrant, grant]

theorem faultGrant_of_work (grant : s.dsq.grant = some g) (phase : g.phase ≠ .voting) :
    faultGrant s = some (afterFault s.dsq.set.retries (decide (spindleOf s.ixm = .unstable)) g) := by
  simp [faultGrant, grant, phase]

/-- Of the sequencer, a retry counts the fault, keeps the grant for its end, and recalibrates (R35). -/
theorem faultRetried_dsq (up : spindleDown s.ixm = false) : (faultRetried s).dsq = { s.dsq with
    state := .recalibrating, position := none, grant := faultGrant (faultCounted s), seekTarget := none
    faults := s.dsq.faults + 1, expiry := some ⟨s.clock.uptime, 10 * s.dsq.set.seekTimeout⟩
    quiet := some ⟨s.clock.uptime, 1000 * s.dsq.set.quietPeriod⟩ } := by
  unfold faultRetried
  rw [beginRecalibrate_of_up]
  · rfl
  · exact up

theorem faultRetried_changes (s : State) : ChangesOnly [.dsq, .rdc] s (faultRetried s) := by
  have counted : ChangesOnly [.dsq, .rdc] s (faultCounted s) := (updDsq_changes _).mono (by decide)
  exact (((counted.andThen (setGrant_changes _) (by decide)).andThen (updRdc_changes _) (by decide)).andThen
    (updDsq_changes _) (by decide)).andThen beginRecalibrate_changes (by decide)

theorem faultRetried_rdc (s : State) : (faultRetried s).rdc = { s.rdc with pass := none, assembly := none } :=
  beginRecalibrate_changes.rdc

theorem DriveKept.seekFault (h : DriveKept s)
    (work : s.dsq.state = .seeking ∨ s.dsq.state = .settling ∨ s.dsq.state = .reading) : DriveKept (seekFault s) := by
  have attached : s.dsq.state.attached = true := by rcases work with k | k | k <;> rw [k] <;> rfl
  have up : spindleDown s.ixm = false := by
    cases down : spindleDown s.ixm with
    | false => rfl
    | true =>
      have := h.down down
      rcases work with k | k | k <;> rw [k] at this <;> cases this
  have fence := h.fence.no_fence attached
  have bypass := h.fence.not_bypassed fun k => by rw [k] at attached; cases attached
  obtain ⟨-, -, -, most, below, least, limit, quiet⟩ := h.fence
  have counted := below fence
  by_cases reached : s.dsq.set.fenceLimit ≤ s.dsq.faults + 1
  · rw [seekFault_of_limit reached]
    have fits : GrantFits (faultCounted s) :=
      ⟨h.fits.pass, h.fits.batch, h.fits.inPass, h.fits.voting, h.fits.withdrawn, h.fits.still, h.fits.busy⟩
    refine fits.raiseFence .seek s fence bypass ?_ ⟨least, limit⟩ ⟨fun _ => Nat.succ_pos _, fun _ => rfl⟩
    show s.dsq.faults + 1 ≤ 15
    omega
  · rw [seekFault_of_below (Nat.lt_of_not_le reached)]
    have dsq := faultRetried_dsq up
    have rdc := faultRetried_rdc s
    have vte : (faultRetried s).vte = s.vte := (faultRetried_changes s).vte
    refine ⟨?_, fun down => ?_, ?_⟩
    · cases grant : s.dsq.grant with
      | none =>
        have free : faultGrant (faultCounted s) = none := faultGrant_of_free grant
        have none : Abandoned (faultRetried s) := .free (by rw [dsq]; exact free) (by rw [rdc])
          (by rw [vte]; exact h.fits.no_batch_of_free grant)
        refine none.fits ?_ ?_ (.inl (by rw [dsq]; exact free)) <;> rw [dsq] <;> exact DsqState.noConfusion
      | some g =>
        have phase := h.fits.not_voting work grant
        have kept : faultGrant (faultCounted s) = some _ := faultGrant_of_work grant phase
        refine .of_approach (by rw [rdc]) (by rw [vte]; exact h.fits.no_batch grant phase) (by rw [dsq]; exact kept)
          (afterFault_approach _ _ _) (by rw [dsq]; rfl)
    · rw [(faultRetried_changes s).ixm, up] at down
      cases down
    · unfold WithdrawalKept
      rw [dsq, fence, bypass]
      refine ⟨nofun, nofun, ⟨nofun, nofun⟩, ?_, fun _ => ?_, least, limit, ⟨fun _ => Nat.succ_pos _, fun _ => rfl⟩⟩
      · show s.dsq.faults + 1 ≤ 15
        omega
      · show s.dsq.faults + 1 ≤ 14
        omega

end Sys2Proof.Machine
end

section
/-! PROOF. Every event keeps the grant, the pass, the batch, the sequencer's state and the fence in keeping, and the
position the one last established (R22, R23, R29, R31, R34, R37, R38, R40, R42, R50, R72). -/

namespace Sys2Proof.Machine

variable {s t u : State} {g : Grant}

/-! ### Arbitration (R25) -/

theorem prepareGrant_changes (c : Candidate) : ChangesOnly workBlocks s (prepareGrant c s) := by
  unfold prepareGrant
  split
  · exact (claim_changes _ _).andThen (updJbq_changes _) (by decide)
  · dsimp only
    split
    · exact (claim_changes _ _).andThen (updJob_changes _ _) (by decide)
    · exact (updJob_changes _ _).mono (by decide)

theorem grantFor_approach (c : Candidate) (s : State) : (grantFor c s).phase = .approach := by
  cases c <;> rfl

/-- The state with a grant given, before it is taken up (R26). -/
def grantGiven (c : Candidate) (s : State) : State :=
  setGrant (some (grantFor c s)) (prepareGrant c s)

theorem grantGiven_changes (c : Candidate) (s : State) : ChangesOnly grantBlocks s (grantGiven c s) :=
  ((prepareGrant_changes c).mono (by decide)).andThen (setGrant_changes _) (by decide)

theorem grantGiven_dsq (c : Candidate) (s : State) :
    (grantGiven c s).dsq = { s.dsq with grant := some (grantFor c s) } := by
  show { (prepareGrant c s).dsq with grant := some (grantFor c s) } = _
  rw [(prepareGrant_changes c).dsq]

/-- All that arbitration can do: nothing, or the grant of the first candidate, taken up (R25). -/
theorem arbitrate_cases (s : State) : arbitrate s = s ∨
    ∃ c, candidate s = some c ∧ s.dsq.state = .idle ∧ spindleOf s.ixm = .running ∧ s.vte.batch = none ∧
      arbitrate s = takeUpGrant (grantFor c s) (grantGiven c s) := by
  by_cases free : s.dsq.state = .idle ∧ spindleOf s.ixm = .running ∧ s.vte.batch = none
  · obtain ⟨idle, running, batch⟩ := free
    cases first : candidate s with
    | none => exact .inl (arbitrate_of_no_candidate first)
    | some c => exact .inr ⟨c, rfl, idle, running, batch, arbitrate_of_candidate idle running batch first⟩
  · exact .inl (if_neg free)

theorem DriveKept.arbitrate (h : DriveKept s) : DriveKept (arbitrate s) := by
  rcases arbitrate_cases s with stands | ⟨c, -, idle, running, batch, given⟩
  · rw [stands]; exact h
  · have only := grantGiven_changes c s
    have dsq := grantGiven_dsq c s
    have attached : s.dsq.state.attached = true := by rw [idle]; rfl
    rw [given]
    refine .takeUpGrant (h.fence.of_same ?_ (by rw [dsq])) (by rw [dsq]; exact attached) ?_ (by rw [only.vte]; exact batch)
      (by rw [dsq]) (grantFor_approach c s) (by rw [only.ixm]; exact running)
    · rw [dsq]; exact ⟨rfl, rfl, rfl, rfl, rfl⟩
    · rw [only.rdc]; exact h.fits.no_pass_of_free (h.fits.free_of_idle idle batch)

/-! ### The spindle, marks and late expiries (R23, R24, R29, R30) -/

theorem DriveKept.of_same (h : DriveKept s) (grant : t.dsq.grant = s.dsq.grant) (state : t.dsq.state = s.dsq.state)
    (same : SameWithdrawal s.dsq t.dsq) (pass : t.rdc.pass = s.rdc.pass) (batch : t.vte.batch = s.vte.batch)
    (down : spindleDown t.ixm = spindleDown s.ixm) : DriveKept t :=
  ⟨h.fits.congr grant state pass batch, by rw [state, down]; exact h.down, h.fence.of_same same state⟩

/-- Work abandoned for a state without work of the drive that stands whatever the spindle does. -/
theorem GrantFits.abandoned_for (h : GrantFits s) (fence : WithdrawalKept s) (attached : s.dsq.state.attached = true)
    (grant : t.dsq.grant = (Machine.abandonWork s).dsq.grant) (same : SameWithdrawal s.dsq t.dsq)
    (rdc : t.rdc = (Machine.abandonWork s).rdc) (vte : t.vte = (Machine.abandonWork s).vte)
    (state : t.dsq.state = .offline ∨ t.dsq.state = .idle) : DriveKept t := by
  have work : Abandoned t := h.abandonWork.congr grant (by rw [rdc]) (by rw [vte])
  refine ⟨work.fits_withdrawn ?_ ?_, fun _ => ?_, fence.of_attached same attached ?_⟩
  all_goals rcases state with k | k <;> rw [k] <;> decide

theorem followSpindle_of_running {old : Spindle} (changed : spindleOf s.ixm ≠ old) (h : spindleOf s.ixm = .running) :
    followSpindle old s = followRunning s := by
  unfold followSpindle
  rw [if_neg changed, h]

theorem followRunning_cases (s : State) :
    followRunning s = s ∨ s.dsq.state = .offline ∧ followRunning s = beginRecalibrate s := by
  unfold followRunning
  split
  · exact .inr ⟨‹_›, rfl⟩
  · exact .inl rfl

/-- All that following the spindle can do (R23, R24). -/
theorem followDown_cases (s : State) :
    s.dsq.state = .idle ∧ followDown s = setDsqState .offline s ∨
    (s.dsq.state = .seeking ∨ s.dsq.state = .settling ∨ s.dsq.state = .recalibrating) ∧
      followDown s = setDsqState .offline (losePosition (abandonWork s)) ∨
    s.dsq.state = .reading ∧ followDown s = setDsqState .offline (abandonWork s) ∨
    (s.dsq.state = .voting ∨ s.dsq.state = .resting ∨ s.dsq.state = .offline ∨ s.dsq.state = .fenced ∨
      s.dsq.state = .detached) ∧ followDown s = s := by
  cases h : s.dsq.state with
  | idle => exact .inl ⟨rfl, by rw [followDown_of_quiet (.inr h)]⟩
  | seeking => exact .inr (.inl ⟨.inl rfl, followDown_of_moving (.inl h)⟩)
  | settling => exact .inr (.inl ⟨.inr (.inl rfl), followDown_of_moving (.inr (.inl h))⟩)
  | recalibrating => exact .inr (.inl ⟨.inr (.inr rfl), followDown_of_moving (.inr (.inr h))⟩)
  | reading => exact .inr (.inr (.inl ⟨rfl, followDown_of_reading h⟩))
  | voting => exact .inr (.inr (.inr ⟨.inl rfl, followDown_of_standing (.inl h)⟩))
  | resting => exact .inr (.inr (.inr ⟨.inr (.inl rfl), followDown_of_standing (.inr (.inl h))⟩))
  | offline => exact .inr (.inr (.inr ⟨.inr (.inr (.inl rfl)), followDown_of_standing (.inr (.inr (.inl h)))⟩))
  | fenced => exact .inr (.inr (.inr ⟨.inr (.inr (.inr (.inl rfl))), followDown_of_standing (.inr (.inr (.inr (.inl h))))⟩))
  | detached =>
    exact .inr (.inr (.inr ⟨.inr (.inr (.inr (.inr rfl))), followDown_of_standing (.inr (.inr (.inr (.inr h))))⟩))

theorem GrantFits.followDown (h : GrantFits s) (fence : WithdrawalKept s) : DriveKept (followDown s) := by
  obtain ⟨same, -⟩ := abandonWork_same s
  have withdraw {v : State} (attached : s.dsq.state.attached = true) :=
    h.abandoned_for (t := v) fence attached
  rcases followDown_cases s with ⟨idle, e⟩ | ⟨moving, e⟩ | ⟨reading, e⟩ | ⟨standing, e⟩
  · have left : Abandoned (setDsqState .offline s) :=
      (h.abandoned_of_withdrawn (by rw [idle]; rfl)).congr rfl rfl rfl
    rw [e]
    exact ⟨left.fits_withdrawn rfl DsqState.noConfusion, fun _ => rfl,
      fence.of_attached ⟨rfl, rfl, rfl, rfl, rfl⟩ (by rw [idle]; rfl) rfl⟩
  · rw [e]
    refine withdraw ?_ rfl ⟨same.fence, same.bypass, same.faults, same.set, same.quiet⟩ rfl rfl (.inl rfl)
    rcases moving with k | k | k <;> rw [k] <;> rfl
  · rw [e]
    exact withdraw (by rw [reading]; rfl) rfl ⟨same.fence, same.bypass, same.faults, same.set, same.quiet⟩ rfl rfl (.inl rfl)
  · rw [e]
    exact ⟨h, fun _ => by rcases standing with k | k | k | k | k <;> rw [k] <;> rfl, fence⟩

theorem spindle_cases (x : Ixm) : spindleDown x = true ∨ spindleOf x = .unstable ∨ spindleOf x = .running := by
  unfold spindleDown
  cases spindleOf x <;> simp

/-- The sequencer follows what the monitor has made of the spindle. -/
theorem DriveKept.followSpindle (h : DriveKept s) (k : ChangesOnly [.ixm, .rct, .evq] s u) :
    DriveKept (followSpindle (spindleOf s.ixm) u) := by
  have fits : GrantFits u := h.fits.congr (by rw [k.dsq]) (by rw [k.dsq]) (by rw [k.rdc]) (by rw [k.vte])
  have fence : WithdrawalKept u := h.fence.congr k.dsq
  by_cases same : spindleOf s.ixm = spindleOf u.ixm
  · rw [followSpindle_same same]
    exact h.congr k.dsq (by rw [k.rdc]) (by rw [k.vte]) (by rw [spindleDown, spindleDown, same])
  rcases spindle_cases u.ixm with down | unstable | running
  · rw [followSpindle_of_down (Ne.symm same) down]
    exact fits.followDown fence
  · have up : spindleDown u.ixm = false := by rw [spindleDown, unstable]
    rw [followSpindle_unstable (Ne.symm same) unstable]
    by_cases reading : u.dsq.state = .reading
    · rw [followUnstable_of_reading reading]
      obtain ⟨kept, -⟩ := abandonWork_same u
      exact fits.abandoned_for fence (by rw [reading]; rfl) rfl
        ⟨kept.fence, kept.bypass, kept.faults, kept.set, kept.quiet⟩ rfl rfl (.inr rfl)
    · rw [followUnstable_of_not_reading reading]
      exact ⟨fits, fun down => (nomatch up.symm.trans down), fence⟩
  · have up : spindleDown u.ixm = false := by rw [spindleDown, running]
    rw [followSpindle_of_running (Ne.symm same) running]
    rcases followRunning_cases u with e | ⟨offline, e⟩ <;> rw [e]
    · exact ⟨fits, fun down => (nomatch up.symm.trans down), fence⟩
    · have begun := (fits.abandoned_of_withdrawn (by rw [offline]; rfl)).beginRecalibrate
      exact ⟨begun.1, begun.2, fence.of_attached (beginRecalibrate_same u) (by rw [offline]; rfl)
        (beginRecalibrate_attached u)⟩

/-- All that a mark can do (R29, R30). -/
theorem takeMark_cases (r : Timer) (s : State) : takeMark r s = s ∨
    ∃ g, s.dsq.state = .reading ∧ s.dsq.grant = some g ∧
      (g.phase = .inPass ∧ takeMark r s = countPass g s ∨ g.phase = .approach ∧ takeMark r s = beginPass g r s) := by
  by_cases reading : s.dsq.state = .reading
  · cases grant : s.dsq.grant with
    | none => exact .inl (by simp [takeMark, grant])
    | some g =>
      cases phase : g.phase with
      | inPass => exact .inr ⟨g, reading, rfl, .inl ⟨phase, takeMark_inPass r reading grant phase⟩⟩
      | approach =>
        by_cases running : spindleOf s.ixm = .running
        · exact .inr ⟨g, reading, rfl, .inr ⟨phase, takeMark_approach_running r reading grant phase running⟩⟩
        · exact .inl (takeMark_approach_waits r reading grant phase running)
      | voting => exact .inl (by simp [takeMark, reading, grant, phase])
  · exact .inl (takeMark_of_not_reading r reading)

theorem takeLateExpiry_cases (s : State) : takeLateExpiry s = s ∨
    ∃ g, s.dsq.state = .reading ∧ s.dsq.grant = some g ∧ g.phase = .inPass ∧ takeLateExpiry s = countPass g s := by
  by_cases reading : s.dsq.state = .reading
  · cases grant : s.dsq.grant with
    | none => exact .inl (by simp [takeLateExpiry, grant])
    | some g =>
      by_cases phase : g.phase = .inPass
      · exact .inr ⟨g, reading, rfl, phase, takeLateExpiry_inPass reading grant phase⟩
      · exact .inl (by simp [takeLateExpiry, reading, grant, phase])
  · exact .inl (takeLateExpiry_of_not_reading reading)

/-- The pass waited for begins with its context (R29, R50). -/
theorem DriveKept.beginPass (h : DriveKept s) (r : Timer) (reading : s.dsq.state = .reading)
    (grant : s.dsq.grant = some g) (phase : g.phase = .approach) : DriveKept (beginPass g r s) := by
  have batch := h.fits.no_batch grant (by rw [phase]; decide)
  refine ⟨⟨?_, ?_, fun _ _ _ => rfl, ?_, ?_, ?_, fun _ => rfl⟩, h.down, h.fence.of_same ⟨rfl, rfl, rfl, rfl, rfl⟩ rfl⟩
  · rintro _ ⟨⟩
    exact ⟨reading, _, rfl, rfl, rfl⟩
  · intro b k
    rw [show (Machine.beginPass g r s).vte.batch = none from batch] at k
    cases k
  · rintro _ ⟨⟩ ⟨⟩
  · intro _ _ k
    rw [show (Machine.beginPass g r s).dsq.state = .reading from reading] at k
    cases k
  · rintro _ ⟨⟩ ⟨⟩

theorem DriveKept.takeMark (h : DriveKept s) (r : Timer) : DriveKept (takeMark r s) := by
  rcases takeMark_cases r s with e | ⟨g, reading, grant, ⟨phase, e⟩ | ⟨phase, e⟩⟩ <;> rw [e]
  · exact h
  · exact h.countPass (by rw [reading]; rfl) grant (by rw [phase]; decide)
  · exact h.beginPass r reading grant phase

theorem DriveKept.takeLateExpiry (h : DriveKept s) : DriveKept (takeLateExpiry s) := by
  rcases takeLateExpiry_cases s with e | ⟨g, reading, grant, phase, e⟩ <;> rw [e]
  · exact h
  · exact h.countPass (by rw [reading]; rfl) grant (by rw [phase]; decide)

/-! ### The ends of operations (R27, R28, R34) -/

/-- The operation is over where it was, before the grant goes on (R22, R27). -/
def seekArrived (s : State) : State :=
  clearOperation (s.updDsq Dsq.reachTarget)

/-- The recalibrate is over at 0/0 with offset 0, before the grant goes on (R22, R34). -/
def recalibrateArrived (s : State) : State :=
  clearOperation (s.updDsq (Dsq.establish ⟨0, 0, 0⟩))

/-- The end of a seek changes the position, and ends the operation. -/
theorem reachTarget_dsq (d : Dsq) : d.reachTarget =
    { d with position := d.reachTarget.position, lastPosition := d.reachTarget.lastPosition } := by
  unfold Dsq.reachTarget
  split <;> rfl

theorem seekArrived_dsq (s : State) : (seekArrived s).dsq = { s.dsq with
    position := s.dsq.reachTarget.position, lastPosition := s.dsq.reachTarget.lastPosition, seekTarget := none
    expiry := none } := by
  show { s.dsq.reachTarget with expiry := none, seekTarget := none } = _
  rw [reachTarget_dsq]

theorem recalibrateArrived_dsq (s : State) : (recalibrateArrived s).dsq = { s.dsq with
    position := some ⟨0, 0, 0⟩, lastPosition := some ⟨0, 0, 0⟩, seekTarget := none, expiry := none } := rfl

theorem DriveKept.seekArrived (h : DriveKept s) : DriveKept (seekArrived s) := by
  have dsq := seekArrived_dsq s
  exact h.of_same (by rw [dsq]) (by rw [dsq]) (by rw [dsq]; exact ⟨rfl, rfl, rfl, rfl, rfl⟩) rfl rfl rfl

theorem DriveKept.recalibrateArrived (h : DriveKept s) : DriveKept (recalibrateArrived s) :=
  h.of_same rfl rfl ⟨rfl, rfl, rfl, rfl, rfl⟩ rfl rfl rfl

theorem completeSeek_of_free (grant : s.dsq.grant = none) : completeSeek s = enterIdle (seekArrived s) := by
  have free : (seekArrived s).dsq.grant = none := by rw [seekArrived_dsq]; exact grant
  unfold seekArrived at *
  simp [completeSeek, free]

theorem completeSeek_of_unstable (grant : s.dsq.grant = some g) (unstable : spindleOf s.ixm = .unstable) :
    completeSeek s = enterIdle (endUnpassed g (seekArrived s)) := by
  have held : (seekArrived s).dsq.grant = some g := by rw [seekArrived_dsq]; exact grant
  have ixm : (seekArrived s).ixm = s.ixm := rfl
  unfold seekArrived at *
  simp [completeSeek, held, ixm, unstable]

theorem completeSeek_of_steady (grant : s.dsq.grant = some g) (steady : spindleOf s.ixm ≠ .unstable) :
    completeSeek s = beginSettle g (seekArrived s) := by
  have held : (seekArrived s).dsq.grant = some g := by rw [seekArrived_dsq]; exact grant
  have ixm : (seekArrived s).ixm = s.ixm := rfl
  unfold seekArrived at *
  simp [completeSeek, held, ixm, steady]

/-- A settle wait begins, or is over at once, for a grant brought to its track. -/
theorem DriveKept.beginSettle (h : DriveKept s) (attached : s.dsq.state.attached = true) (grant : s.dsq.grant = some g)
    (phase : g.phase = .approach) (steady : spindleOf s.ixm ≠ .unstable) (up : spindleDown s.ixm = false) :
    DriveKept (beginSettle g s) := by
  rw [beginSettle_steady grant steady]
  refine ⟨.of_approach (h.fits.no_pass grant (by rw [phase]; decide)) (h.fits.no_batch grant (by rw [phase]; decide))
    grant phase ?_, fun down => (nomatch up.symm.trans down), h.fence.of_attached ⟨rfl, rfl, rfl, rfl, rfl⟩ attached ?_⟩
  all_goals
    rw [State.updDsq_dsq]
    dsimp only
    split <;> rfl

theorem DriveKept.completeSeek (h : DriveKept s) (seeking : s.dsq.state = .seeking) : DriveKept (completeSeek s) := by
  have arrived := h.seekArrived
  have dsq := seekArrived_dsq s
  have state : (Machine.seekArrived s).dsq.state = .seeking := by rw [dsq]; exact seeking
  have attached : (Machine.seekArrived s).dsq.state.attached = true := by rw [state]; rfl
  have up : spindleDown s.ixm = false := by
    cases down : spindleDown s.ixm with
    | false => rfl
    | true =>
      have := h.down down
      rw [seeking] at this
      cases this
  cases grant : s.dsq.grant with
  | none =>
    rw [completeSeek_of_free grant]
    have free : (Machine.seekArrived s).dsq.grant = none := by rw [dsq]; exact grant
    exact .enterIdle arrived.fence attached
      (.free free (arrived.fits.no_pass_of_free free) (arrived.fits.no_batch_of_free free))
  | some g =>
    have held : (Machine.seekArrived s).dsq.grant = some g := by rw [dsq]; exact grant
    have phase := arrived.fits.approach_of_moving (.inl state) held
    by_cases unstable : spindleOf s.ixm = .unstable
    · rw [completeSeek_of_unstable grant unstable]
      exact arrived.endUnpassed attached held phase
    · rw [completeSeek_of_steady grant unstable]
      exact arrived.beginSettle attached held phase unstable up

theorem completeRecalibrate_of_free (grant : s.dsq.grant = none) :
    completeRecalibrate s = enterIdle (recalibrateArrived s) := by
  have free : (recalibrateArrived s).dsq.grant = none := grant
  unfold recalibrateArrived at *
  simp [completeRecalibrate, free]

theorem completeRecalibrate_of_past (grant : s.dsq.grant = some g) (phase : g.phase ≠ .approach) :
    completeRecalibrate s = enterIdle (recalibrateArrived s) := by
  have held : (recalibrateArrived s).dsq.grant = some g := grant
  unfold recalibrateArrived at *
  simp [completeRecalibrate, held, phase]

theorem completeRecalibrate_of_approach (grant : s.dsq.grant = some g) (phase : g.phase = .approach) :
    completeRecalibrate s = resumeGrant g (recalibrateArrived s) := by
  have held : (recalibrateArrived s).dsq.grant = some g := grant
  unfold recalibrateArrived at *
  simp [completeRecalibrate, held, phase]

theorem resumeGrant_of_counted (h : g.after = .counted) : resumeGrant g s = countPass g s := by
  simp [resumeGrant, h]

theorem resumeGrant_of_ended (h : g.after = .finish ∨ g.after = .retake ∧ spindleOf s.ixm = .unstable) :
    resumeGrant g s = enterIdle (endUnpassed g s) := by
  rcases h with h | ⟨h, unstable⟩
  · simp [resumeGrant, h]
  · simp [resumeGrant, h, unstable]

theorem resumeGrant_of_retake (h : g.after = .retake) (steady : spindleOf s.ixm ≠ .unstable) :
    resumeGrant g s = takeUpGrant g s := by
  simp [resumeGrant, h, steady]

theorem DriveKept.resumeGrant (h : DriveKept s) (attached : s.dsq.state.attached = true) (up : spindleDown s.ixm = false)
    (grant : s.dsq.grant = some g) (phase : g.phase = .approach) : DriveKept (resumeGrant g s) := by
  cases after : g.after with
  | counted => rw [resumeGrant_of_counted after]; exact h.countPass attached grant (by rw [phase]; decide)
  | finish => rw [resumeGrant_of_ended (.inl after)]; exact h.endUnpassed attached grant phase
  | retake =>
    by_cases unstable : spindleOf s.ixm = .unstable
    · rw [resumeGrant_of_ended (.inr ⟨after, unstable⟩)]; exact h.endUnpassed attached grant phase
    · rw [resumeGrant_of_retake after unstable]
      exact .takeUpGrant h.fence attached (h.fits.no_pass grant (by rw [phase]; decide))
        (h.fits.no_batch grant (by rw [phase]; decide)) grant phase (running_of_up up unstable)

theorem DriveKept.completeRecalibrate (h : DriveKept s) (recalibrating : s.dsq.state = .recalibrating) :
    DriveKept (completeRecalibrate s) := by
  have arrived := h.recalibrateArrived
  have state : (Machine.recalibrateArrived s).dsq.state = .recalibrating := recalibrating
  have attached : (Machine.recalibrateArrived s).dsq.state.attached = true := by rw [state]; rfl
  have up : spindleDown s.ixm = false := by
    cases down : spindleDown s.ixm with
    | false => rfl
    | true =>
      have := h.down down
      rw [recalibrating] at this
      cases this
  cases grant : s.dsq.grant with
  | none =>
    rw [completeRecalibrate_of_free grant]
    exact .enterIdle arrived.fence attached
      (.free grant (arrived.fits.no_pass_of_free grant) (arrived.fits.no_batch_of_free grant))
  | some g =>
    cases phase : g.phase with
    | approach => rw [completeRecalibrate_of_approach grant phase]; exact arrived.resumeGrant attached up grant phase
    | inPass =>
      obtain ⟨p, pass⟩ := Option.isSome_iff_exists.mp (h.fits.inPass g grant phase)
      have reading := (h.fits.pass p pass).1
      rw [recalibrating] at reading
      cases reading
    | voting =>
      rw [completeRecalibrate_of_past grant (by rw [phase]; decide)]
      refine .enterIdle arrived.fence attached ⟨arrived.fits.no_pass grant (by rw [phase]; decide), arrived.fits.batch,
        fun g' k => ?_⟩
      cases grant.symm.trans k
      exact ⟨phase, h.fits.voting g grant phase⟩

theorem DriveKept.endSettle (h : DriveKept s) (settling : s.dsq.state = .settling) : DriveKept (endSettle s) := by
  have ended : DriveKept (clearOperation s) := h.of_same rfl rfl ⟨rfl, rfl, rfl, rfl, rfl⟩ rfl rfl rfl
  have attached : (clearOperation s).dsq.state.attached = true := by
    show s.dsq.state.attached = true
    rw [settling]
    rfl
  cases grant : s.dsq.grant with
  | none =>
    rw [endSettle_of_free grant]
    exact .enterIdle ended.fence attached (.free grant (ended.fits.no_pass_of_free grant) (ended.fits.no_batch_of_free grant))
  | some g =>
    have phase := h.fits.approach_of_moving (.inr settling) grant
    by_cases unstable : spindleOf s.ixm = .unstable
    · rw [endSettle_of_unstable grant unstable]
      exact ended.endUnpassed attached grant phase
    · rw [endSettle_of_steady grant unstable]
      refine ⟨.of_approach (s := setDsqState .reading (clearOperation s)) (h.fits.no_pass grant (by rw [phase]; decide))
        (h.fits.no_batch grant (by rw [phase]; decide)) grant phase rfl, fun down => ?_,
        ended.fence.of_attached ⟨rfl, rfl, rfl, rfl, rfl⟩ attached rfl⟩
      have := h.down down
      rw [settling] at this
      cases this

/-! ### Rests, bypass and resets (R39 to R43, R46, R47) -/

theorem DriveKept.begunRest (h : DriveKept s) (ms : Nat) (attached : s.dsq.state.attached = true) :
    DriveKept (begunRest ms s) := by
  obtain ⟨same, -⟩ := abandonWork_same s
  have work : Abandoned (Machine.begunRest ms s) := h.fits.abandonWork.congr rfl rfl rfl
  exact ⟨work.fits_withdrawn rfl DsqState.noConfusion, fun _ => rfl,
    h.fence.of_attached ⟨same.fence, same.bypass, same.faults, same.set, same.quiet⟩ attached rfl⟩

/-- A recalibrate begins in a state without work of the drive. -/
theorem DriveKept.beginRecalibrate (h : DriveKept s) (attached : s.dsq.state.attached = true)
    (withdrawn : s.dsq.state.withdrawn = true) : DriveKept (beginRecalibrate s) := by
  obtain ⟨fits, down⟩ := (h.fits.abandoned_of_withdrawn withdrawn).beginRecalibrate
  exact ⟨fits, down, h.fence.of_attached (beginRecalibrate_same s) attached (beginRecalibrate_attached s)⟩

theorem DriveKept.quietEnds (h : DriveKept s) :
    DriveKept (s.updDsq fun d => { d with faults := 0, quiet := none }) := by
  obtain ⟨fenced, fence, bypass, -, -, least, limit, -⟩ := h.fence
  exact ⟨h.fits.congr rfl rfl rfl rfl, h.down,
    ⟨fenced, fence, bypass, Nat.zero_le _, fun _ => Nat.zero_le _, least, limit, ⟨nofun, fun k => absurd k (Nat.lt_irrefl 0)⟩⟩⟩

/-- A fence cleared, and a FENCED sequencer recalibrating (R36, R39). -/
theorem DriveKept.fenceCleared {c : FenceCause} (h : DriveKept s) :
    DriveKept (if s.dsq.state = .fenced then Machine.beginRecalibrate (clearedFence c s) else clearedFence c s) := by
  have only : ChangesOnly [.dsq, .evq] s (clearedFence c s) :=
    .andThen ((updDsq_changes _).mono (by decide)) (offer_changes _ _ _) (by decide)
  have dsq : (clearedFence c s).dsq = { s.dsq with fence := none, faults := 0, quiet := none } := rfl
  obtain ⟨-, -, bypass, -, -, least, limit, -⟩ := h.fence
  have fits : GrantFits (clearedFence c s) := h.fits.congr rfl rfl rfl rfl
  split
  · rename_i fenced
    have attached := beginRecalibrate_attached (clearedFence c s)
    obtain ⟨fits', down⟩ := (fits.abandoned_of_withdrawn (by rw [dsq, fenced]; rfl)).beginRecalibrate
    refine ⟨fits', down, ?_⟩
    obtain ⟨fence', bypass', faults', set', quiet'⟩ := beginRecalibrate_same (clearedFence c s)
    have relay : s.dsq.bypass = false := h.fence.not_bypassed (by rw [fenced]; decide)
    unfold WithdrawalKept
    rw [fence', bypass', faults', set', quiet', dsq, relay]
    refine ⟨nofun, fun k => ?_, ⟨nofun, fun k => ?_⟩, Nat.zero_le _, fun _ => Nat.zero_le _, least, limit,
      ⟨nofun, fun k => absurd k (Nat.lt_irrefl 0)⟩⟩ <;> rw [k] at attached <;> cases attached
  · rename_i free
    exact ⟨fits, h.down, ⟨nofun, (absurd · free), bypass, Nat.zero_le _, fun _ => Nat.zero_le _, least, limit,
      ⟨nofun, fun k => absurd k (Nat.lt_irrefl 0)⟩⟩⟩

theorem DriveKept.bypassOn (h : DriveKept s) : DriveKept (bypassOn s) := by
  obtain ⟨fence', bypass', faults', set', quiet'⟩ := (abandonWork_same s).1
  have work : Abandoned (Machine.bypassOn s) := h.fits.abandonWork.congr rfl rfl rfl
  obtain ⟨-, -, -, most, below, least, limit, quiet⟩ := h.fence
  refine ⟨work.fits_withdrawn rfl DsqState.noConfusion, fun _ => rfl, ?_⟩
  show ((abandonWork s).dsq.fence.isSome → _) ∧ _ ∧ _ ∧ (abandonWork s).dsq.faults ≤ 15 ∧
    ((abandonWork s).dsq.fence = none → (abandonWork s).dsq.faults ≤ 14) ∧ 1 ≤ (abandonWork s).dsq.set.fenceLimit ∧
    (abandonWork s).dsq.set.fenceLimit ≤ 15 ∧ ((abandonWork s).dsq.quiet.isSome ↔ 0 < (abandonWork s).dsq.faults)
  rw [fence', faults', set', quiet']
  exact ⟨fun _ => .inr rfl, nofun, ⟨fun _ => rfl, fun _ => rfl⟩, most, below, least, limit, quiet⟩

/-- The relay opens, before the drive is seen to (R43). -/
def relayOpened (s : State) : State :=
  s.updDsq fun d => { d with bypass := false, position := none }

theorem DriveKept.reattachDrive (h : DriveKept s) (bypass : s.dsq.bypass = true) : DriveKept (reattachDrive s) := by
  obtain ⟨fenced, -, relay, most, below, least, limit, quiet⟩ := h.fence
  have detached : s.dsq.state = .detached := relay.mp bypass
  have work : Abandoned (relayOpened s) :=
    (h.fits.abandoned_of_withdrawn (by rw [detached]; rfl)).congr rfl rfl rfl
  have fits : GrantFits (relayOpened s) := h.fits.congr rfl rfl rfl rfl
  unfold Machine.reattachDrive
  dsimp only
  cases fence : s.dsq.fence with
  | some x =>
    have left : Abandoned (setDsqState .fenced (relayOpened s)) := work.congr rfl rfl rfl
    refine ⟨left.fits_withdrawn rfl DsqState.noConfusion, fun _ => rfl, ?_⟩
    exact ⟨fun _ => .inl rfl, fun _ => by show s.dsq.fence.isSome = true; rw [fence]; rfl, ⟨nofun, nofun⟩, most, below, least,
      limit, quiet⟩
  | none =>
    have raised (cause : FenceCause) : DriveKept (Machine.raiseFence cause s (relayOpened s)) :=
      fits.raiseFence cause s fence rfl most ⟨least, limit⟩ quiet
    have begun : DriveKept (Machine.beginRecalibrate (relayOpened s)) := by
      obtain ⟨fits', down⟩ := work.beginRecalibrate
      obtain ⟨fence', bypass', faults', set', quiet'⟩ := beginRecalibrate_same (relayOpened s)
      have attached := beginRecalibrate_attached (relayOpened s)
      refine ⟨fits', down, ?_⟩
      unfold WithdrawalKept
      rw [fence', bypass', faults', set', quiet', show (relayOpened s).dsq.fence = none from fence]
      refine ⟨nofun, fun k => ?_, ⟨nofun, fun k => ?_⟩, most, fun _ => below fence, least, limit, quiet⟩ <;>
        rw [k] at attached <;> cases attached
    split
    · exact absurd ‹_› (by decide)
    · split
      · exact raised _
      · split
        · exact raised _
        · exact begun

theorem DriveKept.resetBlocks (h : DriveKept s) : DriveKept (resetBlocks s) := by
  obtain ⟨fenced, -, bypass, -, -, least, limit, -⟩ := h.fence
  have free : Abandoned (Machine.resetBlocks s) := .free rfl rfl rfl
  have state : (Machine.resetBlocks s).dsq.state = resetDsqState s.dsq := rfl
  have cases' : resetDsqState s.dsq = .detached ∧ s.dsq.bypass = true ∨
      resetDsqState s.dsq = .fenced ∧ s.dsq.bypass = false ∧ s.dsq.fence.isSome = true ∨
      resetDsqState s.dsq = .offline ∧ s.dsq.bypass = false ∧ s.dsq.fence.isSome = false := by
    unfold resetDsqState
    cases s.dsq.bypass <;> cases s.dsq.fence <;> simp
  refine ⟨free.fits_withdrawn ?_ ?_, fun _ => ?_, ?_⟩
  case refine_4 =>
    show (s.dsq.fence.isSome → resetDsqState s.dsq = _ ∨ resetDsqState s.dsq = _) ∧ (resetDsqState s.dsq = _ → _) ∧
      (s.dsq.bypass = true ↔ resetDsqState s.dsq = _) ∧ _
    refine ⟨?_, ?_, ?_, Nat.zero_le _, fun _ => Nat.zero_le _, least, limit, ⟨nofun, fun k => absurd k (Nat.lt_irrefl 0)⟩⟩
    all_goals
      rcases cases' with ⟨k, b⟩ | ⟨k, b, f⟩ | ⟨k, b, f⟩ <;> rw [k] <;> simp_all [Machine.resetBlocks, resetDsq]
  all_goals
    rw [state]
    rcases cases' with ⟨k, -⟩ | ⟨k, -⟩ | ⟨k, -⟩ <;> rw [k] <;> decide

theorem DriveKept.powerOn (s : State) : DriveKept (powerOn s) := by
  have free : Abandoned (Machine.powerOn s) := .free rfl rfl rfl
  exact ⟨free.fits_withdrawn rfl DsqState.noConfusion, fun _ => rfl,
    ⟨nofun, nofun, ⟨nofun, nofun⟩, (show 0 ≤ 15 by decide), fun _ => (show 0 ≤ 14 by decide), (show 1 ≤ 6 by decide),
      (show 6 ≤ 15 by decide), ⟨nofun, nofun⟩⟩⟩

/-! ### Copies and cancelled jobs (R58, R84, R109) -/

theorem deliverBad_stands (c : SealedCopy) (s : State) : ChangesOnly [.cps, .jbq, .tks, .rct] s (deliverBad c s) := by
  have framed : ChangesOnly [.cps, .jbq, .tks, .rct] s
      (updFrame c.addr.track (Frame.updSector c.addr.sector (recordBad c.words c.weight)) s) :=
    (updFrame_changes _ _).mono (by decide)
  have placed := framed.andThen (updCps_changes (placeCopy s.vte.copyLimit c)) (by decide)
  unfold deliverBad
  dsimp only
  split
  · exact placed.andThen (updRct_changes _) (by decide)
  · exact placed.andThen (updRct_changes _) (by decide)
  · exact placed.andThen (markStarved_changes _) (by decide)
  · exact placed

/-- A sector resolved leaves the open set of the grant and of the pass, and the drive as it is (R58). -/
theorem deliverGood_drive (c : SealedCopy) (s : State) :
    (deliverGood c s).dsq = { s.dsq with grant := s.dsq.grant.map fun g =>
        { g with openSet := g.openSet.filter (· != c.addr.sector) } } ∧
      (deliverGood c s).rdc = { s.rdc with pass := s.rdc.pass.map fun p =>
        { p with openSet := p.openSet.filter (· != c.addr.sector) } } := by
  unfold deliverGood
  dsimp only
  constructor
  all_goals
    split <;> split <;> rfl

theorem DriveKept.deliverGood (h : DriveKept s) (c : SealedCopy) : DriveKept (deliverGood c s) := by
  obtain ⟨dsq, rdc⟩ := deliverGood_drive c s
  have only := deliverGood_changes (s := s) c
  have grant {g : Grant} (k : (Machine.deliverGood c s).dsq.grant = some g) : ∃ g', s.dsq.grant = some g' ∧
      g.phase = g'.phase ∧ g.track = g'.track ∧ g.kind = g'.kind := by
    rw [dsq] at k
    obtain ⟨g', k', rfl⟩ := Option.map_eq_some_iff.mp k
    exact ⟨g', k', rfl, rfl, rfl⟩
  have held {g : Grant} (k : s.dsq.grant = some g) : ∃ g', (Machine.deliverGood c s).dsq.grant = some g' ∧
      g'.phase = g.phase ∧ g'.track = g.track := by
    rw [dsq]
    exact ⟨{ g with openSet := g.openSet.filter (· != c.addr.sector) }, by rw [k]; rfl, rfl, rfl⟩
  have pass : (Machine.deliverGood c s).rdc.pass.isSome = s.rdc.pass.isSome := by rw [rdc]; simp
  have state : (Machine.deliverGood c s).dsq.state = s.dsq.state := by rw [dsq]
  refine ⟨⟨fun p k => ?_, fun b k => ?_, fun g k phase => ?_, fun g k phase => ?_, fun g k w => ?_, fun g k phase => ?_,
    fun k => ?_⟩, ?_, h.fence.of_same (by rw [dsq]; exact ⟨rfl, rfl, rfl, rfl, rfl⟩) state⟩
  · rw [rdc] at k
    obtain ⟨p', k', rfl⟩ := Option.map_eq_some_iff.mp k
    obtain ⟨reading, g, grant, phase, track⟩ := h.fits.pass p' k'
    obtain ⟨g', grant', phase', track'⟩ := held grant
    exact ⟨state.trans reading, g', grant', phase'.trans phase, track'.trans track⟩
  · rw [only.vte] at k
    obtain ⟨g, grant, phase, track⟩ := h.fits.batch b k
    obtain ⟨g', grant', phase', track'⟩ := held grant
    exact ⟨g', grant', phase'.trans phase, track'.trans track⟩
  · obtain ⟨g', grant', phase', -⟩ := grant k
    rw [pass]
    exact h.fits.inPass g' grant' (phase'.symm.trans phase)
  · obtain ⟨g', grant', phase', -, kind⟩ := grant k
    rw [only.vte, kind]
    exact h.fits.voting g' grant' (phase'.symm.trans phase)
  · obtain ⟨g', grant', phase', -⟩ := grant k
    exact phase'.trans (h.fits.withdrawn g' grant' (by rw [← state]; exact w))
  · obtain ⟨g', grant', phase', -⟩ := grant k
    rw [state]
    exact h.fits.still g' grant' (phase'.symm.trans phase)
  · rw [state] at k
    obtain ⟨g, grant⟩ := Option.isSome_iff_exists.mp (h.fits.busy k)
    obtain ⟨g', grant', -⟩ := held grant
    rw [grant']
    rfl
  · rw [only.ixm, state]
    exact h.down

/-- A cancelled job's grant ends, and a sequencer that read or voted for it is IDLE (R84, R109). -/
theorem cancelGrant_of_held {tr : Track} (grant : s.dsq.grant = some g) (kind : g.kind = .jobPass) (track : g.track = tr) :
    (cancelGrant tr s).dsq = { s.dsq with
        grant := none
        state := if s.dsq.state = .reading ∨ s.dsq.state = .voting then .idle else s.dsq.state } ∧
      (cancelGrant tr s).rdc = { s.rdc with pass := none, assembly := none } ∧
      (cancelGrant tr s).vte = if g.phase = .voting then { s.vte with batch := none } else s.vte := by
  unfold cancelGrant
  rw [grant]
  dsimp only
  rw [if_pos ⟨kind, track⟩]
  refine ⟨?_, ?_, ?_⟩ <;> split <;> split <;> rfl

/-- Any other grant stands. -/
theorem cancelGrant_of_other {tr : Track} (h : ∀ g, s.dsq.grant = some g → ¬ (g.kind = .jobPass ∧ g.track = tr)) :
    cancelGrant tr s = s := by
  unfold cancelGrant
  split
  · exact if_neg (h _ ‹_›)
  · rfl

theorem DriveKept.cancelGrant (h : DriveKept s) (tr : Track) : DriveKept (cancelGrant tr s) := by
  by_cases held : ∃ g, s.dsq.grant = some g ∧ g.kind = .jobPass ∧ g.track = tr
  · obtain ⟨g, grant, kind, track⟩ := held
    obtain ⟨dsq, rdc, vte⟩ := cancelGrant_of_held grant kind track
    have free : (Machine.cancelGrant tr s).dsq.grant = none := by rw [dsq]
    have work : Abandoned (Machine.cancelGrant tr s) := by
      refine .free free (by rw [rdc]) ?_
      rw [vte]
      split
      · rfl
      · exact h.fits.no_batch grant ‹_›
    have same : SameWithdrawal s.dsq (Machine.cancelGrant tr s).dsq := by rw [dsq]; exact ⟨rfl, rfl, rfl, rfl, rfl⟩
    by_cases busy : s.dsq.state = .reading ∨ s.dsq.state = .voting
    · have state : (Machine.cancelGrant tr s).dsq.state = .idle := by rw [dsq]; exact if_pos busy
      refine ⟨work.fits_withdrawn (by rw [state]; rfl) (by rw [state]; decide), fun _ => by rw [state]; rfl,
        h.fence.of_attached same ?_ (by rw [state]; rfl)⟩
      rcases busy with k | k <;> rw [k] <;> rfl
    · have state : (Machine.cancelGrant tr s).dsq.state = s.dsq.state := by rw [dsq]; exact if_neg busy
      obtain ⟨reading, voting⟩ := not_or.mp busy
      refine ⟨work.fits (by rwa [state]) (by rwa [state]) (.inl free), ?_, h.fence.of_same same state⟩
      rw [(cancelGrant_changes tr).ixm, state]
      exact h.down
  · rw [cancelGrant_of_other fun g grant k => held ⟨g, grant, k⟩]
    exact h

/-! ### Every event -/

theorem DriveKept.event (h : DriveKept s) (e : Event s t) : DriveKept t := by
  cases e with
  | outer k => exact h.beyond k
  | arbitrate => exact h.arbitrate
  | spindle k => exact h.followSpindle k
  | mark r => exact h.takeMark r
  | lateExpiry => exact h.takeLateExpiry
  | seekEnds seeking => exact h.completeSeek seeking
  | recalibrateEnds recalibrating => exact h.completeRecalibrate recalibrating
  | seekFault work =>
    refine h.seekFault ?_
    rcases work with k | k | k | k
    · exact .inl k
    · exact .inr (.inl k)
    · exact .inr (.inr k)
    · obtain ⟨p, pass⟩ := Option.isSome_iff_exists.mp k
      exact .inr (.inr (h.fits.pass p pass).1)
  | fence cause before attached => exact h.raiseFence cause before attached
  | settleEnds settling => exact h.endSettle settling
  | rests ms fenced detached =>
    refine h.begunRest ms ?_
    cases k : s.dsq.state with
    | fenced => exact absurd k fenced
    | detached => exact absurd k detached
    | _ => rfl
  | restEnds resting => exact h.beginRecalibrate (by rw [resting]; rfl) (by rw [resting]; rfl)
  | quietEnds => exact h.quietEnds
  | tally tr i f => exact h.beyond (tallyPass_changes tr i f)
  | channel f pass => exact h.congr rfl pass rfl rfl
  | goodCopy c => exact h.deliverGood c
  | badCopy c => exact h.beyond (deliverBad_stands c s)
  | batchEnds batch => exact h.completeBatch batch
  | cooled _ _ => exact h.beyond (updJob_changes _ _)
  | refresh tr => exact h.congr rfl rfl rfl rfl
  | exported tr => exact h.beyond (updFrame_changes _ _)
  | merged tr => exact h.beyond (updJob_changes _ _)
  | keptJob n _ _ _ => exact h.beyond (createKeptJob_changes _ _ _)
  | framelessJob n _ _ => exact h.beyond (createFramelessJob_changes _ _)
  | cancelled p _ => exact (h.cancelGrant _).beyond (endJob_changes _ _ _ _)
  | geometry g => exact h.of_same rfl rfl ⟨rfl, rfl, rfl, rfl, rfl⟩ rfl rfl rfl
  | drive x range =>
    obtain ⟨fenced, fence, bypass, most, below, -, -, quiet⟩ := h.fence
    obtain ⟨-, -, -, -, least, limit, -⟩ := range
    exact ⟨h.fits.congr rfl rfl rfl rfl, h.down, ⟨fenced, fence, bypass, most, below, least, limit, quiet⟩⟩
  | vote f batch => exact h.congr rfl rfl batch rfl
  | ladder f _ => exact h.congr rfl rfl rfl rfl
  | exportHold b => exact h.congr rfl rfl rfl rfl
  | fenceCleared _ => exact h.fenceCleared
  | bypassed => exact h.bypassOn
  | reattached bypass => exact h.reattachDrive bypass
  | reset => exact h.resetBlocks
  | powerOn => exact .powerOn s

end Sys2Proof.Machine
end

section
/-! PROOF. Every event keeps the position the one last established, and unknown where the drive is not placed
(R22, R34, R38, R40, R42). -/

namespace Sys2Proof.Machine

variable {s t u : State} {g : Grant}

/-- The states in which the position may be known (R22, R34, R40, R42). -/
def DsqState.placed : DsqState → Bool
  | .recalibrating | .resting | .fenced | .detached => false
  | _ => true

theorem positionKept_iff (s : State) : PositionKept s ↔
    (∀ p, s.dsq.position = some p → s.dsq.lastPosition = some p) ∧
      (s.dsq.state.placed = false → s.dsq.position = none) := by
  unfold PositionKept
  cases s.dsq.state <;> simp [DsqState.placed]

/-- A position lost. -/
theorem PositionKept.lost (h : t.dsq.position = none) : PositionKept t :=
  ⟨fun _ k => (nomatch h.symm.trans k), fun _ => h⟩

/-- A position established in a state that may know it. -/
theorem PositionKept.established {p : Position} (position : t.dsq.position = some p)
    (last : t.dsq.lastPosition = some p) (state : t.dsq.state.placed = true) : PositionKept t := by
  refine (positionKept_iff t).mpr ⟨fun p' k => ?_, fun k => (nomatch state.symm.trans k)⟩
  cases position.symm.trans k
  exact last

/-- A position that stands, in the same state or in one that may know it. -/
theorem PositionKept.stands (h : PositionKept s) (position : t.dsq.position = s.dsq.position)
    (last : t.dsq.lastPosition = s.dsq.lastPosition)
    (state : t.dsq.state = s.dsq.state ∨ t.dsq.state.placed = true) : PositionKept t := by
  obtain ⟨known, unknown⟩ := (positionKept_iff s).mp h
  rw [positionKept_iff, position, last]
  refine ⟨known, fun k => ?_⟩
  rcases state with same | placed
  · exact unknown (same ▸ k)
  · cases placed.symm.trans k

theorem PositionKept.congr (h : PositionKept s) (dsq : t.dsq = s.dsq) : PositionKept t :=
  h.stands (by rw [dsq]) (by rw [dsq]) (.inl (by rw [dsq]))

/-- The position is lost, or it stands with the rest of the sequencer going on. -/
theorem PositionKept.enterIdle (h : PositionKept s) : PositionKept (enterIdle s) := by
  refine h.stands rfl rfl (.inr ?_)
  rw [enterIdle_dsq]
  rcases restState_cases s.ixm with k | k <;> rw [k] <;> rfl

theorem PositionKept.beginRecalibrate (s : State) : PositionKept (beginRecalibrate s) :=
  .lost (by rw [beginRecalibrate_dsq])

theorem PositionKept.abandonWork (h : PositionKept s) : PositionKept (abandonWork s) := by
  have dsq := abandonWork_dsq s
  exact h.stands (by rw [dsq]) (by rw [dsq]) (.inl (by rw [dsq]))

theorem PositionKept.endUnpassed (h : PositionKept s) (g : Grant) : PositionKept (endUnpassed g s) := by
  have dsq := endUnpassed_dsq g s
  exact h.stands (by rw [dsq]) (by rw [dsq]) (.inl (by rw [dsq]))

theorem PositionKept.completeBatch (h : PositionKept s) (b : Batch) : PositionKept (completeBatch b s) := by
  have dsq := completeBatch_dsq b s
  refine h.stands (by rw [dsq]) (by rw [dsq]) ?_
  rw [dsq]
  dsimp only
  split
  · exact .inr (by rcases restState_cases s.ixm with k | k <;> rw [k] <;> rfl)
  · exact .inl rfl

theorem PositionKept.countPass (h : PositionKept s) (g : Grant) : PositionKept (countPass g s) := by
  obtain ⟨-, ⟨dsq, -⟩ | ⟨-, dsq, -⟩⟩ := countPass_cases g s
  all_goals refine h.stands (by rw [dsq]) (by rw [dsq]) (.inr ?_)
  all_goals rw [dsq]
  · rcases restState_cases s.ixm with k | k <;> rw [k] <;> rfl
  · rfl

theorem PositionKept.beginSettle (grant : s.dsq.grant = some g) (steady : spindleOf s.ixm ≠ .unstable) :
    PositionKept (beginSettle g s) := by
  rw [beginSettle_steady grant steady]
  refine .established rfl rfl ?_
  rw [State.updDsq_dsq]
  dsimp only
  split <;> rfl

theorem PositionKept.takeUpGrant (h : PositionKept s) (grant : s.dsq.grant = some g)
    (steady : spindleOf s.ixm ≠ .unstable) : PositionKept (takeUpGrant g s) := by
  cases position : s.dsq.position with
  | none => rw [takeUpGrant_of_unknown position]; exact .beginRecalibrate s
  | some p =>
    rw [takeUpGrant_of_known position]
    split
    · exact h.stands rfl rfl (.inr rfl)
    · split
      · exact .beginSettle grant steady
      · exact h.stands rfl rfl (.inr rfl)

theorem PositionKept.arbitrate (h : PositionKept s) : PositionKept (arbitrate s) := by
  rcases arbitrate_cases s with e | ⟨c, -, -, running, -, e⟩ <;> rw [e]
  · exact h
  · have dsq := grantGiven_dsq c s
    have given : PositionKept (grantGiven c s) := h.stands (by rw [dsq]) (by rw [dsq]) (.inl (by rw [dsq]))
    exact given.takeUpGrant (by rw [dsq]) (by rw [(grantGiven_changes c s).ixm, running]; decide)

theorem PositionKept.followSpindle (h : PositionKept s) (old : Spindle) : PositionKept (followSpindle old s) := by
  by_cases same : old = spindleOf s.ixm
  · rwa [same, followSpindle_same rfl]
  rcases spindle_cases s.ixm with down | unstable | running
  · rw [followSpindle_of_down (Ne.symm same) down]
    rcases followDown_cases s with ⟨-, e⟩ | ⟨-, e⟩ | ⟨-, e⟩ | ⟨-, e⟩ <;> rw [e]
    · exact h.stands rfl rfl (.inr rfl)
    · exact .lost rfl
    · exact h.abandonWork.stands rfl rfl (.inr rfl)
    · exact h
  · rw [followSpindle_unstable (Ne.symm same) unstable]
    by_cases reading : s.dsq.state = .reading
    · rw [followUnstable_of_reading reading]
      exact h.abandonWork.stands rfl rfl (.inr rfl)
    · rwa [followUnstable_of_not_reading reading]
  · rw [followSpindle_of_running (Ne.symm same) running]
    rcases followRunning_cases s with e | ⟨-, e⟩ <;> rw [e]
    · exact h
    · exact .beginRecalibrate s

theorem PositionKept.takeMark (h : PositionKept s) (r : Timer) : PositionKept (takeMark r s) := by
  rcases takeMark_cases r s with e | ⟨g, -, -, ⟨-, e⟩ | ⟨-, e⟩⟩ <;> rw [e]
  · exact h
  · exact h.countPass g
  · exact h.stands rfl rfl (.inl rfl)

theorem PositionKept.takeLateExpiry (h : PositionKept s) : PositionKept (takeLateExpiry s) := by
  rcases takeLateExpiry_cases s with e | ⟨g, -, -, -, e⟩ <;> rw [e]
  · exact h
  · exact h.countPass g

theorem reachTarget_cases (d : Dsq) : d.reachTarget = d ∨ ∃ p, d.reachTarget = d.establish p := by
  unfold Dsq.reachTarget
  split
  · exact .inr ⟨_, rfl⟩
  · exact .inl rfl

theorem PositionKept.seekArrived (h : PositionKept s) (seeking : s.dsq.state = .seeking) :
    PositionKept (seekArrived s) := by
  have dsq := seekArrived_dsq s
  have state : (Machine.seekArrived s).dsq.state.placed = true := by rw [dsq, seeking]; rfl
  rcases reachTarget_cases s.dsq with e | ⟨p, e⟩ <;> rw [e] at dsq
  · exact h.stands (by rw [dsq]) (by rw [dsq]) (.inr state)
  · exact .established (p := p) (by rw [dsq]; rfl) (by rw [dsq]; rfl) state

theorem PositionKept.completeSeek (h : PositionKept s) (seeking : s.dsq.state = .seeking) :
    PositionKept (completeSeek s) := by
  have arrived := h.seekArrived seeking
  cases grant : s.dsq.grant with
  | none => rw [completeSeek_of_free grant]; exact arrived.enterIdle
  | some g =>
    by_cases unstable : spindleOf s.ixm = .unstable
    · rw [completeSeek_of_unstable grant unstable]; exact (arrived.endUnpassed g).enterIdle
    · rw [completeSeek_of_steady grant unstable]
      exact .beginSettle (by rw [seekArrived_dsq]; exact grant) unstable

/-- At 0/0 the sequencer leaves RECALIBRATING whichever way the grant goes on. -/
theorem PositionKept.completeRecalibrate (s : State) : PositionKept (completeRecalibrate s) := by
  have idle {v : State} (position : v.dsq.position = some ⟨0, 0, 0⟩) (last : v.dsq.lastPosition = some ⟨0, 0, 0⟩) :
      PositionKept (Machine.enterIdle v) := by
    refine .established position last ?_
    rw [enterIdle_dsq]
    rcases restState_cases v.ixm with k | k <;> rw [k] <;> rfl
  have ended (g : Grant) : PositionKept (Machine.enterIdle (Machine.endUnpassed g (recalibrateArrived s))) := by
    have dsq := endUnpassed_dsq g (recalibrateArrived s)
    exact idle (by rw [dsq]; rfl) (by rw [dsq]; rfl)
  have free : PositionKept (Machine.enterIdle (recalibrateArrived s)) := idle rfl rfl
  cases grant : s.dsq.grant with
  | none => rwa [completeRecalibrate_of_free grant]
  | some g =>
    by_cases phase : g.phase = .approach
    · rw [completeRecalibrate_of_approach grant phase]
      cases after : g.after with
      | counted =>
        rw [resumeGrant_of_counted after]
        obtain ⟨-, ⟨dsq, -⟩ | ⟨-, dsq, -⟩⟩ := countPass_cases g (recalibrateArrived s)
        all_goals refine .established (p := ⟨0, 0, 0⟩) (by rw [dsq]; rfl) (by rw [dsq]; rfl) ?_
        all_goals rw [dsq]
        · rcases restState_cases (recalibrateArrived s).ixm with k | k <;> rw [k] <;> rfl
        · rfl
      | finish => rw [resumeGrant_of_ended (.inl after)]; exact ended g
      | retake =>
        by_cases unstable : spindleOf (recalibrateArrived s).ixm = .unstable
        · rw [resumeGrant_of_ended (.inr ⟨after, unstable⟩)]; exact ended g
        · rw [resumeGrant_of_retake after unstable, takeUpGrant_of_known (p := ⟨0, 0, 0⟩) rfl]
          split
          · exact .established (p := ⟨0, 0, 0⟩) rfl rfl rfl
          · split
            · exact .beginSettle grant unstable
            · exact .established (p := ⟨0, 0, 0⟩) rfl rfl rfl
    · rwa [completeRecalibrate_of_past grant phase]

theorem PositionKept.raiseFence (h : PositionKept s) (cause : FenceCause) (before : State) :
    PositionKept (raiseFence cause before s) := by
  cases fence : s.dsq.fence with
  | some x => rwa [raiseFence_of_fenced (by rw [fence]; rfl)]
  | none => rw [raiseFence_of_free fence]; exact .lost rfl

theorem PositionKept.seekFault (h : PositionKept s) : PositionKept (seekFault s) := by
  by_cases reached : s.dsq.set.fenceLimit ≤ s.dsq.faults + 1
  · rw [seekFault_of_limit reached]
    exact PositionKept.raiseFence (s := faultCounted s) (h.stands rfl rfl (.inl rfl)) _ _
  · rw [seekFault_of_below (Nat.lt_of_not_le reached)]
    exact .beginRecalibrate _

theorem PositionKept.endSettle (h : PositionKept s) : PositionKept (endSettle s) := by
  have ended : PositionKept (clearOperation s) := h.stands rfl rfl (.inl rfl)
  cases grant : s.dsq.grant with
  | none => rw [endSettle_of_free grant]; exact ended.enterIdle
  | some g =>
    by_cases unstable : spindleOf s.ixm = .unstable
    · rw [endSettle_of_unstable grant unstable]; exact (ended.endUnpassed g).enterIdle
    · rw [endSettle_of_steady grant unstable]; exact ended.stands rfl rfl (.inr rfl)

theorem PositionKept.reattachDrive (s : State) : PositionKept (reattachDrive s) := by
  have opened : (relayOpened s).dsq.position = none := rfl
  have raised (cause : FenceCause) (before : State) : PositionKept (Machine.raiseFence cause before (relayOpened s)) :=
    PositionKept.raiseFence (.lost opened) cause before
  unfold Machine.reattachDrive
  dsimp only
  split
  · exact .lost opened
  · split
    · exact raised _ _
    · split
      · exact raised _ _
      · exact .beginRecalibrate _

theorem PositionKept.cancelGrant (h : PositionKept s) (tr : Track) : PositionKept (cancelGrant tr s) := by
  by_cases held : ∃ g, s.dsq.grant = some g ∧ g.kind = .jobPass ∧ g.track = tr
  · obtain ⟨g, grant, kind, track⟩ := held
    obtain ⟨dsq, -⟩ := cancelGrant_of_held grant kind track
    refine h.stands (by rw [dsq]) (by rw [dsq]) ?_
    rw [dsq]
    dsimp only
    split
    · exact .inr rfl
    · exact .inl rfl
  · rw [cancelGrant_of_other fun g grant k => held ⟨g, grant, k⟩]
    exact h

theorem PositionKept.event (h : PositionKept s) (e : Event s t) : PositionKept t := by
  cases e with
  | outer k => exact h.congr k.dsq
  | arbitrate => exact h.arbitrate
  | spindle k => exact (h.congr k.dsq).followSpindle _
  | mark r => exact h.takeMark r
  | lateExpiry => exact h.takeLateExpiry
  | seekEnds seeking => exact h.completeSeek seeking
  | recalibrateEnds _ => exact .completeRecalibrate s
  | seekFault _ => exact h.seekFault
  | fence cause before _ => exact h.raiseFence cause before
  | settleEnds _ => exact h.endSettle
  | rests ms _ _ => exact .lost rfl
  | restEnds _ => exact .beginRecalibrate s
  | quietEnds => exact h.stands rfl rfl (.inl rfl)
  | tally tr i f => exact h.congr (tallyPass_changes tr i f).dsq
  | channel f pass => exact h.congr rfl
  | goodCopy c =>
    have dsq := (deliverGood_drive c s).1
    exact h.stands (by rw [dsq]) (by rw [dsq]) (.inl (by rw [dsq]))
  | badCopy c => exact h.congr (deliverBad_stands c s).dsq
  | batchEnds _ => exact h.completeBatch _
  | cooled _ _ => exact h.congr (updJob_changes _ _).dsq
  | refresh tr => exact h.congr rfl
  | exported tr => exact h.congr rfl
  | merged tr => exact h.congr (updJob_changes _ _).dsq
  | keptJob n _ _ _ => exact h.congr (createKeptJob_changes _ _ _).dsq
  | framelessJob n _ _ => exact h.congr (createFramelessJob_changes _ _).dsq
  | cancelled p _ => exact (h.cancelGrant _).congr (endJob_changes _ _ _ _).dsq
  | geometry g =>
    obtain ⟨known, unknown⟩ := h
    have within {p : Position} (k : keepPosition g s.dsq.position = some p) : s.dsq.position = some p :=
      Option.eq_some_of_filter_eq_some k
    exact ⟨fun p k => known p (within k), fun k => by
      show keepPosition g s.dsq.position = none
      rw [unknown k]
      rfl⟩
  | drive x _ => exact h.stands rfl rfl (.inl rfl)
  | vote f _ => exact h.congr rfl
  | ladder f _ => exact h.congr rfl
  | exportHold b => exact h.congr rfl
  | fenceCleared _ =>
    split
    · exact .beginRecalibrate _
    · exact h.stands rfl rfl (.inl rfl)
  | bypassed => exact .lost rfl
  | reattached _ => exact .reattachDrive s
  | reset => exact .lost rfl
  | powerOn => exact .lost rfl

end Sys2Proof.Machine

open Sys2Proof Sys2Proof.Machine

/-- Settles O10: every command is a sequence of events of the drive, and each event keeps the two invariants of the
grant and the fence together, and the position's by itself. -/
theorem stepKeepsDriveConsistent : Obligations.StepKeepsDriveConsistent := by
  refine ⟨fun s t grant fence e => (driveKept_iff t).mp ?_, fun s t h e => ?_⟩
  · exact step_keeps_of_events (fun _ _ h => h.congr rfl rfl rfl rfl) DriveKept.event
      ((driveKept_iff s).mpr ⟨grant, fence⟩) e
  · exact step_keeps_of_events (fun _ _ h => h.congr rfl) PositionKept.event h e

end

section
/-! PROOF. The queue and the store seen track by track: what each operation does to the jobs on a track and to its frame
(R93, R108, R113). -/

namespace Sys2Proof.Machine

variable {s t u : State} {tr tr' : Track} {held : Prop} {j : Job}

/-! ### The jobs on a track -/

/-- The jobs on a track, of which the queue holds at most one (R93). -/
def jobsOn (tr : Track) (s : State) : List Job :=
  s.jbq.jobs.filter fun j => j.track == tr

theorem mem_jobsOn : j ∈ jobsOn tr s ↔ j ∈ s.jbq.jobs ∧ j.track = tr := by
  simp [jobsOn]

theorem jobOf_eq_head? (tr : Track) (s : State) : jobOf tr s = (jobsOn tr s).head? := by
  rw [jobsOn, List.head?_filter]
  rfl

theorem mem_jobsOn_of_jobOf (h : jobOf tr s = some j) : j ∈ jobsOn tr s := by
  rw [jobOf_eq_head?] at h
  exact List.mem_of_head? h

theorem jobsOn_of_no_job (h : jobOf tr s = none) : jobsOn tr s = [] := by
  rwa [jobOf_eq_head?, List.head?_eq_none_iff] at h

theorem jobOf_isSome_iff : (jobOf tr s).isSome ↔ jobsOn tr s ≠ [] := by
  rw [jobOf_eq_head?]
  simp

theorem jobsOn_congr (h : t.jbq.jobs = s.jbq.jobs) : jobsOn tr t = jobsOn tr s := by
  rw [jobsOn, h, jobsOn]

theorem jobsOn_updJob {f : Job → Job} (hf : ∀ j, j.track = tr → (f j).track = tr) :
    jobsOn tr (updJob tr f s) = (jobsOn tr s).map f := by
  unfold jobsOn updJob
  rw [State.updJbq_jbq]
  dsimp only
  induction s.jbq.jobs with
  | nil => rfl
  | cons j js ih =>
    by_cases k : j.track = tr
    · simp [k, hf j k, ih]
    · simp [k, ih]

theorem jobsOn_updJob_ne {f : Job → Job} (hf : ∀ j, j.track = tr → (f j).track = tr) (h : tr' ≠ tr) :
    jobsOn tr' (updJob tr f s) = jobsOn tr' s := by
  unfold jobsOn updJob
  rw [State.updJbq_jbq]
  dsimp only
  induction s.jbq.jobs with
  | nil => rfl
  | cons j js ih =>
    by_cases k : j.track = tr
    · simp [k, hf j k, h.symm, ih]
    · simp [List.filter_cons, k, ih]

theorem jobsOn_removeJob : jobsOn tr (removeJob tr s) = [] := by
  simp [jobsOn, removeJob]

theorem jobsOn_removeJob_ne (h : tr' ≠ tr) : jobsOn tr' (removeJob tr s) = jobsOn tr' s := by
  simp only [jobsOn, removeJob, State.updJbq_jbq, List.filter_filter]
  refine List.filter_congr fun j _ => ?_
  by_cases k : j.track = tr' <;> simp [k, h]

theorem jobsOn_addJob : jobsOn j.track (addJob j s) = jobsOn j.track s ++ [j] := by
  simp [jobsOn, addJob]

theorem jobsOn_addJob_ne (h : tr ≠ j.track) : jobsOn tr (addJob j s) = jobsOn tr s := by
  simp [jobsOn, addJob, h.symm]

/-! ### What the queue's consistency reads of a track -/

/-- What the jobs' consistency reads of a job. -/
def Job.facet (j : Job) : JobState × Origin × Bool × Option Expiry :=
  (j.state, j.origin, j.holdsFrame, j.cooldown)

/-- The track has no frame with a FAILED sector. -/
def Unfailed (tr : Track) (s : State) : Prop :=
  ∀ f, frameOf tr s = some f → ∀ r ∈ f.sectors, r.isFailed = false

/-- On a track, the jobs and the frame stand but for what their consistency does not read. -/
structure TrackAlike (tr : Track) (s t : State) : Prop where
  jobs : (jobsOn tr t).map Job.facet = (jobsOn tr s).map Job.facet
  frame : (frameOf tr t).isSome = (frameOf tr s).isSome
  unfailed : Unfailed tr s → Unfailed tr t

theorem TrackAlike.refl (tr : Track) (s : State) : TrackAlike tr s s :=
  ⟨rfl, rfl, id⟩

theorem TrackAlike.trans (h : TrackAlike tr s t) (k : TrackAlike tr t u) : TrackAlike tr s u :=
  ⟨k.jobs.trans h.jobs, k.frame.trans h.frame, k.unfailed ∘ h.unfailed⟩

theorem TrackAlike.of_same (jobs : jobsOn tr t = jobsOn tr s) (frame : frameOf tr t = frameOf tr s) :
    TrackAlike tr s t :=
  ⟨by rw [jobs], by rw [frame], by unfold Unfailed; rw [frame]; exact id⟩

/-- On every track. -/
def Alike (s t : State) : Prop :=
  ∀ tr, TrackAlike tr s t

/-- On every track but one. -/
def AlikeBeyond (tr : Track) (s t : State) : Prop :=
  ∀ tr', tr' ≠ tr → TrackAlike tr' s t

theorem Alike.refl (s : State) : Alike s s :=
  fun tr => .refl tr s

theorem Alike.trans (h : Alike s t) (k : Alike t u) : Alike s u :=
  fun tr => (h tr).trans (k tr)

theorem Alike.ite {p : Prop} [Decidable p] (h : Alike s t) (k : Alike s u) : Alike s (if p then t else u) := by
  split <;> assumption

theorem Alike.beyond (h : Alike s t) : AlikeBeyond tr s t :=
  fun tr' _ => h tr'

theorem AlikeBeyond.refl (tr : Track) (s : State) : AlikeBeyond tr s s :=
  (Alike.refl s).beyond

theorem AlikeBeyond.trans (h : AlikeBeyond tr s t) (k : AlikeBeyond tr t u) : AlikeBeyond tr s u :=
  fun tr' ne => (h tr' ne).trans (k tr' ne)

theorem Alike.congr (jobs : t.jbq.jobs = s.jbq.jobs) (frames : t.tks.frames = s.tks.frames) : Alike s t :=
  fun tr => .of_same (jobsOn_congr jobs) (frameOf_congr tr frames)

theorem ChangesOnly.alike {bs : List Block} (h : ChangesOnly bs s t) (jbq : .jbq ∉ bs := by decide)
    (tks : .tks ∉ bs := by decide) : Alike s t :=
  .congr (by rw [h.jbq jbq]) (by rw [h.tks tks])

/-! ### The operations on jobs -/

/-- A job changed in what the consistency does not read. -/
theorem updJob_alike {f : Job → Job} (track : ∀ j, (f j).track = j.track) (facet : ∀ j, (f j).facet = j.facet) :
    Alike s (updJob tr f s) := fun tr' => by
  have hf : ∀ j : Job, j.track = tr → (f j).track = tr := fun j k => (track j).trans k
  by_cases k : tr' = tr
  · refine ⟨?_, rfl, id⟩
    rw [k, jobsOn_updJob hf, List.map_map]
    exact List.map_congr_left fun j _ => facet j
  · exact .of_same (jobsOn_updJob_ne hf k) rfl

theorem updJob_beyond {f : Job → Job} (hf : ∀ j, j.track = tr → (f j).track = tr) :
    AlikeBeyond tr s (updJob tr f s) :=
  fun _ ne => .of_same (jobsOn_updJob_ne hf ne) rfl

theorem removeJob_beyond : AlikeBeyond tr s (removeJob tr s) :=
  fun _ ne => .of_same (jobsOn_removeJob_ne ne) rfl

theorem addJob_beyond : AlikeBeyond j.track s (addJob j s) :=
  fun _ ne => .of_same (jobsOn_addJob_ne ne) rfl

/-! ### The operations on frames -/

theorem updFrame_beyond {f : Frame → Frame} (hf : ∀ x, (f x).track = x.track) : AlikeBeyond tr s (updFrame tr f s) :=
  fun _ ne => .of_same rfl (frameOf_updFrame_ne f hf ne)

/-- A frame changed, with no sector made FAILED. -/
theorem updFrame_alike {f : Frame → Frame} (hf : ∀ x, (f x).track = x.track)
    (failed : ∀ x, (∀ r ∈ x.sectors, r.isFailed = false) → ∀ r ∈ (f x).sectors, r.isFailed = false) :
    Alike s (updFrame tr f s) := fun tr' => by
  by_cases k : tr' = tr
  · subst k
    refine ⟨rfl, by rw [frameOf_updFrame _ f hf, Option.isSome_map], fun unfailed x found => ?_⟩
    rw [frameOf_updFrame _ f hf] at found
    obtain ⟨y, before, rfl⟩ := Option.map_eq_some_iff.mp found
    exact failed y (unfailed y before)
  · exact updFrame_beyond hf tr' k

/-- A sector changed, to none that is FAILED. -/
theorem updSector_unfailed {i : Nat} {f : SectorRec → SectorRec} (hf : ∀ r, r.isFailed = false → (f r).isFailed = false)
    (x : Frame) (h : ∀ r ∈ x.sectors, r.isFailed = false) : ∀ r ∈ (x.updSector i f).sectors, r.isFailed = false := by
  intro r mem
  obtain ⟨n, bound, rfl⟩ := List.getElem_of_mem mem
  simp only [Frame.updSector, List.length_modify, List.getElem_modify] at bound ⊢
  split
  · exact hf _ (h _ (List.getElem_mem bound))
  · exact h _ (List.getElem_mem bound)

theorem releaseFrame_beyond : AlikeBeyond tr s (releaseFrame tr s) :=
  fun _ ne => .of_same rfl (frameOf_releaseFrame_ne ne)

/-- The use order is not what a track's frame is found by (R123). -/
theorem frameOf_refreshFrame (tr tr' : Track) (s : State) : frameOf tr' (refreshFrame tr s) = frameOf tr' s := by
  unfold frameOf refreshFrame
  rw [State.updTks_tks]
  dsimp only
  rw [List.find?_append]
  by_cases k : tr' = tr
  · subst k
    rw [find_remove_self Frame.track, Option.none_or, List.find?_filter]
    exact List.find?_congr fun f _ => by simp [beq_eq_decide]
  · have none : (s.tks.frames.filter fun f => f.track == tr).find? (fun f => f.track == tr') = none := by
      simp only [List.find?_eq_none, List.mem_filter, beq_iff_eq]
      rintro f ⟨-, here⟩ there
      exact k (there.symm.trans here)
    rw [find_remove_ne Frame.track _ k, none, Option.or_none]

theorem refreshFrame_alike (tr : Track) (s : State) : Alike s (refreshFrame tr s) :=
  fun tr' => .of_same rfl (frameOf_refreshFrame tr tr' s)

/-! ### The ends of jobs and of their passes (R105, R106, R108) -/

theorem endFrame_beyond : AlikeBeyond j.track s (endFrame j s) := by
  unfold endFrame
  split
  · split
    · exact releaseFrame_beyond
    · exact updFrame_beyond fun x => (failSectors_keeps _ x).1
  · exact .refl _ s

theorem endJob_beyond (k : JobEnd) (p q : Bool) (j : Job) (s : State) : AlikeBeyond j.track s (endJob k p q j s) := by
  have copies : Alike (endFrame j s) (endCopies j (endFrame j s)) := (updCps_changes _).alike
  have entry := (closeEntry_changes (s := endCopies j (endFrame j s)) j.track (fallsWith j) (endReason k j)
    (copyCount s j.track) p q).alike
  exact ((endFrame_beyond.trans copies.beyond).trans (entry.trans (updRct_changes _).alike).beyond).trans
    removeJob_beyond

theorem jobsOn_endJob (k : JobEnd) (p q : Bool) (j : Job) (s : State) : jobsOn j.track (endJob k p q j s) = [] :=
  jobsOn_removeJob

/-- A job without a frame leaves the frames as they are. -/
theorem endJob_frames {k : JobEnd} {p q : Bool} (h : j.holdsFrame = false) :
    (endJob k p q j s).tks = s.tks := by
  have frame : endFrame j s = s := by simp [endFrame, h]
  unfold endJob
  rw [frame]
  have closed := (closeEntry_changes (s := endCopies j s) j.track (fallsWith j) (endReason k j)
    (copyCount s j.track) p q).tks
  exact closed

end Sys2Proof.Machine
end

section
/-! PROOF. Every step keeps the jobs consistent: ACTIVE exactly while granted, and the frames of jobs and grants held
(R45, R93, R94). -/

namespace Sys2Proof.Machine

variable {s t u : State} {g : Grant} {k : GrantKind} {tr tr' : Track} {held : Prop} {j : Job}

/-! ### What the invariant says, track by track -/

/-- A job is in keeping with the grant and with the frame of its track. -/
structure JobFits (held : Prop) (framed : Bool) (j : Job) : Prop where
  active : j.state = .active ↔ held
  owns : j.origin ≠ .station → j.holdsFrame = true
  frame : j.holdsFrame = true → framed = true
  queued : j.holdsFrame = false → j.state = .queued
  cooling : j.state = .cooling ↔ j.cooldown.isSome

/-- A track has at most one job, and that job is in keeping. -/
structure TrackFits (held : Prop) (tr : Track) (s : State) : Prop where
  one : (jobsOn tr s).length ≤ 1
  fits : ∀ j ∈ jobsOn tr s, JobFits held (frameOf tr s).isSome j

/-- The grant, as the jobs' consistency reads it. -/
def granted (s : State) : Option (GrantKind × Track) :=
  s.dsq.grant.map fun g => (g.kind, g.track)

/-- A grant of this kind can be served on the track. -/
structure Serves (k : GrantKind) (tr : Track) (s : State) : Prop where
  frame : (frameOf tr s).isSome
  job : k = .jobPass → jobsOn tr s ≠ []
  plain : k ≠ .jobPass → Unfailed tr s ∧ ∀ j ∈ jobsOn tr s, j.holdsFrame = false

/-- The invariant under a grant given apart from the state. -/
structure JobsFit (s : State) : Prop where
  tracks : ∀ tr, TrackFits (granted s = some (.jobPass, tr)) tr s
  serves : ∀ k tr, granted s = some (k, tr) → Serves k tr s

/-- Every job is in keeping with no grant standing. -/
def JobsIdle (s : State) : Prop :=
  ∀ tr, TrackFits False tr s

theorem granted_of_some (h : s.dsq.grant = some g) : granted s = some (g.kind, g.track) := by
  rw [granted, h]
  rfl

theorem granted_of_none (h : s.dsq.grant = none) : granted s = none := by
  rw [granted, h]
  rfl

theorem passHeld_iff (tr : Track) :
    granted s = some (.jobPass, tr) ↔ ∃ g, s.dsq.grant = some g ∧ g.kind = .jobPass ∧ g.track = tr := by
  simp [granted]

theorem JobsFit.of_jobsKept (h : JobsKept s) (nodup : (s.jbq.jobs.map Job.track).Nodup) : JobsFit s := by
  obtain ⟨jobs, grant⟩ := h
  refine ⟨fun tr => ⟨?_, fun j mem => ?_⟩, fun k tr given => ?_⟩
  · have only : ((jobsOn tr s).map Job.track).Nodup := nodup.sublist (List.filter_sublist.map _)
    have same : (jobsOn tr s).map Job.track = List.replicate (jobsOn tr s).length tr := by
      rw [List.eq_replicate_iff]
      refine ⟨List.length_map _, fun b mem => ?_⟩
      obtain ⟨j, here, rfl⟩ := List.mem_map.mp mem
      exact (mem_jobsOn.mp here).2
    rw [same] at only
    exact List.nodup_replicate.mp only
  · obtain ⟨queue, rfl⟩ := mem_jobsOn.mp mem
    obtain ⟨active, owns, frame, queued, cooling⟩ := jobs j queue
    exact ⟨active.trans (passHeld_iff _).symm, owns, frame, queued, cooling⟩
  · obtain ⟨g, held, same⟩ := Option.map_eq_some_iff.mp given
    cases same
    obtain ⟨f, frame, job, plain⟩ := grant g held
    refine ⟨by rw [frame]; rfl, fun kind => jobOf_isSome_iff.mp (job kind), fun kind => ?_⟩
    obtain ⟨failed, free⟩ := plain kind
    refine ⟨fun f' frame' => ?_, fun j mem => ?_⟩
    · cases frame.symm.trans frame'
      exact failed
    · obtain ⟨queue, track⟩ := mem_jobsOn.mp mem
      exact free j queue track

theorem JobsFit.jobsKept (h : JobsFit s) : JobsKept s := by
  refine ⟨fun j mem => ?_, fun g given => ?_⟩
  · obtain ⟨active, owns, frame, queued, cooling⟩ := (h.tracks j.track).fits j (mem_jobsOn.mpr ⟨mem, rfl⟩)
    exact ⟨active.trans (passHeld_iff _), owns, frame, queued, cooling⟩
  · obtain ⟨frame, job, plain⟩ := h.serves g.kind g.track (granted_of_some given)
    obtain ⟨f, found⟩ := Option.isSome_iff_exists.mp frame
    refine ⟨f, found, fun kind => jobOf_isSome_iff.mpr (job kind), fun kind => ?_⟩
    obtain ⟨unfailed, free⟩ := plain kind
    exact ⟨unfailed f found, fun j mem track => free j (mem_jobsOn.mpr ⟨mem, track⟩)⟩

/-! ### What stands where jobs and frames stand -/

theorem TrackFits.iff_held {held' : Prop} (h : TrackFits held tr s) (same : held ↔ held') : TrackFits held' tr s := by
  rwa [← propext same]

theorem TrackFits.none (h : jobsOn tr s = []) : TrackFits held tr s := by
  refine ⟨by rw [h]; exact Nat.zero_le 1, fun j mem => ?_⟩
  rw [h] at mem
  cases mem

theorem TrackFits.alike (h : TrackFits held tr s) (k : TrackAlike tr s t) : TrackFits held tr t := by
  obtain ⟨jobs, frame, -⟩ := k
  refine ⟨?_, fun j mem => ?_⟩
  · have lengths := congrArg List.length jobs
    rw [List.length_map, List.length_map] at lengths
    rw [lengths]
    exact h.one
  · have facet := List.mem_map_of_mem (f := Job.facet) mem
    rw [jobs] at facet
    obtain ⟨i, mem, same⟩ := List.mem_map.mp facet
    obtain ⟨active, owns, framed, queued, cooling⟩ := h.fits i mem
    simp only [Job.facet, Prod.mk.injEq] at same
    obtain ⟨state, origin, holds, cooldown⟩ := same
    rw [state] at active queued cooling
    rw [origin, holds] at owns
    rw [holds] at framed queued
    rw [cooldown] at cooling
    rw [frame]
    exact ⟨active, owns, framed, queued, cooling⟩

theorem Serves.alike (h : Serves k tr s) (same : TrackAlike tr s t) : Serves k tr t := by
  obtain ⟨jobs, frame, unfailed⟩ := same
  refine ⟨frame ▸ h.frame, fun kind none => h.job kind ?_, fun kind => ?_⟩
  · rw [none] at jobs
    exact List.map_eq_nil_iff.mp jobs.symm
  · obtain ⟨before, free⟩ := h.plain kind
    refine ⟨unfailed before, fun j mem => ?_⟩
    have facet := List.mem_map_of_mem (f := Job.facet) mem
    rw [jobs] at facet
    obtain ⟨i, mem, same⟩ := List.mem_map.mp facet
    simp only [Job.facet, Prod.mk.injEq] at same
    exact same.2.2.1 ▸ free i mem

theorem JobsFit.alike (h : JobsFit s) (same : Alike s t) (grant : granted t = granted s) : JobsFit t := by
  refine ⟨fun tr => ?_, fun k tr given => ?_⟩
  · rw [grant]
    exact (h.tracks tr).alike (same tr)
  · rw [grant] at given
    exact (h.serves k tr given).alike (same tr)

theorem JobsIdle.alike (h : JobsIdle s) (same : Alike s t) : JobsIdle t :=
  fun tr => (h tr).alike (same tr)

/-- Jobs, frames and grant as they stood. -/
theorem JobsFit.congr (h : JobsFit s) (grant : granted t = granted s) (jobs : t.jbq.jobs = s.jbq.jobs)
    (frames : t.tks.frames = s.tks.frames) : JobsFit t :=
  h.alike (.congr jobs frames) grant

theorem JobsFit.beyond {bs : List Block} (h : JobsFit s) (k : ChangesOnly bs s t) (dsq : .dsq ∉ bs := by decide)
    (jbq : .jbq ∉ bs := by decide) (tks : .tks ∉ bs := by decide) : JobsFit t :=
  h.alike (k.alike jbq tks) (by rw [granted, k.dsq dsq, granted])

/-- Without a grant the queue is idle, and the other way round. -/
theorem JobsFit.idle (h : JobsFit s) (free : s.dsq.grant = none) : JobsIdle s := fun tr =>
  (h.tracks tr).iff_held (by rw [granted_of_none free]; simp)

theorem JobsIdle.fits (h : JobsIdle s) (free : s.dsq.grant = none) : JobsFit s := by
  refine ⟨fun tr => (h tr).iff_held ?_, fun k tr given => ?_⟩
  · rw [granted_of_none free]
    simp
  · rw [granted_of_none free] at given
    cases given

/-- Beyond the track of a grant no job is ACTIVE. -/
theorem JobsFit.idle_beyond (h : JobsFit s) (grant : s.dsq.grant = some g) (ne : tr ≠ g.track) :
    TrackFits False tr s := by
  refine (h.tracks tr).iff_held ?_
  rw [granted_of_some grant]
  simp [ne.symm]

/-- A track taken care of, with the others as they stood without a grant. -/
theorem JobsFit.idle_of_track (h : JobsFit s) (grant : s.dsq.grant = some g) (same : AlikeBeyond g.track s t)
    (track : TrackFits False g.track t) : JobsIdle t := fun tr => by
  by_cases k : tr = g.track
  · rwa [k]
  · exact (h.idle_beyond grant k).alike (same tr k)

theorem JobsIdle.of_track (h : JobsIdle s) (same : AlikeBeyond tr s t) (track : TrackFits False tr t) : JobsIdle t :=
  fun tr' => by
    by_cases k : tr' = tr
    · rwa [k]
    · exact (h tr').alike (same tr' k)

/-- While a fetch is granted no job is ACTIVE. -/
theorem JobsFit.idle_of_fetch (h : JobsFit s) (grant : s.dsq.grant = some g) (kind : g.kind ≠ .jobPass) : JobsIdle s :=
  fun tr => (h.tracks tr).iff_held (by rw [granted_of_some grant]; simp [kind])

/-! ### A job's pass ends (R105, R106) -/

/-- The job on a track holds its frame and does not cool: it may end its pass. -/
def PassReady (tr : Track) (s : State) : Prop :=
  (jobsOn tr s).length ≤ 1 ∧
    ∀ j ∈ jobsOn tr s, j.holdsFrame = true ∧ (frameOf tr s).isSome = true ∧ j.cooldown = none

theorem PassReady.alike (h : PassReady tr s) (same : TrackAlike tr s t) : PassReady tr t := by
  obtain ⟨one, ready⟩ := h
  obtain ⟨jobs, frame, -⟩ := same
  refine ⟨?_, fun j mem => ?_⟩
  · have lengths := congrArg List.length jobs
    rw [List.length_map, List.length_map] at lengths
    rwa [lengths]
  · have facet := List.mem_map_of_mem (f := Job.facet) mem
    rw [jobs] at facet
    obtain ⟨i, mem, same⟩ := List.mem_map.mp facet
    simp only [Job.facet, Prod.mk.injEq] at same
    obtain ⟨-, -, holds, cooldown⟩ := same
    rw [frame, ← holds, ← cooldown]
    exact ready i mem

/-- A granted job may end its pass. -/
theorem TrackFits.passReady (h : TrackFits True tr s) : PassReady tr s := by
  refine ⟨h.one, fun j mem => ?_⟩
  obtain ⟨active, -, frame, queued, cooling⟩ := h.fits j mem
  have state := active.mpr trivial
  have holds : j.holdsFrame = true := by
    cases k : j.holdsFrame with
    | true => rfl
    | false => cases state.symm.trans (queued k)
  refine ⟨holds, frame holds, ?_⟩
  cases k : j.cooldown with
  | none => rfl
  | some e =>
    cases state.symm.trans (cooling.mpr (by rw [k]; rfl))

/-- A job that holds its frame and waits, queued or cooling, is in keeping without a grant. -/
theorem JobFits.waits {framed : Bool} (holds : j.holdsFrame = true) (frame : framed = true)
    (state : j.state = .queued ∧ j.cooldown = none ∨ j.state = .cooling ∧ j.cooldown.isSome) :
    JobFits False framed j := by
  refine ⟨?_, fun _ => holds, fun _ => frame, fun k => (nomatch holds.symm.trans k), ?_⟩ <;>
    rcases state with ⟨k, c⟩ | ⟨k, c⟩ <;> simp [k, c]

/-- The job on a track replaced by one that waits. -/
theorem TrackFits.replaced {f : Job → Job} (one : (jobsOn tr s).length ≤ 1) (hf : ∀ j, j.track = tr → (f j).track = tr)
    (fits : ∀ j ∈ jobsOn tr s, JobFits held (frameOf tr s).isSome (f j)) : TrackFits held tr (updJob tr f s) := by
  refine ⟨by rw [jobsOn_updJob hf, List.length_map]; exact one, fun j mem => ?_⟩
  rw [jobsOn_updJob hf] at mem
  obtain ⟨i, before, rfl⟩ := List.mem_map.mp mem
  exact fits i before

theorem coolJob_waits (e : Expiry) (j : Job) :
    (coolJob e j).track = j.track ∧ (coolJob e j).holdsFrame = j.holdsFrame ∧
      ((coolJob e j).state = .queued ∧ (coolJob e j).cooldown = none ∨
        (coolJob e j).state = .cooling ∧ (coolJob e j).cooldown.isSome) := by
  unfold coolJob
  split
  · exact ⟨rfl, rfl, .inl ⟨rfl, rfl⟩⟩
  · exact ⟨rfl, rfl, .inr ⟨rfl, rfl⟩⟩

theorem endWalk_beyond (j : Job) (s : State) : AlikeBeyond j.track s (endWalk j s) := by
  unfold endWalk
  split
  · exact updJob_beyond fun i k => (coolJob_waits _ i).1.trans k
  · exact endJob_beyond _ _ _ _ _

theorem endWalk_fits (h : PassReady j.track s) : TrackFits False j.track (endWalk j s) := by
  unfold endWalk
  split
  · refine .replaced h.1 (fun i k => (coolJob_waits _ i).1.trans k) fun i mem => ?_
    obtain ⟨-, holds, waits⟩ := coolJob_waits (uptimeExpiry s s.jbq.cooldown) i
    obtain ⟨held, frame, -⟩ := h.2 i mem
    exact .waits (holds.trans held) frame waits
  · exact .none (jobsOn_endJob _ _ _ _ _)

theorem endRecovered_beyond (j : Job) (s : State) : AlikeBeyond j.track s (endRecovered j s) := by
  have offered : ChangesOnly [.evq] s
      (if j.fill && (entryOf j.track s).isNone then offer .jobClean (some j.track) 0 s else s) :=
    .ite (offer_changes _ _ _) (.refl _ _)
  exact offered.alike.beyond.trans (endJob_beyond _ _ _ _ _)

/-- A job that advances takes another's place on its track, or leaves it. -/
theorem advanceJob_cases (tr : Track) (s : State) : advanceJob tr s = s ∧ jobOf tr s = none ∨
    ∃ j, jobOf tr s = some j ∧ (advanceJob tr s = endRecovered j s ∨
      ∃ j' : Job, j'.track = j.track ∧ j'.holdsFrame = j.holdsFrame ∧ j'.cooldown = j.cooldown ∧
        (advanceJob tr s = endWalk j' (updJob tr (fun _ => j') s) ∨
          j'.state = .queued ∧ advanceJob tr s = updJob tr (fun _ => j') s)) := by
  cases job : jobOf tr s with
  | none => exact .inl ⟨by simp [advanceJob, job], rfl⟩
  | some j =>
    refine .inr ⟨j, rfl, ?_⟩
    unfold advanceJob
    rw [job]
    dsimp only
    split
    · exact .inl rfl
    · refine .inr ?_
      split
      · exact ⟨if j.step = 0 then { j with fill := false } else j, by split <;> rfl, by split <;> rfl, by split <;> rfl,
          .inl rfl⟩
      · exact ⟨{ (if j.step = 0 then { j with fill := false } else j) with
            state := .queued, step := _, done := _ }, by split <;> rfl, by split <;> rfl, by split <;> rfl,
          .inr ⟨rfl, rfl⟩⟩

theorem advanceJob_beyond (tr : Track) (s : State) : AlikeBeyond tr s (advanceJob tr s) := by
  rcases advanceJob_cases tr s with ⟨e, -⟩ | ⟨j, job, e | ⟨j', track, -, -, e | ⟨-, e⟩⟩⟩ <;> rw [e]
  · exact .refl _ _
  · rw [← jobOf_track job]
    exact endRecovered_beyond j s
  · have here := track.trans (jobOf_track job)
    exact (updJob_beyond fun _ _ => here).trans (by rw [← here]; exact endWalk_beyond _ _)
  · exact updJob_beyond fun _ _ => track.trans (jobOf_track job)

theorem advanceJob_fits (h : PassReady tr s) : TrackFits False tr (advanceJob tr s) := by
  rcases advanceJob_cases tr s with ⟨e, job⟩ | ⟨j, job, e | ⟨j', track, holds, cooldown, e | ⟨state, e⟩⟩⟩ <;> rw [e]
  · exact .none (jobsOn_of_no_job job)
  · rw [← jobOf_track job]
    exact .none (jobsOn_endJob _ _ _ _ _)
  all_goals
    obtain ⟨held, frame, free⟩ := h.2 j (mem_jobsOn_of_jobOf job)
    have here := track.trans (jobOf_track job)
  · have ready : PassReady tr (updJob tr (fun _ => j') s) := by
      refine ⟨by rw [jobsOn_updJob fun _ _ => here, List.length_map]; exact h.1, fun i mem => ?_⟩
      rw [jobsOn_updJob fun _ _ => here] at mem
      obtain ⟨_, -, rfl⟩ := List.mem_map.mp mem
      exact ⟨holds.trans held, frame, cooldown.trans free⟩
    rw [← here] at ready ⊢
    exact endWalk_fits ready
  · exact .replaced h.1 (fun _ _ => here) fun _ _ => .waits (holds.trans held) frame (.inl ⟨state, cooldown.trans free⟩)

theorem finishJobPass_cases (tr : Track) (s : State) : finishJobPass tr s = s ∧ jobOf tr s = none ∨
    ∃ u, ChangesOnly [.rct, .evq] s u ∧ finishJobPass tr s = advanceJob tr u := by
  unfold finishJobPass
  split
  · exact .inr ⟨_, .ite (recordRefill_changes _) (.refl _ _), rfl⟩
  · exact .inl ⟨rfl, ‹_›⟩

theorem finishJobPass_beyond (tr : Track) (s : State) : AlikeBeyond tr s (finishJobPass tr s) := by
  rcases finishJobPass_cases tr s with ⟨e, -⟩ | ⟨u, recorded, e⟩ <;> rw [e]
  · exact .refl _ _
  · exact recorded.alike.beyond.trans (advanceJob_beyond tr u)

theorem finishJobPass_fits (h : PassReady tr s) : TrackFits False tr (finishJobPass tr s) := by
  rcases finishJobPass_cases tr s with ⟨e, job⟩ | ⟨u, recorded, e⟩ <;> rw [e]
  · exact .none (jobsOn_of_no_job job)
  · have same : Alike s u := recorded.alike
    exact advanceJob_fits (h.alike (same tr))

/-! ### Batches (R79, R80) -/

theorem recoverSector_unfailed (i : Nat) (w : SectorWords) (x : Frame) (h : ∀ r ∈ x.sectors, r.isFailed = false) :
    ∀ r ∈ (recoverSector i w x).sectors, r.isFailed = false :=
  updSector_unfailed (fun _ _ => rfl) x h

theorem deliverMember_alike (b : Batch) (m : Member) (s : State) : Alike s (deliverMember b s m) := by
  have open_ (v : LastVote) : Alike s (deliverOpen b m v s) :=
    (updCps_changes _).alike.trans (updJob_alike (fun _ => rfl) fun _ => rfl)
  unfold deliverMember
  generalize voteOutcome b.minMargin m.copies = outcome
  cases outcome with
  | voted w n =>
    have framed : Alike s (updFrame b.track (recoverSector m.sector w) s) :=
      updFrame_alike (fun _ => rfl) (recoverSector_unfailed m.sector w)
    have closed (v : State) : Alike v (updJob b.track (Job.close m.sector) v) :=
      updJob_alike (fun _ => rfl) fun _ => rfl
    exact (((framed.trans (updCps_changes _).alike).trans (updEntry_changes _ _).alike).trans
      (updRct_changes _).alike).trans (closed _)
  | weak => exact open_ _
  | failedCheck => exact open_ _

theorem deliverBatch_alike (b : Batch) (s : State) : Alike s (deliverBatch b s) := by
  unfold deliverBatch
  generalize b.members = ms
  induction ms generalizing s with
  | nil => exact .refl s
  | cons m ms ih =>
    rw [List.foldl_cons]
    exact (deliverMember_alike b m s).trans (ih (deliverMember b s m))

theorem JobsFit.completeBatch {b : Batch} (h : JobsFit s) (grant : s.dsq.grant = some g) (kind : g.kind = .jobPass)
    (track : g.track = b.track) : JobsFit (completeBatch b s) := by
  have delivered : Alike s ((deliverBatch b s).updVte fun v => { v with batch := none }) :=
    (deliverBatch_alike b s).trans (updVte_changes _).alike
  have ready : PassReady b.track s :=
    ((h.tracks b.track).iff_held (by rw [granted_of_some grant, kind, track]; simp)).passReady
  have finished : JobsIdle (finishJobPass b.track ((deliverBatch b s).updVte fun v => { v with batch := none })) := by
    refine h.idle_of_track grant ?_ ?_
    · rw [track]; exact delivered.beyond.trans (finishJobPass_beyond _ _)
    · rw [track]; exact finishJobPass_fits (ready.alike (delivered b.track))
  refine (finished.alike ?_).fits (by rw [completeBatch_dsq])
  unfold Machine.completeBatch
  dsimp only
  split <;> exact .congr rfl rfl

/-! ### The end of a fetch (R96 to R98) -/

theorem JobsIdle.endJob (h : JobsIdle s) (k : JobEnd) (p q : Bool) (j : Job) : JobsIdle (endJob k p q j s) :=
  h.of_track (endJob_beyond k p q j s) (.none (jobsOn_endJob k p q j s))

theorem JobsIdle.addJob (h : JobsIdle s) (none : jobsOn j.track s = [])
    (fits : JobFits False (frameOf j.track s).isSome j) : JobsIdle (addJob j s) := by
  have on : jobsOn j.track (Machine.addJob j s) = [j] := by rw [jobsOn_addJob, none, List.nil_append]
  refine h.of_track addJob_beyond ⟨by rw [on]; exact Nat.le_refl 1, fun i mem => ?_⟩
  rw [on, List.mem_singleton] at mem
  rwa [mem]

theorem JobsIdle.createFetchedJob (h : JobsIdle s) (kind : GrantKind) (os : List Nat) (frame : (frameOf tr s).isSome)
    (none : jobsOn tr s = []) : JobsIdle (createFetchedJob kind tr os s) := by
  have joined : JobsIdle (Machine.addJob (fetchedJob kind tr os (fetchTallies s)) s) :=
    h.addJob none (.waits rfl frame (.inl ⟨rfl, rfl⟩))
  unfold Machine.createFetchedJob
  dsimp only
  split
  · exact joined.alike (updEntry_changes _ _).alike
  · exact joined.alike (createEntry_changes _ _ _ _ _ _).alike

/-- The job that a fetch has served as the fill of, before its pass ends (R97). -/
def fillServed (kind : GrantKind) (os : List Nat) (s : State) (j : Job) : Job :=
  { j with
    origin := if decide (Config.stationFrames ≤ stationFramesHeld s) then fetchOrigin kind else j.origin
    holdsFrame := true, counter := 1, tallies := os.map (fetchTally (fetchTallies s))
    starved := j.starved || (fetchTallies s).starved }

/-- A fetch that serves as a fill gives the job its frame, and the job then ends its pass (R97). -/
theorem serveFill_eq (kind : GrantKind) (tr : Track) (os : List Nat) (s : State) :
    ∃ u, ChangesOnly [.rct] (updJob tr (fillServed kind os s) s) u ∧ serveFill kind tr os s = finishJobPass tr u :=
  ⟨_, (updEntry_changes _ _).trans (.ite (updEntry_changes _ _) (.refl _ _)), rfl⟩

theorem JobsIdle.serveFill (h : JobsIdle s) (kind : GrantKind) (os : List Nat) (frame : (frameOf tr s).isSome)
    (free : ∀ j ∈ jobsOn tr s, j.holdsFrame = false) : JobsIdle (serveFill kind tr os s) := by
  obtain ⟨u, recorded, e⟩ := serveFill_eq kind tr os s
  have same : Alike (updJob tr (fillServed kind os s) s) u := recorded.alike
  have hf (j : Job) (k : j.track = tr) : (fillServed kind os s j).track = tr := k
  have ready : PassReady tr (updJob tr (fillServed kind os s) s) := by
    refine ⟨by rw [jobsOn_updJob hf, List.length_map]; exact (h tr).one, fun j mem => ?_⟩
    rw [jobsOn_updJob hf] at mem
    obtain ⟨i, before, rfl⟩ := List.mem_map.mp mem
    obtain ⟨-, -, -, queued, cooling⟩ := (h tr).fits i before
    refine ⟨rfl, frame, ?_⟩
    show i.cooldown = none
    cases k : i.cooldown with
    | none => rfl
    | some e => cases (queued (free i before)).symm.trans (cooling.mpr (by rw [k]; rfl))
  rw [e]
  exact h.of_track (((updJob_beyond hf).trans same.beyond).trans (finishJobPass_beyond tr u))
    (finishJobPass_fits (ready.alike (same tr)))

theorem failRecord_frame (os : List Nat) : AlikeBeyond tr s (updFrame tr (failSectors os) s) :=
  updFrame_beyond fun x => (failSectors_keeps os x).1

/-- A fetch that can make no job on a track without one (R98). -/
theorem JobsIdle.failFetch (h : JobsIdle s) (kind : GrantKind) (os : List Nat) (none : jobsOn tr s = []) :
    JobsIdle (failFetch kind tr os s) := by
  have failed : JobsIdle (updFrame tr (failSectors os) s) :=
    h.of_track (failRecord_frame os) (.none none)
  unfold Machine.failFetch
  dsimp only
  refine JobsIdle.alike ?_ ((offer_changes _ _ _).alike.trans (updCps_changes _).alike)
  split
  · exact failed.alike (updEntry_changes _ _).alike
  · exact failed.alike (createEntry_changes _ _ _ _ _ _).alike

theorem JobsIdle.dropFetchTallies (h : JobsIdle s) : JobsIdle (dropFetchTallies s) :=
  h.alike (.congr rfl rfl)

theorem removablePrefetch_mem (h : removablePrefetch s = some j) : j ∈ s.jbq.jobs :=
  List.mem_reverse.mp (List.mem_of_find?_eq_some h)

/-- The end of a fetch whose track has its frame and no job that holds one. -/
theorem JobsIdle.endFetch (h : JobsIdle s) (kind : GrantKind) (frame : (frameOf tr s).isSome)
    (free : ∀ j ∈ jobsOn tr s, j.holdsFrame = false) : JobsIdle (endFetch kind tr s) := by
  unfold Machine.endFetch
  dsimp only
  apply JobsIdle.dropFetchTallies
  split
  · exact h.serveFill kind _ frame free
  · rename_i job
    have none : jobsOn tr s = [] := by
      rw [jobOf_isSome_iff] at job
      exact not_not.mp job
    split
    · exact h.alike (updCps_changes _).alike
    · split
      · exact h.createFetchedJob kind _ frame none
      · split
        · rename_i j removable
          have other : tr ≠ j.track := by
            rintro rfl
            have mem := mem_jobsOn.mpr ⟨removablePrefetch_mem removable, rfl⟩
            rw [none] at mem
            cases mem
          obtain ⟨jobs, framed, -⟩ := endJob_beyond (.cause .cancelled) true false j s tr other
          refine (h.endJob _ _ _ j).createFetchedJob kind _ (framed.trans frame) ?_
          rw [none] at jobs
          exact List.map_eq_nil_iff.mp jobs
        · exact h.failFetch kind _ none

/-! ### The ends of grants (R30 to R35) -/

theorem JobsFit.serves_fetch (h : JobsFit s) (grant : s.dsq.grant = some g) (kind : g.kind ≠ .jobPass) :
    (frameOf g.track s).isSome ∧ ∀ j ∈ jobsOn g.track s, j.holdsFrame = false := by
  obtain ⟨frame, -, plain⟩ := h.serves g.kind g.track (granted_of_some grant)
  exact ⟨frame, (plain kind).2⟩

/-- The job of a grant that ends waits again (R32, R33). -/
theorem JobsFit.requeueJob (h : JobsFit s) (grant : s.dsq.grant = some g) (kind : g.kind = .jobPass)
    (same : Alike s t) : JobsIdle (requeueJob g.track t) := by
  have ready : PassReady g.track t :=
    ((h.tracks g.track).iff_held (by rw [granted_of_some grant, kind]; simp)).passReady.alike (same g.track)
  have hf (j : Job) (k : j.track = g.track) : ({ j with state := .queued } : Job).track = g.track := k
  refine h.idle_of_track grant (same.beyond.trans (updJob_beyond hf)) (.replaced ready.1 hf fun j mem => ?_)
  obtain ⟨holds, frame, cooldown⟩ := ready.2 j mem
  exact .waits holds frame (.inl ⟨rfl, cooldown⟩)

theorem JobsFit.endUnpassed (h : JobsFit s) (grant : s.dsq.grant = some g) : JobsIdle (endUnpassed g s) := by
  by_cases kind : g.kind = .jobPass
  · rw [endUnpassed_job kind]
    exact h.requeueJob grant kind (.congr rfl rfl)
  · have idle : JobsIdle (setGrant none s) := (h.idle_of_fetch grant kind).alike (.congr rfl rfl)
    obtain ⟨frame, free⟩ := h.serves_fetch grant kind
    cases begun : g.begun with
    | true => rw [endUnpassed_begun kind begun]; exact idle.endFetch g.kind frame free
    | false =>
      rw [endUnpassed_fetch kind begun]
      have released : JobsIdle (releaseFrame g.track (setGrant none s)) := by
        refine idle.of_track releaseFrame_beyond ⟨(idle g.track).one, fun j mem => ?_⟩
        obtain ⟨active, owns, -, queued, cooling⟩ := (idle g.track).fits j mem
        exact ⟨active, owns, fun holds => (nomatch holds.symm.trans (free j mem)), queued, cooling⟩
      exact released.alike (.congr rfl rfl)

theorem JobsFit.abortPass (h : JobsFit s) (grant : s.dsq.grant = some g) : JobsIdle (abortPass g s) := by
  by_cases kind : g.kind = .jobPass
  · rw [abortPass_job kind]
    exact h.requeueJob grant kind (.congr rfl rfl)
  · obtain ⟨frame, free⟩ := h.serves_fetch grant kind
    rw [abortPass_fetch kind]
    have idle : JobsIdle (setGrant none (endPassContext s)) := (h.idle_of_fetch grant kind).alike (.congr rfl rfl)
    exact idle.endFetch g.kind frame free

theorem JobsFit.abandonWork (h : JobsFit s) : JobsFit (abandonWork s) := by
  cases grant : s.dsq.grant with
  | none => rw [abandonWork_of_no_grant grant]; exact h.congr rfl rfl rfl
  | some g =>
    cases phase : g.phase with
    | approach =>
      rw [abandonWork_of_approach grant phase]
      exact ((h.endUnpassed grant).fits (by rw [endUnpassed_dsq])).congr rfl rfl rfl
    | inPass =>
      rw [abandonWork_of_inPass grant phase]
      exact ((h.abortPass grant).fits (by rw [abortPass_dsq])).congr rfl rfl rfl
    | voting => rw [abandonWork_of_voting grant phase]; exact h.congr rfl rfl rfl

theorem JobsFit.endGrant (h : JobsFit s) (grant : s.dsq.grant = some g) : JobsFit (enterIdle (Machine.endUnpassed g s)) :=
  ((h.endUnpassed grant).fits (by rw [endUnpassed_dsq])).congr rfl rfl rfl

theorem passTallied_alike (g : Grant) (s : State) : Alike s (passTallied g s) := by
  have counted : Alike s (updJob g.track (fun j => { j with counter := bump 65535 j.counter }) s) :=
    updJob_alike (fun _ => rfl) fun _ => rfl
  exact counted.trans (updEntry_changes _ _).alike

theorem JobsFit.countPass (h : JobsFit s) (grant : s.dsq.grant = some g) : JobsFit (countPass g s) := by
  by_cases kind : g.kind = .jobPass
  · have counted : Machine.countPass g s =
        if (formBatch g (passTallied g (endPassContext s))).members.isEmpty
        then Machine.completeBatch (formBatch g (passTallied g (endPassContext s))) (jobPassEnded g (endPassContext s))
        else jobPassEnded g (endPassContext s) := if_pos kind
    have ended : JobsFit (jobPassEnded g (endPassContext s)) := by
      have before : Alike s (endPassContext s) := .congr rfl rfl
      have after : Alike (passTallied g (endPassContext s)) (jobPassEnded g (endPassContext s)) := .congr rfl rfl
      refine h.alike (before.trans ((passTallied_alike g (endPassContext s)).trans after)) ?_
      rw [granted_of_some grant]
      rfl
    rw [counted]
    split
    · exact ended.completeBatch (g := { g with phase := .voting }) rfl kind rfl
    · exact ended
  · obtain ⟨frame, free⟩ := h.serves_fetch grant kind
    rw [countPass_fetch kind]
    have idle : JobsIdle (setGrant none (endPassContext s)) := (h.idle_of_fetch grant kind).alike (.congr rfl rfl)
    have ended := idle.endFetch g.kind frame free
    exact (ended.fits (by rw [endFetch_dsq]; rfl)).congr rfl rfl rfl

end Sys2Proof.Machine
end

section
/-! PROOF. Arbitration and the other events keep the jobs consistent (R25, R45, R93, R114, R124 to R126). -/

namespace Sys2Proof.Machine

variable {s t u : State} {g : Grant} {k : GrantKind} {tr tr' : Track} {held : Prop} {j : Job} {src : ClaimFrom}

/-! ### Sources and candidates (R25, R124 to R126) -/

/-- A source takes a free slot, or the frame of a track without ending a job (R125, R126). -/
def ClaimFrom.plain : ClaimFrom → Bool
  | .evict _ => false
  | _ => true

/-- A source names a frame that stands, and one that no job owns unless its job is evicted. -/
def Claimable : ClaimFrom → State → Prop
  | .free, _ => True
  | .take tr, s => (frameOf tr s).isSome ∧ ∀ j ∈ jobsOn tr s, j.holdsFrame = false
  | .evict tr, s => (frameOf tr s).isSome

theorem orElse_cases {α : Type} {o : Option α} {f : Unit → Option α} {x : α} (h : o.orElse f = some x) :
    o = some x ∨ f () = some x := by
  cases o with
  | none => exact .inr h
  | some y => exact .inl h

theorem lruWhere_cases {p : Frame → Bool} (h : lruWhere p s = some tr) :
    (frameOf tr s).isSome ∧ ∃ f, f.track = tr ∧ p f = true := by
  obtain ⟨f, found, rfl⟩ := Option.map_eq_some_iff.mp h
  refine ⟨?_, f, rfl, List.find?_some found⟩
  rw [frameOf, List.find?_isSome]
  exact ⟨f, List.mem_of_find?_eq_some found, beq_self_eq_true _⟩

theorem JobsIdle.unowned (h : JobsIdle s) {f : Frame} (free : jobPin s f = false) :
    ∀ j ∈ jobsOn f.track s, j.holdsFrame = false := fun j mem => by
  have only : jobOf f.track s = some j := by
    rw [jobOf_eq_head?]
    match on : jobsOn f.track s with
    | [] => rw [on] at mem; cases mem
    | [i] => rw [on, List.mem_singleton] at mem; rw [mem]; rfl
    | _ :: _ :: _ =>
      have one := (h f.track).one
      rw [on] at one
      exact absurd one (by simp)
  simpa [jobPin, only] using free

theorem JobsIdle.plainSource (h : JobsIdle s) (source : plainSource s = some src) : Claimable src s ∧ src.plain = true := by
  unfold Machine.plainSource at source
  split at source
  · cases source
    exact ⟨trivial, rfl⟩
  · obtain ⟨tr, lru, rfl⟩ := Option.map_eq_some_iff.mp source
    obtain ⟨frame, f, rfl, unpinned⟩ := lruWhere_cases lru
    simp only [Machine.unpinned, Bool.not_eq_true', Bool.or_eq_false_iff] at unpinned
    exact ⟨⟨frame, h.unowned unpinned.1.2⟩, rfl⟩

theorem JobsIdle.demandSource (h : JobsIdle s) (source : demandSource s = some src) : Claimable src s := by
  have evicted {p : Frame → Bool} (taken : (lruWhere p s).map ClaimFrom.evict = some src) : Claimable src s := by
    obtain ⟨tr, lru, rfl⟩ := Option.map_eq_some_iff.mp taken
    exact (lruWhere_cases lru).1
  rcases orElse_cases source with plain | source
  · exact (h.plainSource plain).1
  rcases orElse_cases source with exported | source
  · obtain ⟨tr, lru, rfl⟩ := Option.map_eq_some_iff.mp exported
    obtain ⟨frame, f, rfl, pins⟩ := lruWhere_cases lru
    simp only [Bool.and_eq_true, Bool.not_eq_true'] at pins
    exact ⟨frame, h.unowned pins.2⟩
  · rcases orElse_cases source with prefetched | source
    · exact evicted prefetched
    · exact evicted source

/-- What a candidate for the drive needs of the state. -/
def CandidateFits : Candidate → State → Prop
  | .fetch kind tr src, s => kind ≠ .jobPass ∧ frameOf tr s = none ∧ Claimable src s
  | .job j none, s => j ∈ s.jbq.jobs ∧ j.state = .queued ∧ j.holdsFrame = true
  | .job j (some src), s =>
    j ∈ s.jbq.jobs ∧ j.state = .queued ∧ frameOf j.track s = none ∧ Claimable src s ∧ src.plain = true

theorem JobsIdle.firstJob (h : JobsIdle s) {p : Job → Bool} {c : Candidate} (first : firstJob s p = some c) :
    CandidateFits c s := by
  obtain ⟨j, mem, eligible⟩ := List.exists_of_findSome?_eq_some first
  have queue := List.mem_of_mem_filter mem
  unfold jobCandidate at eligible
  split at eligible
  · cases eligible
  · rename_i queued
    rw [not_not] at queued
    split at eligible
    · cases eligible
      exact ⟨queue, queued, ‹_›⟩
    · split at eligible
      · cases eligible
      · rename_i frame
        obtain ⟨src, source, rfl⟩ := Option.map_eq_some_iff.mp eligible
        unfold stationSource at source
        split at source
        · exact ⟨queue, queued, by simpa using frame, h.plainSource source⟩
        · cases source

theorem JobsIdle.candidate (h : JobsIdle s) {c : Candidate} (first : candidate s = some c) : CandidateFits c s := by
  rcases orElse_cases first with demand | first
  · unfold demandCandidate at demand
    split at demand
    · rename_i hold
      obtain ⟨src, source, rfl⟩ := Option.map_eq_some_iff.mp demand
      exact ⟨by decide, by simpa using hold.2, h.demandSource source⟩
    · cases demand
  rcases orElse_cases first with current | first
  · exact h.firstJob current
  rcases orElse_cases first with station | first
  · exact h.firstJob station
  rcases orElse_cases first with machine | first
  · exact h.firstJob machine
  rcases orElse_cases first with prefetched | last
  · unfold prefetchCandidate at prefetched
    split at prefetched
    · obtain ⟨tr, track, source⟩ := Option.bind_eq_some_iff.mp prefetched
      obtain ⟨src, plain, rfl⟩ := Option.map_eq_some_iff.mp source
      exact ⟨by decide, by simpa using List.find?_some track, (h.plainSource plain).1⟩
    · cases prefetched
  · exact h.firstJob last

/-! ### Claims (R114) -/

theorem retire_take {f : Frame} (frame : frameOf tr s = some f) :
    retire (.take tr) s = releaseFrame tr (dropImage f s) := by
  simp [retire, frame]

/-- The job on a track evicted, if there is one (R114). -/
def jobEvicted (tr : Track) (s : State) : State :=
  match jobOf tr s with
  | some j => endJob (.cause .evicted) false false j s
  | none => s

theorem jobEvicted_of_job (job : jobOf tr s = some j) :
    jobEvicted tr s = endJob (.cause .evicted) false false j s := by
  simp [jobEvicted, job]

theorem jobEvicted_of_none (job : jobOf tr s = none) : jobEvicted tr s = s := by
  simp [jobEvicted, job]

theorem retire_evict (tr : Track) (s : State) : retire (.evict tr) s =
    match frameOf tr (jobEvicted tr s) with
    | some f => releaseFrame tr (dropImage f (jobEvicted tr s))
    | none => jobEvicted tr s := rfl

/-- A frame released that no job owns. -/
theorem JobsIdle.releaseFrame (h : JobsIdle s) (free : ∀ j ∈ jobsOn tr s, j.holdsFrame = false) :
    JobsIdle (releaseFrame tr s) := by
  refine h.of_track releaseFrame_beyond ⟨(h tr).one, fun j mem => ?_⟩
  obtain ⟨active, owns, -, queued, cooling⟩ := (h tr).fits j mem
  exact ⟨active, owns, fun holds => (nomatch holds.symm.trans (free j mem)), queued, cooling⟩

/-- The track that a source frees, if any. -/
def ClaimFrom.track? : ClaimFrom → Option Track
  | .free => none
  | .take tr => some tr
  | .evict tr => some tr

/-- An image retired leaves the queue idle and the other tracks as they stood. -/
theorem JobsIdle.retire (h : JobsIdle s) (safe : Claimable src s) :
    JobsIdle (retire src s) ∧ ∀ tr', some tr' ≠ src.track? → TrackAlike tr' s (retire src s) := by
  have dropped (f : Frame) (v : State) : Alike v (dropImage f v) := (dropImage_changes f).alike
  cases src with
  | free => exact ⟨h, fun tr' _ => .refl tr' s⟩
  | take tr =>
    obtain ⟨frame, free⟩ := safe
    obtain ⟨f, found⟩ := Option.isSome_iff_exists.mp frame
    have jobs : jobsOn tr (dropImage f s) = jobsOn tr s :=
      jobsOn_congr (by rw [(dropImage_changes f).jbq])
    rw [retire_take found]
    exact ⟨(h.alike (dropped f s)).releaseFrame (by rwa [jobs]),
      fun tr' ne => (dropped f s).beyond.trans releaseFrame_beyond tr' fun k => ne (congrArg some k)⟩
  | evict tr =>
    have ended : JobsIdle (jobEvicted tr s) ∧ jobsOn tr (jobEvicted tr s) = [] ∧
        AlikeBeyond tr s (jobEvicted tr s) := by
      cases job : jobOf tr s with
      | none => rw [jobEvicted_of_none job]; exact ⟨h, jobsOn_of_no_job job, .refl tr _⟩
      | some j =>
        rw [jobEvicted_of_job job, ← jobOf_track job]
        exact ⟨h.endJob _ _ _ j, jobsOn_endJob _ _ _ j s, endJob_beyond _ _ _ j s⟩
    obtain ⟨idle, none, beyond⟩ := ended
    rw [retire_evict]
    generalize jobEvicted tr s = u at *
    cases frameOf tr u with
    | none => exact ⟨idle, fun tr' ne => beyond tr' fun k => ne (congrArg some k)⟩
    | some f =>
      have jobs : jobsOn tr (dropImage f u) = [] := by
        rw [jobsOn_congr (s := u) (by rw [(dropImage_changes f).jbq]), none]
      exact ⟨(idle.alike (dropped f u)).releaseFrame (by rw [jobs]; nofun),
        fun tr' ne => (beyond.trans ((dropped f u).beyond.trans releaseFrame_beyond)) tr' fun k => ne (congrArg some k)⟩

/-- A plain source leaves the queue as it is. -/
theorem retire_jbq_of_plain (plain : src.plain = true) : (retire src s).jbq = s.jbq := by
  cases src with
  | free => rfl
  | evict tr => cases plain
  | take tr =>
    cases frame : frameOf tr s with
    | none => simp [retire, frame]
    | some f =>
      rw [retire_take frame]
      exact (dropImage_changes f).jbq

theorem frameOf_claim (none : frameOf tr (retire src s) = none) :
    frameOf tr (claim src tr s) = some (freshFrame (retire src s).geom.sectors tr) ∧
      AlikeBeyond tr (retire src s) (claim src tr s) := by
  have geom : (retire src s).geom = s.geom := (retire_changes src).geom
  refine ⟨?_, fun tr' ne => .of_same rfl ?_⟩
  · rw [geom]
    exact find_join_self Frame.track _ (freshFrame s.geom.sectors tr) none
  · exact find_join_ne Frame.track _ (freshFrame s.geom.sectors tr) ne

theorem freshFrame_unfailed (n : Nat) : ∀ r ∈ (freshFrame n tr).sectors, r.isFailed = false := by
  intro r mem
  rw [List.eq_of_mem_replicate mem]
  rfl

/-- A frame claimed for a track without one stands there empty, owned by no job. -/
theorem JobsIdle.claim (h : JobsIdle s) (safe : Claimable src s) (gap : frameOf tr s = none) :
    JobsIdle (claim src tr s) ∧ (frameOf tr (claim src tr s)).isSome ∧ Unfailed tr (claim src tr s) ∧
      (∀ j ∈ jobsOn tr (claim src tr s), j.holdsFrame = false) := by
  obtain ⟨idle, beyond⟩ := h.retire safe
  have other : some tr ≠ src.track? := by
    intro same
    cases src with
    | free => cases same
    | take _ => cases same; rw [Claimable, gap] at safe; cases safe.1
    | evict _ => cases same; rw [Claimable, gap] at safe; cases safe
  have gone : frameOf tr (Machine.retire src s) = none := by
    have framed := (beyond tr other).frame
    rw [gap] at framed
    simpa using framed
  obtain ⟨fresh, rest⟩ := frameOf_claim gone
  have free : ∀ j ∈ jobsOn tr (Machine.retire src s), j.holdsFrame = false := fun j mem => by
    cases holds : j.holdsFrame with
    | false => rfl
    | true =>
      have framed := ((idle tr).fits j mem).frame holds
      rw [gone] at framed
      cases framed
  refine ⟨idle.of_track rest ⟨(idle tr).one, fun j mem => ?_⟩, by rw [fresh]; rfl, ?_, free⟩
  · obtain ⟨active, owns, -, queued, cooling⟩ := (idle tr).fits j mem
    exact ⟨active, owns, fun _ => by rw [fresh]; rfl, queued, cooling⟩
  · intro f found
    cases fresh.symm.trans found
    exact freshFrame_unfailed _

/-! ### Grants (R25, R26) -/

/-- A queued job with its frame becomes ACTIVE. -/
theorem JobsIdle.activate (h : JobsIdle s) (mem : j ∈ jobsOn tr s) (queued : j.state = .queued)
    (frame : (frameOf tr s).isSome) (same : Alike (updJob tr (fun j => { j with state := .active, holdsFrame := true }) s) t)
    (given : granted t = some (.jobPass, tr)) : JobsFit t := by
  have hf (i : Job) (k : i.track = tr) : ({ i with state := .active, holdsFrame := true } : Job).track = tr := k
  have only : ∀ i ∈ jobsOn tr s, i = j := fun i here => by
    have one := (h tr).one
    match on : jobsOn tr s with
    | [] => rw [on] at mem; cases mem
    | [x] => rw [on, List.mem_singleton] at mem here; rw [mem, here]
    | _ :: _ :: _ => rw [on] at one; exact absurd one (by simp)
  have active : TrackFits True tr (updJob tr (fun j => { j with state := .active, holdsFrame := true }) s) := by
    refine .replaced (h tr).one hf fun i here => ?_
    obtain ⟨-, -, -, -, cooling⟩ := (h tr).fits i here
    rw [only i here, queued] at cooling
    refine ⟨⟨fun _ => trivial, fun _ => rfl⟩, fun _ => rfl, fun _ => frame, nofun, ⟨nofun, fun k => ?_⟩⟩
    rw [only i here] at k
    exact nomatch cooling.mpr k
  refine ⟨fun tr' => ?_, fun k tr' same' => ?_⟩
  · by_cases k : tr' = tr
    · subst k
      exact (active.alike (same tr')).iff_held (by simp [given])
    · refine (((h tr').alike (updJob_beyond hf tr' k)).alike (same tr')).iff_held ?_
      simp [given, Ne.symm k]
  · cases given.symm.trans same'
    obtain ⟨jobs, framed, -⟩ := same tr
    refine ⟨framed.trans frame, fun _ none => ?_, fun k => absurd rfl k⟩
    rw [none, jobsOn_updJob hf, List.map_nil] at jobs
    rw [List.map_eq_nil_iff.mp (List.map_eq_nil_iff.mp jobs.symm)] at mem
    cases mem

theorem JobsIdle.grantGiven (h : JobsIdle s) {c : Candidate} (fits : CandidateFits c s) : JobsFit (grantGiven c s) := by
  have given : granted (Machine.grantGiven c s) = some ((grantFor c s).kind, (grantFor c s).track) := by
    rw [granted, grantGiven_dsq]
    rfl
  match c with
  | .fetch kind tr src =>
    obtain ⟨fetch, none, safe⟩ := fits
    obtain ⟨idle, frame, unfailed, free⟩ := h.claim safe none
    have given : granted (Machine.grantGiven (.fetch kind tr src) s) = some (kind, tr) := given
    have stands : JobsIdle (Machine.grantGiven (.fetch kind tr src) s) := idle.alike (.congr rfl rfl)
    refine ⟨fun tr' => (stands tr').iff_held ?_, fun k tr' same => ?_⟩
    · rw [given]
      simp [fetch]
    · cases given.symm.trans same
      exact ⟨frame, fun k => absurd k fetch, fun _ => ⟨unfailed, free⟩⟩
  | .job j none =>
    obtain ⟨mem, queued, holds⟩ := fits
    have here : j ∈ jobsOn j.track s := mem_jobsOn.mpr ⟨mem, rfl⟩
    exact h.activate here queued (((h j.track).fits j here).frame holds) (.congr rfl rfl) given
  | .job j (some src) =>
    obtain ⟨mem, queued, none, safe, plain⟩ := fits
    obtain ⟨idle, frame, -⟩ := h.claim safe none
    have here : j ∈ jobsOn j.track (Machine.claim src j.track s) := by
      refine mem_jobsOn.mpr ⟨?_, rfl⟩
      show j ∈ (Machine.retire src s).jbq.jobs
      rwa [retire_jbq_of_plain plain]
    exact idle.activate here queued frame (.congr rfl rfl) given

theorem granted_congr (h : t.dsq.grant = s.dsq.grant) : granted t = granted s := by
  rw [granted, h, granted]

/-- A grant taken up stays as it is. -/
theorem JobsFit.takeUpGrant (h : JobsFit s) (grant : s.dsq.grant = some g) (running : spindleOf s.ixm = .running) :
    JobsFit (takeUpGrant g s) := by
  obtain ⟨-, kept, -⟩ := takeUpGrant_running grant running
  have only := takeUpGrant_steady_changes grant (by rw [running]; decide)
  exact h.alike only.alike (granted_congr (kept.trans grant.symm))

theorem JobsFit.arbitrate (h : JobsFit s) (drive : DriveKept s) : JobsFit (arbitrate s) := by
  rcases arbitrate_cases s with e | ⟨c, first, idle, running, batch, e⟩ <;> rw [e]
  · exact h
  · have jobs := h.idle (drive.fits.free_of_idle idle batch)
    exact (jobs.grantGiven (jobs.candidate first)).takeUpGrant (by rw [grantGiven_dsq])
      (by rw [(grantGiven_changes c s).ixm]; exact running)

end Sys2Proof.Machine
end

section
/-! PROOF. The drive's events, copies and the requests keep the jobs consistent (R45, R93, R94). -/

namespace Sys2Proof.Machine

variable {s t u : State} {g : Grant} {tr : Track} {j : Job}

/-! ### The drive's events -/

theorem JobsFit.beginRecalibrate (h : JobsFit s) : JobsFit (beginRecalibrate s) :=
  h.alike beginRecalibrate_changes.alike (granted_congr (by rw [beginRecalibrate_dsq]))

theorem JobsFit.raiseFence (h : JobsFit s) (cause : FenceCause) (before : State) :
    JobsFit (raiseFence cause before s) := by
  cases fence : s.dsq.fence with
  | some x => rwa [raiseFence_of_fenced (by rw [fence]; rfl)]
  | none => rw [raiseFence_of_free fence]; exact h.abandonWork.congr rfl rfl rfl

/-- A seek fault leaves the grant its track and its kind. -/
theorem granted_faultGrant (s : State) : (faultGrant s).map (fun g => (g.kind, g.track)) = granted s := by
  unfold faultGrant granted
  rw [Option.map_map]
  refine congrArg (Option.map · s.dsq.grant) (funext fun g => ?_)
  simp only [Function.comp_apply]
  split
  · rfl
  · unfold afterFault
    split
    · rfl
    · split <;> rfl

theorem JobsFit.seekFault (h : JobsFit s) : JobsFit (seekFault s) := by
  have counted : JobsFit (faultCounted s) := h.congr rfl rfl rfl
  by_cases reached : s.dsq.set.fenceLimit ≤ s.dsq.faults + 1
  · rw [seekFault_of_limit reached]
    exact counted.raiseFence _ _
  · rw [seekFault_of_below (Nat.lt_of_not_le reached)]
    exact JobsFit.beginRecalibrate (counted.congr (granted_faultGrant _) rfl rfl)

theorem JobsFit.followSpindle (h : JobsFit s) (old : Spindle) : JobsFit (followSpindle old s) := by
  by_cases same : old = spindleOf s.ixm
  · rwa [same, followSpindle_same rfl]
  rcases spindle_cases s.ixm with down | unstable | running
  · rw [followSpindle_of_down (Ne.symm same) down]
    rcases followDown_cases s with ⟨-, e⟩ | ⟨-, e⟩ | ⟨-, e⟩ | ⟨-, e⟩ <;> rw [e]
    · exact h.congr rfl rfl rfl
    · exact h.abandonWork.congr rfl rfl rfl
    · exact h.abandonWork.congr rfl rfl rfl
    · exact h
  · rw [followSpindle_unstable (Ne.symm same) unstable]
    by_cases reading : s.dsq.state = .reading
    · rw [followUnstable_of_reading reading]
      exact h.abandonWork.congr rfl rfl rfl
    · rwa [followUnstable_of_not_reading reading]
  · rw [followSpindle_of_running (Ne.symm same) running]
    rcases followRunning_cases s with e | ⟨-, e⟩ <;> rw [e]
    · exact h
    · exact h.beginRecalibrate

theorem JobsFit.takeMark (h : JobsFit s) (r : Timer) : JobsFit (takeMark r s) := by
  rcases takeMark_cases r s with e | ⟨g, -, grant, ⟨-, e⟩ | ⟨-, e⟩⟩ <;> rw [e]
  · exact h
  · exact h.countPass grant
  · exact h.congr (by rw [granted_of_some grant]; rfl) rfl rfl

theorem JobsFit.takeLateExpiry (h : JobsFit s) : JobsFit (takeLateExpiry s) := by
  rcases takeLateExpiry_cases s with e | ⟨g, -, grant, -, e⟩ <;> rw [e]
  · exact h
  · exact h.countPass grant

theorem JobsFit.beginSettle (h : JobsFit s) (grant : s.dsq.grant = some g) (steady : spindleOf s.ixm ≠ .unstable) :
    JobsFit (beginSettle g s) := by
  rw [beginSettle_steady grant steady]
  exact h.congr rfl rfl rfl

theorem JobsFit.completeSeek (h : JobsFit s) : JobsFit (completeSeek s) := by
  have arrived : JobsFit (seekArrived s) := h.congr (granted_congr (by rw [seekArrived_dsq])) rfl rfl
  cases grant : s.dsq.grant with
  | none => rw [completeSeek_of_free grant]; exact arrived.congr rfl rfl rfl
  | some g =>
    have held : (seekArrived s).dsq.grant = some g := by rw [seekArrived_dsq]; exact grant
    by_cases unstable : spindleOf s.ixm = .unstable
    · rw [completeSeek_of_unstable grant unstable]; exact arrived.endGrant held
    · rw [completeSeek_of_steady grant unstable]; exact arrived.beginSettle held unstable

theorem JobsFit.completeRecalibrate (h : JobsFit s) (up : spindleDown s.ixm = false) :
    JobsFit (completeRecalibrate s) := by
  have arrived : JobsFit (recalibrateArrived s) := h.congr rfl rfl rfl
  cases grant : s.dsq.grant with
  | none => rw [completeRecalibrate_of_free grant]; exact arrived.congr rfl rfl rfl
  | some g =>
    have held : (recalibrateArrived s).dsq.grant = some g := grant
    by_cases phase : g.phase = .approach
    · rw [completeRecalibrate_of_approach grant phase]
      cases after : g.after with
      | counted => rw [resumeGrant_of_counted after]; exact arrived.countPass held
      | finish => rw [resumeGrant_of_ended (.inl after)]; exact arrived.endGrant held
      | retake =>
        by_cases unstable : spindleOf (recalibrateArrived s).ixm = .unstable
        · rw [resumeGrant_of_ended (.inr ⟨after, unstable⟩)]; exact arrived.endGrant held
        · rw [resumeGrant_of_retake after unstable]; exact arrived.takeUpGrant held (running_of_up up unstable)
    · rw [completeRecalibrate_of_past grant phase]; exact arrived.congr rfl rfl rfl

theorem JobsFit.endSettle (h : JobsFit s) : JobsFit (endSettle s) := by
  have ended : JobsFit (clearOperation s) := h.congr rfl rfl rfl
  cases grant : s.dsq.grant with
  | none => rw [endSettle_of_free grant]; exact ended.congr rfl rfl rfl
  | some g =>
    by_cases unstable : spindleOf s.ixm = .unstable
    · rw [endSettle_of_unstable grant unstable]; exact ended.endGrant grant
    · rw [endSettle_of_steady grant unstable]; exact ended.congr rfl rfl rfl

theorem JobsFit.reattachDrive (h : JobsFit s) : JobsFit (reattachDrive s) := by
  have opened : JobsFit (relayOpened s) := h.congr rfl rfl rfl
  unfold Machine.reattachDrive
  dsimp only
  split
  · exact opened.congr rfl rfl rfl
  · split
    · exact opened.raiseFence _ _
    · split
      · exact opened.raiseFence _ _
      · exact opened.beginRecalibrate

/-! ### Copies (R58) -/

theorem tallyPass_alike (tr : Track) (i : Nat) (f : Tally → Tally) (s : State) : Alike s (tallyPass tr i f s) := by
  unfold tallyPass
  split
  · exact .congr rfl rfl
  · exact updJob_alike (fun _ => rfl) fun _ => rfl

theorem recordBad_unfailed (w : SectorWords) (n : Nat) (r : SectorRec) (h : r.isFailed = false) :
    (recordBad w n r).isFailed = false := by
  cases r with
  | opened w' k => simp only [recordBad]; split <;> rfl
  | empty => rfl
  | good w' => rfl
  | recovered w' => rfl
  | failed best => cases h

theorem recordGood_unfailed (plain : Bool) (w : SectorWords) (r : SectorRec) (h : r.isFailed = false) :
    (recordGood plain w r).isFailed = false := by
  cases r with
  | opened w' k => cases plain <;> rfl
  | empty => cases plain <;> rfl
  | good w' => rfl
  | recovered w' => rfl
  | failed best => cases h

theorem markStarved_alike (tr : Track) (s : State) : Alike s (markStarved tr s) := by
  unfold markStarved
  split
  · exact .congr rfl rfl
  · have marked : Alike s (updJob tr (fun j => { j with starved := true }) s) :=
      updJob_alike (fun _ => rfl) fun _ => rfl
    exact marked.trans (updEntry_changes _ _).alike

theorem deliverBad_alike (c : SealedCopy) (s : State) : Alike s (deliverBad c s) := by
  have framed : Alike s (updFrame c.addr.track (Frame.updSector c.addr.sector (recordBad c.words c.weight)) s) :=
    updFrame_alike (fun _ => rfl) (updSector_unfailed (recordBad_unfailed c.words c.weight))
  have placed := framed.trans (updCps_changes (placeCopy s.vte.copyLimit c)).alike
  unfold deliverBad
  dsimp only
  split
  · exact placed.trans (updRct_changes _).alike
  · exact placed.trans (updRct_changes _).alike
  · exact placed.trans (markStarved_alike _ _)
  · exact placed

theorem sealGood_unfailed (plain : Bool) (i : Nat) (w : SectorWords) (x : Frame)
    (h : ∀ r ∈ x.sectors, r.isFailed = false) : ∀ r ∈ (x.sealGood plain i w).sectors, r.isFailed = false :=
  updSector_unfailed (recordGood_unfailed plain w) x h

theorem deliverGood_alike (c : SealedCopy) (s : State) : Alike s (deliverGood c s) := by
  have framed : Alike s (updFrame c.addr.track (Frame.sealGood (plainPass s.dsq) c.addr.sector c.words) s) :=
    updFrame_alike (fun _ => rfl) (sealGood_unfailed _ _ _)
  have resolved (v : State) : Alike v ((closeInPass c.addr.sector v).updCps (freeSector c.addr)) := .congr rfl rfl
  have closed (v : State) : Alike v (updJob c.addr.track (Job.close c.addr.sector) v) :=
    updJob_alike (fun _ => rfl) fun _ => rfl
  have entry (v : State) (f : Entry → Entry) : Alike v (updEntry c.addr.track f v) := (updEntry_changes _ _).alike
  have solved (f : Entry → Entry) :=
    (Alike.ite (p := plainPass s.dsq) framed (framed.trans (entry _ f))).trans (resolved _)
  exact .ite (solved _) ((solved _).trans (closed _))

/-! ### Jobs created, merged, warmed and cancelled (R99 to R102, R106, R109) -/

/-- A change on a track that is not granted. -/
theorem JobsFit.of_track (h : JobsFit s) (grant : granted t = granted s) (same : AlikeBeyond tr s t)
    (track : TrackFits (granted s = some (.jobPass, tr)) tr t)
    (serves : ∀ k, granted s = some (k, tr) → Serves k tr s → Serves k tr t) : JobsFit t := by
  refine ⟨fun tr' => ?_, fun k tr' given => ?_⟩
  · rw [grant]
    by_cases here : tr' = tr
    · rwa [here]
    · exact (h.tracks tr').alike (same tr' here)
  · rw [grant] at given
    have before := h.serves k tr' given
    by_cases here : tr' = tr
    · subst here
      exact serves k given before
    · exact before.alike (same tr' here)

/-- A job joins a track without one. -/
theorem JobsFit.addJob (h : JobsFit s) (beyond : AlikeBeyond j.track s t)
    (jobs : jobsOn j.track t = [j]) (grant : granted t = granted s) (free : ∀ k, granted s ≠ some (k, j.track))
    (fits : JobFits False (frameOf j.track t).isSome j) : JobsFit t := by
  refine h.of_track grant beyond ⟨by rw [jobs]; exact Nat.le_refl 1, fun i mem => ?_⟩ fun k given => absurd given (free k)
  rw [jobs, List.mem_singleton] at mem
  rw [mem]
  exact { fits with active := fits.active.trans ⟨False.elim, fun k => free _ k⟩ }

theorem JobsFit.createKeptJob (h : JobsFit s) {f : Frame} (n : Nat) (job : jobOf tr s = none)
    (frame : frameOf tr s = some f) (failed : sectorsWhere SectorRec.isFailed f ≠ []) :
    JobsFit (createKeptJob tr f n s) := by
  have none := jobsOn_of_no_job job
  have free (k : GrantKind) : granted s ≠ some (k, tr) := fun given => by
    obtain ⟨-, held, plain⟩ := h.serves k tr given
    by_cases kind : k = .jobPass
    · exact held kind none
    · obtain ⟨i, mem⟩ := List.exists_mem_of_ne_nil _ failed
      obtain ⟨r, here, isFailed⟩ : ∃ r, f.sectors[i]? = some r ∧ r.isFailed = true := by
        simpa [Option.any_eq_true] using (List.mem_filter.mp mem).2
      exact nomatch isFailed.symm.trans ((plain kind).1 f frame r (List.mem_of_getElem? here))
  have created (i : Job) (track : i.track = tr) (state : i.state = .queued) (holds : i.holdsFrame = true)
      (cooldown : i.cooldown = Option.none) : JobsFit (updFrame tr Frame.reopen (Machine.addJob i s)) := by
    subst track
    have reopened : frameOf i.track (updFrame i.track Frame.reopen (Machine.addJob i s)) = some f.reopen := by
      rw [frameOf_updFrame _ Frame.reopen fun _ => rfl]
      show (frameOf i.track s).map Frame.reopen = _
      rw [frame]
      rfl
    refine h.addJob (addJob_beyond.trans (updFrame_beyond fun _ => rfl)) ?_ rfl free
      (.waits holds (by rw [reopened]; rfl) (.inl ⟨state, cooldown⟩))
    show jobsOn i.track (Machine.addJob i s) = [i]
    rw [jobsOn_addJob, none, List.nil_append]
  have stands := created (stationJob tr true false n (firstStep n) (sectorsWhere SectorRec.isFailed f)) rfl rfl rfl rfl
  unfold Machine.createKeptJob
  dsimp only
  split
  · exact stands.beyond (updEntry_changes _ _)
  · exact stands.beyond (createEntry_changes _ _ _ _ _ _)

theorem JobsFit.createFramelessJob (h : JobsFit s) (n : Nat) (job : jobOf tr s = none) (frame : frameOf tr s = none) :
    JobsFit (createFramelessJob tr n s) := by
  have none := jobsOn_of_no_job job
  have created (i : Job) (track : i.track = tr) (origin : i.origin = .station) (state : i.state = .queued)
      (holds : i.holdsFrame = false) (cooldown : i.cooldown = Option.none) : JobsFit (Machine.addJob i s) := by
    subst track
    refine h.addJob addJob_beyond (by rw [jobsOn_addJob, none, List.nil_append]) rfl (fun k given => ?_)
      ⟨by simp [state], by simp [origin], by simp [holds], fun _ => state, by simp [state, cooldown]⟩
    have framed := (h.serves k i.track given).frame
    rw [frame] at framed
    cases framed
  exact (created (stationJob tr false true 0 (firstStep n) (List.range s.geom.sectors)) rfl rfl rfl rfl rfl).beyond
    (updEntry_changes _ _)

theorem JobsFit.merged (h : JobsFit s) (tr : Track) :
    JobsFit (updJob tr (fun j => { j with origin := .station }) s) := by
  have hf (i : Job) (k : i.track = tr) : ({ i with origin := .station } : Job).track = tr := k
  refine h.of_track rfl (updJob_beyond hf) (.replaced (h.tracks tr).one hf fun i mem => ?_) fun k given before => ?_
  · obtain ⟨active, -, frame, queued, cooling⟩ := (h.tracks tr).fits i mem
    exact ⟨active, fun k => absurd rfl k, frame, queued, cooling⟩
  · refine ⟨before.frame, fun kind none => before.job kind ?_, fun kind => ⟨(before.plain kind).1, fun i mem => ?_⟩⟩
    · rw [jobsOn_updJob hf] at none
      exact List.map_eq_nil_iff.mp none
    · rw [jobsOn_updJob hf] at mem
      obtain ⟨x, here, rfl⟩ := List.mem_map.mp mem
      exact (before.plain kind).2 x here

/-- A job that cooled is QUEUED again (R106). -/
theorem JobsFit.warmed (h : JobsFit s) (job : jobOf j.track s = some j) (cooling : j.state = .cooling) :
    JobsFit (updJob j.track warmJob s) := by
  have hf (i : Job) (k : i.track = j.track) : (warmJob i).track = j.track := k
  have only : ∀ i ∈ jobsOn j.track s, i = j := fun i here => by
    have one := (h.tracks j.track).one
    rw [jobOf_eq_head?] at job
    match on : jobsOn j.track s with
    | [] => rw [on] at here; cases here
    | [x] =>
      rw [on] at job here
      rw [List.mem_singleton.mp here]
      exact Option.some.inj job
    | _ :: _ :: _ => rw [on] at one; exact absurd one (by simp)
  have fits := (h.tracks j.track).fits j (mem_jobsOn_of_jobOf job)
  have free : granted s ≠ some (.jobPass, j.track) := fun given => by
    cases cooling.symm.trans (fits.active.mpr given)
  have holds : j.holdsFrame = true := by
    cases k : j.holdsFrame with
    | true => rfl
    | false => cases cooling.symm.trans (fits.queued k)
  refine h.of_track rfl (updJob_beyond hf) (.replaced (h.tracks j.track).one hf fun i mem => ?_) fun k given before => ?_
  · rw [only i mem]
    exact { JobFits.waits (j := warmJob j) holds (fits.frame holds) (.inl ⟨rfl, rfl⟩) with
      active := ⟨nofun, fun k => absurd k free⟩ }
  · refine ⟨before.frame, fun kind => absurd (kind ▸ given) free, fun kind => ?_⟩
    exact nomatch holds.symm.trans ((before.plain kind).2 j (mem_jobsOn_of_jobOf job))

/-- A job cancelled ends with its grant (R109). -/
theorem JobsFit.cancelled (h : JobsFit s) (p : Bool) (job : jobOf j.track s = some j) :
    JobsFit (endJob (.cause .cancelled) p false j (cancelGrant j.track s)) := by
  by_cases held : ∃ g, s.dsq.grant = some g ∧ g.kind = .jobPass ∧ g.track = j.track
  · obtain ⟨g, grant, kind, track⟩ := held
    obtain ⟨dsq, -⟩ := cancelGrant_of_held grant kind track
    have same : Alike s (cancelGrant j.track s) := (cancelGrant_changes j.track).alike
    have ended := endJob_beyond (.cause .cancelled) p false j (cancelGrant j.track s)
    have idle : JobsIdle (endJob (.cause .cancelled) p false j (cancelGrant j.track s)) := by
      refine h.idle_of_track grant ?_ ?_
      · rw [track]; exact same.beyond.trans ended
      · rw [track]; exact .none (jobsOn_endJob _ _ _ _ _)
    refine idle.fits ?_
    rw [(endJob_changes _ _ _ _).dsq, dsq]
  · have other (g : Grant) (grant : s.dsq.grant = some g) : ¬ (g.kind = .jobPass ∧ g.track = j.track) :=
      fun k => held ⟨g, grant, k⟩
    rw [cancelGrant_of_other other]
    refine h.of_track (granted_congr (by rw [(endJob_changes _ _ _ _).dsq])) (endJob_beyond _ _ _ _ _)
      (.none (jobsOn_endJob _ _ _ _ _)) fun k given before => ?_
    have kind : k ≠ .jobPass := fun k' => by
      obtain ⟨g, grant, kind, track⟩ := (passHeld_iff j.track).mp (k' ▸ given)
      exact other g grant ⟨kind, track⟩
    have frames := endJob_frames (s := s) (k := .cause .cancelled) (p := p) (q := false)
      ((before.plain kind).2 j (mem_jobsOn_of_jobOf job))
    have framed : frameOf j.track (endJob (.cause .cancelled) p false j s) = frameOf j.track s :=
      frameOf_congr j.track (by rw [frames])
    refine ⟨by rw [framed]; exact before.frame, fun k' => absurd k' kind, fun _ => ⟨?_, by rw [jobsOn_endJob]; nofun⟩⟩
    unfold Unfailed
    rw [framed]
    exact (before.plain kind).1

/-! ### Every event -/

theorem JobsFit.event (drive : DriveKept s) (h : JobsFit s) (e : Event s t) : JobsFit t := by
  cases e with
  | outer k => exact h.beyond k
  | arbitrate => exact h.arbitrate drive
  | spindle k => exact (h.beyond k).followSpindle _
  | mark r => exact h.takeMark r
  | lateExpiry => exact h.takeLateExpiry
  | seekEnds _ => exact h.completeSeek
  | recalibrateEnds recalibrating =>
    refine h.completeRecalibrate ?_
    cases down : spindleDown s.ixm with
    | false => rfl
    | true =>
      have withdrawn := drive.down down
      rw [recalibrating] at withdrawn
      cases withdrawn
  | seekFault _ => exact h.seekFault
  | fence cause before _ => exact h.raiseFence cause before
  | settleEnds _ => exact h.endSettle
  | rests ms _ _ => exact h.abandonWork.congr rfl rfl rfl
  | restEnds _ => exact h.beginRecalibrate
  | quietEnds => exact h.congr rfl rfl rfl
  | tally tr i f => exact h.alike (tallyPass_alike tr i f s) (granted_congr (by rw [(tallyPass_changes tr i f).dsq]))
  | channel f _ => exact h.congr rfl rfl rfl
  | goodCopy c =>
    refine h.alike (deliverGood_alike c s) ?_
    rw [granted, (deliverGood_drive c s).1, Option.map_map]
    rfl
  | badCopy c => exact h.alike (deliverBad_alike c s) (granted_congr (by rw [(deliverBad_stands c s).dsq]))
  | batchEnds batch =>
    obtain ⟨g, grant, phase, track⟩ := drive.fits.batch _ batch
    exact h.completeBatch grant (drive.fits.voting g grant phase).1 track
  | cooled job cooling => exact h.warmed job cooling
  | refresh tr => exact h.alike (refreshFrame_alike tr s) rfl
  | exported tr => exact h.alike (updFrame_alike (fun _ => rfl) fun _ unfailed => unfailed) rfl
  | merged tr => exact h.merged tr
  | keptJob n job frame failed => exact h.createKeptJob n job frame failed
  | framelessJob n job frame => exact h.createFramelessJob n job frame
  | cancelled p job => exact h.cancelled p job
  | geometry g => exact h.congr rfl rfl rfl
  | drive x _ => exact h.congr rfl rfl rfl
  | vote f _ => exact h.congr rfl rfl rfl
  | ladder f jobs => exact h.congr rfl jobs rfl
  | exportHold b => exact h.congr rfl rfl rfl
  | fenceCleared _ =>
    have cleared (c : FenceCause) : JobsFit (clearedFence c s) := h.congr rfl rfl rfl
    split
    · exact (cleared _).beginRecalibrate
    · exact cleared _
  | bypassed => exact h.abandonWork.congr rfl rfl rfl
  | reattached _ => exact h.reattachDrive
  | reset => exact JobsIdle.fits (fun _ => .none rfl) rfl
  | powerOn => exact JobsIdle.fits (fun _ => .none rfl) rfl

end Sys2Proof.Machine

open Sys2Proof Sys2Proof.Machine

/-- Settles O11: each event of the drive or of the queue keeps the jobs in keeping, track by track, under the invariants
of the drive that it keeps too. -/
theorem stepKeepsJobsConsistent : Obligations.StepKeepsJobsConsistent := by
  rintro s t grant fence ⟨-, -, -, -, -, -, nodup, -⟩ jobs e
  have kept := step_keeps_of_events (P := fun s => DriveKept s ∧ JobsFit s)
    (fun _ _ h => ⟨h.1.congr rfl rfl rfl rfl, h.2.congr rfl rfl rfl⟩)
    (fun h e => ⟨h.1.event e, JobsFit.event h.1 h.2 e⟩)
    ⟨(driveKept_iff s).mpr ⟨grant, fence⟩, .of_jobsKept jobs nodup⟩ e
  exact kept.2.jobsKept

end

section
/-! PROOF. The state right after reset meets every invariant (R46, R61, R93, R130, R146, R200). -/

namespace Sys2Proof.Machine

theorem collectionsBounded_reset : CollectionsBounded State.reset := by
  refine ⟨?_, ?_, .nil, ?_, .nil, ?_, .nil, ?_, ?_, .nil⟩
  all_goals exact Nat.zero_le _

theorem copiesBounded_reset : CopiesBounded State.reset :=
  ⟨show 3 ≤ 5 by decide, Nat.zero_le _, .nil, nofun⟩

theorem tableKept_reset : TableKept State.reset :=
  ⟨.nil, .nil, nofun, Nat.le_refl 1, show 1 ≤ Config.lastSequence + 1 by decide, nofun⟩

theorem sectorsAscending_reset : SectorsAscending State.reset :=
  ⟨nofun, nofun⟩

theorem driveKept_reset : DriveKept State.reset :=
  (DriveKept.powerOn State.reset).congr rfl rfl rfl rfl

theorem jobsKept_reset : JobsKept State.reset :=
  (JobsIdle.fits (s := State.reset) (fun _ => .none rfl) rfl).jobsKept

/-- The port is NOT_READY while the spindle is STOPPED. -/
theorem portFollows_reset : PortFollows State.reset :=
  ⟨⟨nofun, nofun⟩, fun _ => ⟨fun _ => rfl, fun _ => rfl⟩, ⟨nofun, nofun⟩⟩

theorem averageKept_reset : AverageKept State.reset := by
  obtain ⟨-, rotation, -⟩ := SettingsInRange.reset
  refine ⟨rotation, ⟨?_, ?_⟩, nofun, nofun, Nat.zero_le 7⟩
  · exact Int.sub_le_self _ (Int.natCast_nonneg _)
  · exact Int.le_add_of_nonneg_right (Int.natCast_nonneg _)

/-- No record is queued, and the line is inactive. -/
theorem attentionFollows_reset : AttentionFollows State.reset :=
  ⟨rfl, rfl⟩

theorem linkKept_reset : LinkKept State.reset :=
  ⟨nofun, nofun⟩

end Sys2Proof.Machine

open Sys2Proof Sys2Proof.Machine

/-- Settles O5: the collections are empty, nothing is granted, and each setting stands at its reset value. -/
theorem resetMeetsInvariants : Obligations.ResetMeetsInvariants := by
  obtain ⟨grant, fence⟩ := (driveKept_iff State.reset).mp driveKept_reset
  exact ⟨collectionsBounded_reset, copiesBounded_reset, tableKept_reset, sectorsAscending_reset, SettingsInRange.reset,
    grant, fence, .lost rfl, jobsKept_reset, portFollows_reset, averageKept_reset, attentionFollows_reset, linkKept_reset⟩

end

section
/-! PROOF. What stands until it is cleared: the fence, the bypass, the snapshot, OVERRUN, the records, the sequence counter
and the peaks, under the operations of the queue, the stores and the sequencer (R37, R42, R132, R141, R197, R201). -/

namespace Sys2Proof.Machine

variable {s t u : State} {bs : List Block}

/-! ### The relation -/

/-- The least margin, once held, never rises (R141). -/
def MarginStands : Option Nat → Option Nat → Prop
  | none, _ => True
  | some m, n => ∃ k, n = some k ∧ k ≤ m

theorem MarginStands.refl (m : Option Nat) : MarginStands m m := by
  cases m with
  | none => trivial
  | some m => exact ⟨m, rfl, Nat.le_refl m⟩

theorem MarginStands.trans {a b c : Option Nat} (h : MarginStands a b) (k : MarginStands b c) : MarginStands a c := by
  cases a with
  | none => trivial
  | some m =>
    obtain ⟨n, rfl, le⟩ := h
    obtain ⟨l, rfl, le'⟩ := k
    exact ⟨l, rfl, Nat.le_trans le' le⟩

/-- The table's counters stand or rise, and its least margin stands or falls (R132, R141). -/
structure TableStands (r r' : Rct) : Prop where
  sequence : r.nextSequence ≤ r'.nextSequence
  passes : r.peakPasses ≤ r'.peakPasses
  deviation : r.peakDeviation ≤ r'.peakDeviation
  violations : r.peakViolations ≤ r'.peakViolations
  margin : MarginStands r.peakMargin r'.peakMargin

/-- What the queue holds stands: its records, OVERRUN and a latched snapshot (R197, R201). -/
structure QueueStands (e e' : Evq) : Prop where
  records : e.records <+: e'.records
  overrun : e.overrun = true → e'.overrun = true
  snapshot : ∀ x, e.snapshot = some x → e'.snapshot = some x

/-- Nothing is cleared between two states. -/
structure Stands (s t : State) : Prop where
  fence : ∀ x, s.dsq.fence = some x → t.dsq.fence = some x
  bypass : s.dsq.bypass = true → t.dsq.bypass = true
  queue : QueueStands s.evq t.evq
  table : TableStands s.rct t.rct

theorem TableStands.refl (r : Rct) : TableStands r r :=
  ⟨Nat.le_refl _, Nat.le_refl _, Nat.le_refl _, Nat.le_refl _, .refl _⟩

theorem QueueStands.refl (e : Evq) : QueueStands e e :=
  ⟨List.prefix_rfl, id, fun _ => id⟩

theorem Stands.refl (s : State) : Stands s s :=
  ⟨fun _ => id, id, .refl _, .refl _⟩

theorem Stands.trans (h : Stands s t) (k : Stands t u) : Stands s u :=
  ⟨fun x => k.fence x ∘ h.fence x, k.bypass ∘ h.bypass,
    ⟨h.queue.records.trans k.queue.records, k.queue.overrun ∘ h.queue.overrun,
      fun x => k.queue.snapshot x ∘ h.queue.snapshot x⟩,
    ⟨h.table.sequence.trans k.table.sequence, h.table.passes.trans k.table.passes,
      h.table.deviation.trans k.table.deviation, h.table.violations.trans k.table.violations,
      h.table.margin.trans k.table.margin⟩⟩

theorem Stands.ite {p : Prop} [Decidable p] (h : Stands s t) (k : Stands s u) : Stands s (if p then t else u) := by
  split <;> assumption

/-! ### The updates -/

/-- The blocks that hold nothing of what stands. -/
def Block.idle : Block → Bool
  | .dsq | .rct | .evq => false
  | _ => true

/-- Changes beyond the three blocks. -/
theorem ChangesOnly.stands (h : ChangesOnly bs s t) (idle : bs.all Block.idle = true) : Stands s t := by
  have out {b : Block} (busy : b.idle = false) : b ∉ bs := fun mem => by
    cases busy.symm.trans (List.all_eq_true.mp idle b mem)
  have dsq : t.dsq = s.dsq := h.dsq (out rfl)
  exact ⟨fun _ k => by rwa [dsq], fun k => by rwa [dsq], by rw [h.evq (out rfl)]; exact .refl _,
    by rw [h.rct (out rfl)]; exact .refl _⟩

theorem updDsq_stands (f : Dsq → Dsq) (fence : (f s.dsq).fence = s.dsq.fence) (bypass : (f s.dsq).bypass = s.dsq.bypass) :
    Stands s (s.updDsq f) :=
  ⟨fun _ k => fence.trans k, fun k => bypass.trans k, .refl _, .refl _⟩

theorem updRct_stands (f : Rct → Rct) (h : TableStands s.rct (f s.rct)) : Stands s (s.updRct f) :=
  ⟨fun _ => id, id, .refl _, h⟩

theorem updEvq_stands (f : Evq → Evq) (h : QueueStands s.evq (f s.evq)) : Stands s (s.updEvq f) :=
  ⟨fun _ => id, id, h, .refl _⟩

theorem offer_stands (k : EventKind) (tr : Option Track) (n : Nat) : Stands s (offer k tr n s) :=
  updEvq_stands _ ⟨offer_prefix k tr n s, offer_overrun k tr n s, fun _ held => (offer_cases k tr n s).2.1.trans held⟩

theorem latchSnapshot_stands (x : Snapshot) (e : Evq) : QueueStands e (latchSnapshot x e) := by
  unfold latchSnapshot
  split
  · exact .refl e
  · exact ⟨List.prefix_rfl, id, fun y held => by simp_all⟩

theorem offerLatching_stands (k : EventKind) (n : Nat) (x : Snapshot) : Stands s (offerLatching k n x s) :=
  (offer_stands k none n).trans (updEvq_stands _ (latchSnapshot_stands _ _))

theorem updEntry_stands (tr : Track) (f : Entry → Entry) : Stands s (updEntry tr f s) :=
  updRct_stands _ ⟨Nat.le_refl _, Nat.le_refl _, Nat.le_refl _, Nat.le_refl _, .refl _⟩

theorem reportPasses_stands (n : Nat) : Stands s (reportPasses n s) :=
  updRct_stands _ ⟨Nat.le_refl _, Nat.le_max_left _ _, Nat.le_refl _, Nat.le_refl _, .refl _⟩

theorem reportDeviation_stands (n : Nat) : Stands s (reportDeviation n s) :=
  updRct_stands _ ⟨Nat.le_refl _, Nat.le_refl _, Nat.le_max_left _ _, Nat.le_refl _, .refl _⟩

theorem reportViolations_stands (n : Nat) : Stands s (reportViolations n s) :=
  updRct_stands _ ⟨Nat.le_refl _, Nat.le_refl _, Nat.le_refl _, Nat.le_max_left _ _, .refl _⟩

theorem reportMargin_stands (n : Nat) : Stands s (reportMargin n s) := by
  refine updRct_stands _ ⟨Nat.le_refl _, Nat.le_refl _, Nat.le_refl _, Nat.le_refl _, ?_⟩
  cases s.rct.peakMargin with
  | none => trivial
  | some p => exact ⟨min p n, rfl, Nat.min_le_left p n⟩

/-! ### Entries and jobs (R108, R132 to R138) -/

theorem createEntry_stands (tr : Track) (o : Origin) (st : EntryState) (n : Nat) (b : Bool) (os : List OutcomeRec) :
    Stands s (createEntry tr o st n b os s) := by
  unfold createEntry
  split
  · exact updRct_stands _ ⟨Nat.le_succ _, Nat.le_refl _, Nat.le_refl _, Nat.le_refl _, .refl _⟩
  · exact offer_stands _ _ _

theorem closeEntry_stands (tr : Track) (falls : OutcomeRec → Bool) (reason : Nat → FailReason) (held : Nat → Nat)
    (p q : Bool) : Stands s (closeEntry tr falls reason held p q s) := by
  have closing (e : Entry) (v : State) : Stands v (closingEvent e v) := by
    unfold closingEvent
    split <;> exact offer_stands _ _ _
  unfold closeEntry
  split
  · exact .ite (.ite (updEntry_stands _ _) ((updEntry_stands _ _).trans (closing _ _))) (.refl _)
  · exact .refl _

theorem removeJob_stands (tr : Track) : Stands s (removeJob tr s) :=
  (updJbq_changes _).stands rfl

theorem endJob_stands (k : JobEnd) (p q : Bool) (j : Job) : Stands s (endJob k p q j s) :=
  ((endFrame_changes j).stands rfl).trans ((endCopies_changes j).stands rfl) |>.trans (closeEntry_stands _ _ _ _ _ _)
    |>.trans (reportPasses_stands _) |>.trans (removeJob_stands _)

theorem endWalk_stands (j : Job) : Stands s (endWalk j s) :=
  .ite ((updJob_changes _ _).stands rfl) (endJob_stands _ _ _ _)

theorem endRecovered_stands (j : Job) : Stands s (endRecovered j s) :=
  (Stands.ite (offer_stands _ _ _) (.refl _)).trans (endJob_stands _ _ _ _)

theorem advanceJob_stands (tr : Track) : Stands s (advanceJob tr s) := by
  rcases advanceJob_cases tr s with ⟨e, -⟩ | ⟨j, -, e | ⟨j', -, -, -, e | ⟨-, e⟩⟩⟩ <;> rw [e]
  · exact .refl s
  · exact endRecovered_stands j
  · exact ((updJob_changes _ _).stands rfl).trans (endWalk_stands j')
  · exact (updJob_changes _ _).stands rfl

theorem finishJobPass_stands (tr : Track) : Stands s (finishJobPass tr s) := by
  have refilled (j : Job) : Stands s (recordRefill j s) := by
    unfold recordRefill
    split
    · exact .ite (updEntry_stands _ _) (updEntry_stands _ _)
    · exact .ite (.refl _) (createEntry_stands _ _ _ _ _ _)
  unfold finishJobPass
  split
  · exact (Stands.ite (refilled _) (.refl _)).trans (advanceJob_stands _)
  · exact .refl _

/-! ### Fetches, votes and claims (R79, R96 to R98, R114) -/

theorem createFetchedJob_stands (k : GrantKind) (tr : Track) (os : List Nat) : Stands s (createFetchedJob k tr os s) := by
  have joined (j : Job) : Stands s (addJob j s) := (updJbq_changes _).stands rfl
  unfold createFetchedJob
  dsimp only
  split
  · exact (joined _).trans (updEntry_stands _ _)
  · exact (joined _).trans (createEntry_stands _ _ _ _ _ _)

theorem serveFill_stands (k : GrantKind) (tr : Track) (os : List Nat) : Stands s (serveFill k tr os s) := by
  unfold serveFill
  exact (((updJob_changes _ _).stands rfl).trans (updEntry_stands _ _)).trans (.ite (updEntry_stands _ _) (.refl _))
    |>.trans (finishJobPass_stands _)

theorem failFetch_stands (k : GrantKind) (tr : Track) (os : List Nat) : Stands s (failFetch k tr os s) := by
  have failed : Stands s (updFrame tr (failSectors os) s) := (updFrame_changes _ _).stands rfl
  unfold failFetch
  dsimp only
  refine .trans (.trans ?_ (offer_stands _ _ _)) ((updCps_changes _).stands rfl)
  split
  · exact failed.trans (updEntry_stands _ _)
  · exact failed.trans (createEntry_stands _ _ _ _ _ _)

theorem endFetch_stands (k : GrantKind) (tr : Track) : Stands s (endFetch k tr s) := by
  have dropped (v : State) : Stands v (dropFetchTallies v) := (updJbq_changes _).stands rfl
  unfold endFetch
  dsimp only
  refine .trans (.ite (serveFill_stands _ _ _) (.ite ((updCps_changes _).stands rfl)
    (.ite (createFetchedJob_stands _ _ _) ?_))) (dropped _)
  split
  · exact (endJob_stands _ _ _ _).trans (createFetchedJob_stands _ _ _)
  · exact failFetch_stands _ _ _

theorem deliverMember_stands (b : Batch) (m : Member) : Stands s (deliverMember b s m) := by
  have open_ (v : LastVote) : Stands s (deliverOpen b m v s) :=
    ((updCps_changes _).stands rfl).trans ((updJob_changes _ _).stands rfl)
  have voted (w : SectorWords) (n : Nat) : Stands s (deliverVoted b m w n s) :=
    ((updFrame_changes _ _).stands rfl).trans ((updCps_changes _).stands rfl) |>.trans (updEntry_stands _ _)
      |>.trans (reportMargin_stands _) |>.trans ((updJob_changes _ _).stands rfl)
  unfold deliverMember
  generalize voteOutcome b.minMargin m.copies = outcome
  cases outcome with
  | voted w n => exact voted w n
  | weak => exact open_ _
  | failedCheck => exact open_ _

theorem deliverBatch_stands (b : Batch) : Stands s (deliverBatch b s) := by
  unfold deliverBatch
  generalize b.members = ms
  induction ms generalizing s with
  | nil => exact .refl s
  | cons m ms ih =>
    rw [List.foldl_cons]
    exact (deliverMember_stands b m).trans (ih (s := deliverMember b s m))

theorem dropImage_stands (f : Frame) : Stands s (dropImage f s) :=
  .ite ((offer_stands _ _ _).trans (updEntry_stands _ _)) (.refl _)

theorem retire_stands (src : ClaimFrom) : Stands s (retire src s) := by
  have leave (tr : Track) (f : Frame) (v : State) : Stands v (releaseFrame tr (dropImage f v)) :=
    (dropImage_stands f).trans ((releaseFrame_changes tr).stands rfl)
  have evicted (tr : Track) : Stands s (jobEvicted tr s) := by
    unfold jobEvicted
    split
    · exact endJob_stands _ _ _ _
    · exact .refl s
  cases src with
  | free => exact .refl s
  | take tr =>
    unfold retire
    dsimp only
    split
    · exact leave _ _ _
    · exact .refl s
  | evict tr =>
    rw [retire_evict]
    split
    · exact (evicted tr).trans (leave _ _ _)
    · exact evicted tr

theorem prepareGrant_stands (c : Candidate) : Stands s (prepareGrant c s) := by
  have claimed (src : ClaimFrom) (tr : Track) : Stands s (claim src tr s) :=
    (retire_stands src).trans ((updTks_changes _).stands rfl)
  unfold prepareGrant
  split
  · exact (claimed _ _).trans ((updJbq_changes _).stands rfl)
  · dsimp only
    split
    · exact (claimed _ _).trans ((updJob_changes _ _).stands rfl)
    · exact (updJob_changes _ _).stands rfl

/-! ### The Drive Sequencer (R25 to R38) -/

theorem setDsqState_stands (st : DsqState) : Stands s (setDsqState st s) :=
  updDsq_stands _ rfl rfl

theorem setGrant_stands (g : Option Grant) : Stands s (setGrant g s) :=
  updDsq_stands _ rfl rfl

theorem clearOperation_stands : Stands s (clearOperation s) :=
  updDsq_stands _ rfl rfl

theorem enterIdle_stands : Stands s (enterIdle s) :=
  setDsqState_stands _

theorem endPassContext_stands : Stands s (endPassContext s) :=
  (updRdc_changes _).stands rfl

theorem requeueJob_stands (tr : Track) : Stands s (requeueJob tr s) :=
  (updJob_changes _ _).stands rfl

theorem endUnpassed_stands (g : Grant) : Stands s (endUnpassed g s) :=
  .ite ((setGrant_stands _).trans (requeueJob_stands _))
    (.ite ((setGrant_stands _).trans (endFetch_stands _ _))
      (((setGrant_stands _).trans ((releaseFrame_changes _).stands rfl)).trans ((updJbq_changes _).stands rfl)))

theorem abortPass_stands (g : Grant) : Stands s (abortPass g s) :=
  .ite ((endPassContext_stands.trans (setGrant_stands _)).trans (requeueJob_stands _))
    ((endPassContext_stands.trans (setGrant_stands _)).trans (endFetch_stands _ _))

theorem abandonWork_stands : Stands s (abandonWork s) := by
  unfold abandonWork
  refine .trans ?_ clearOperation_stands
  split
  · split
    · exact endUnpassed_stands _
    · exact abortPass_stands _
    · exact .refl _
  · exact .refl _

theorem completeBatch_stands (b : Batch) : Stands s (completeBatch b s) := by
  have ended (v : State) : Stands v (v.updVte fun v => { v with batch := none }) := (updVte_changes _).stands rfl
  have freed := ((deliverBatch_stands (s := s) b).trans (ended _)).trans (finishJobPass_stands b.track)
    |>.trans (setGrant_stands none)
  exact .ite (freed.trans enterIdle_stands) freed

theorem jobPassEnded_stands (g : Grant) : Stands s (jobPassEnded g s) := by
  have tallied : Stands s (passTallied g s) := ((updJob_changes _ _).stands rfl).trans (updEntry_stands _ _)
  exact ((tallied.trans (setGrant_stands _)).trans (setDsqState_stands _)).trans ((updVte_changes _).stands rfl)

theorem countPass_stands (g : Grant) : Stands s (countPass g s) := by
  by_cases kind : g.kind = .jobPass
  · have counted : countPass g s = if (formBatch g (passTallied g (endPassContext s))).members.isEmpty
        then completeBatch (formBatch g (passTallied g (endPassContext s))) (jobPassEnded g (endPassContext s))
        else jobPassEnded g (endPassContext s) := if_pos kind
    have ended := endPassContext_stands.trans (jobPassEnded_stands (s := endPassContext s) g)
    rw [counted]
    exact .ite (ended.trans (completeBatch_stands _)) ended
  · rw [countPass_fetch kind]
    exact ((endPassContext_stands.trans (setGrant_stands _)).trans (endFetch_stands _ _)).trans enterIdle_stands

theorem beginRecalibrate_stands : Stands s (beginRecalibrate s) := by
  have dsq := beginRecalibrate_dsq s
  have only : ChangesOnly [.dsq] s (beginRecalibrate s) := beginRecalibrate_changes
  exact ⟨fun _ k => by rwa [dsq], fun k => by rwa [dsq], by rw [only.evq]; exact .refl _,
    by rw [only.rct]; exact .refl _⟩

theorem endSettle_stands : Stands s (endSettle s) := by
  unfold endSettle
  split
  · exact .ite ((clearOperation_stands.trans (endUnpassed_stands _)).trans enterIdle_stands)
      (clearOperation_stands.trans (setDsqState_stands _))
  · exact clearOperation_stands.trans enterIdle_stands

theorem beginSettle_stands (g : Grant) : Stands s (beginSettle g s) :=
  .ite ((updDsq_stands _ rfl rfl).trans endSettle_stands) (updDsq_stands _ rfl rfl)

theorem takeUpGrant_stands (g : Grant) : Stands s (takeUpGrant g s) := by
  unfold takeUpGrant
  split
  · exact beginRecalibrate_stands
  · exact .ite (updDsq_stands _ rfl rfl)
      (.ite (beginSettle_stands _) (clearOperation_stands.trans (setDsqState_stands _)))

theorem arbitrate_stands : Stands s (arbitrate s) := by
  rcases arbitrate_cases s with e | ⟨c, -, -, -, -, e⟩ <;> rw [e]
  · exact .refl s
  · exact ((prepareGrant_stands c).trans (setGrant_stands _)).trans (takeUpGrant_stands _)

theorem raiseFence_stands (cause : FenceCause) (before : State) : Stands s (raiseFence cause before s) := by
  cases fence : s.dsq.fence with
  | some x => rw [raiseFence_of_fenced (by rw [fence]; rfl)]; exact .refl s
  | none =>
    rw [raiseFence_of_free fence]
    have work := abandonWork_stands (s := s)
    have raised : Stands s (fencedBy cause s) :=
      ⟨fun x k => (nomatch fence.symm.trans k), work.bypass, work.queue, work.table⟩
    exact raised.trans (offerLatching_stands _ _ _)

theorem seekFault_stands : Stands s (seekFault s) := by
  have counted : Stands s (faultCounted s) := updDsq_stands _ rfl rfl
  by_cases reached : s.dsq.set.fenceLimit ≤ s.dsq.faults + 1
  · rw [seekFault_of_limit reached]
    exact counted.trans (raiseFence_stands _ _)
  · rw [seekFault_of_below (Nat.lt_of_not_le reached)]
    exact (((counted.trans (setGrant_stands _)).trans endPassContext_stands).trans clearOperation_stands).trans
      beginRecalibrate_stands

theorem followSpindle_stands (old : Spindle) : Stands s (followSpindle old s) := by
  by_cases same : old = spindleOf s.ixm
  · rw [same, followSpindle_same rfl]
    exact .refl s
  rcases spindle_cases s.ixm with down | unstable | running
  · rw [followSpindle_of_down (Ne.symm same) down]
    rcases followDown_cases s with ⟨-, e⟩ | ⟨-, e⟩ | ⟨-, e⟩ | ⟨-, e⟩ <;> rw [e]
    · exact setDsqState_stands _
    · exact (abandonWork_stands.trans (updDsq_stands _ rfl rfl)).trans (setDsqState_stands _)
    · exact abandonWork_stands.trans (setDsqState_stands _)
    · exact .refl s
  · rw [followSpindle_unstable (Ne.symm same) unstable]
    by_cases reading : s.dsq.state = .reading
    · rw [followUnstable_of_reading reading]
      exact abandonWork_stands.trans (setDsqState_stands _)
    · rw [followUnstable_of_not_reading reading]
      exact .refl s
  · rw [followSpindle_of_running (Ne.symm same) running]
    rcases followRunning_cases s with e | ⟨-, e⟩ <;> rw [e]
    · exact .refl s
    · exact beginRecalibrate_stands

theorem beginPass_stands (g : Grant) (r : Timer) : Stands s (beginPass g r s) := by
  unfold beginPass
  exact (setGrant_stands _).trans ((updRdc_changes _).stands rfl)

theorem takeMark_stands (r : Timer) : Stands s (takeMark r s) := by
  rcases takeMark_cases r s with e | ⟨g, -, -, ⟨-, e⟩ | ⟨-, e⟩⟩ <;> rw [e]
  · exact .refl s
  · exact countPass_stands g
  · exact beginPass_stands g r

theorem takeLateExpiry_stands : Stands s (takeLateExpiry s) := by
  rcases takeLateExpiry_cases s with e | ⟨g, -, -, -, e⟩ <;> rw [e]
  · exact .refl s
  · exact countPass_stands g

theorem completeSeek_stands : Stands s (completeSeek s) := by
  have arrived : Stands s (seekArrived s) := by
    have dsq := seekArrived_dsq s
    exact ⟨fun _ k => by rwa [dsq], fun k => by rwa [dsq], .refl _, .refl _⟩
  cases grant : s.dsq.grant with
  | none => rw [completeSeek_of_free grant]; exact arrived.trans enterIdle_stands
  | some g =>
    by_cases unstable : spindleOf s.ixm = .unstable
    · rw [completeSeek_of_unstable grant unstable]
      exact (arrived.trans (endUnpassed_stands g)).trans enterIdle_stands
    · rw [completeSeek_of_steady grant unstable]
      exact arrived.trans (beginSettle_stands g)

theorem completeRecalibrate_stands : Stands s (completeRecalibrate s) := by
  have arrived : Stands s (recalibrateArrived s) := updDsq_stands (s := s) _ rfl rfl |>.trans clearOperation_stands
  have resumed (g : Grant) (v : State) : Stands v (resumeGrant g v) := by
    have ended : Stands v (enterIdle (endUnpassed g v)) := (endUnpassed_stands g).trans enterIdle_stands
    unfold resumeGrant
    split
    · exact countPass_stands g
    · exact ended
    · exact .ite ended (takeUpGrant_stands g)
  cases grant : s.dsq.grant with
  | none => rw [completeRecalibrate_of_free grant]; exact arrived.trans enterIdle_stands
  | some g =>
    by_cases phase : g.phase = .approach
    · rw [completeRecalibrate_of_approach grant phase]; exact arrived.trans (resumed g _)
    · rw [completeRecalibrate_of_past grant phase]; exact arrived.trans enterIdle_stands

/-! ### The ends of events, and answers -/

theorem afterJobs_stands : Stands s (afterJobs s) :=
  (testHold_changes.stands rfl).trans arbitrate_stands

theorem afterEvent_stands : Stands s (afterEvent s) :=
  (followReady_changes.stands rfl).trans afterJobs_stands

theorem fence_after_stands (cause : FenceCause) (before : State) : Stands s (afterEvent (raiseFence cause before s)) :=
  (raiseFence_stands cause before).trans afterEvent_stands

theorem seekFault_after_stands : Stands s (afterEvent (seekFault s)) :=
  seekFault_stands.trans afterEvent_stands

theorem watchSelect_stands : Stands s (watchSelect s) :=
  .ite (fence_after_stands _ _) (.refl _)

theorem answer_stands (r : ResultCode) (code : Byte) (p : List Byte) : Stands s (answer r code p s) :=
  (answer_changes r code p).stands rfl

theorem refuse_stands (r : ResultCode) (code : Byte) : Stands s (refuse r code s) :=
  answer_stands _ _ _

theorem takeRequest_stands {code : Byte} {act : List Byte → State → State} (h : ∀ p, Stands s (act p s)) :
    Stands s (takeRequest code act s) :=
  takeRequest_keeps (P := Stands s) (.refl s) (refuse_stands _ _) h

end Sys2Proof.Machine
end

section
/-! PROOF. Every command keeps what stands until cleared, but for the five that clear a part of it and power-on
(R37, R38, R42, R132, R141, R201). -/

namespace Sys2Proof.Machine

variable {s t u : State} {bs : List Block}

/-! ### Rotation -/

theorem badEvent_stands (x : Ixm) : Stands s (badEvent x s) := by
  have counted : Stands s (reportViolations x.violations (s.updIxm fun _ => { x with latched := x.latched || latches x })) :=
    ((updIxm_changes _).stands rfl).trans (reportViolations_stands _)
  exact .ite (counted.trans (offerLatching_stands _ _ _)) counted

theorem monitorIndex_stands (now : Timer) : Stands s (monitorIndex now s) := by
  have moved (f : Ixm → Ixm) : Stands s (s.updIxm f) := (updIxm_changes f).stands rfl
  have good : Stands s (goodEvent now s) := .ite ((moved _).trans (offer_stands _ _ _)) (moved _)
  unfold monitorIndex
  split
  · exact moved _
  · exact (moved _).trans (offer_stands _ _ _)
  · exact badEvent_stands _
  · exact good
  · exact moved _

theorem qualifiedIndex_stands : Stands s (qualifiedIndex s) := by
  have taken : Stands s (s.updIxm markTaken) := (updIxm_changes _).stands rfl
  have followed := (taken.trans (monitorIndex_stands s.clock.rotationTimer)).trans
    (followSpindle_stands (spindleOf s.ixm))
  exact .trans (.ite (followed.trans (takeMark_stands _)) followed) afterEvent_stands

/-! ### Headers and copies -/

theorem tallyPass_stands (tr : Track) (i : Nat) (f : Tally → Tally) : Stands s (tallyPass tr i f s) :=
  (tallyPass_changes tr i f).stands rfl

theorem takeHeader_stands (p : PassContext) (mark : Timer) (h : HeaderRead) : Stands s (takeHeader p mark h s) :=
  .ite (.refl _) (.ite (.ite (tallyPass_stands _ _ _) (.refl _))
    (.ite seekFault_after_stands (.ite ((updRdc_changes _).stands rfl) (.refl _))))

theorem deliverGood_stands (c : SealedCopy) : Stands s (deliverGood c s) := by
  have closed (v : State) : Stands v ((closeInPass c.addr.sector v).updCps (freeSector c.addr)) :=
    (((updRdc_changes _).stands rfl).trans (updDsq_stands _ rfl rfl)).trans ((updCps_changes _).stands rfl)
  have framed : Stands s (updFrame c.addr.track (Frame.sealGood (plainPass s.dsq) c.addr.sector c.words) s) :=
    (updFrame_changes _ _).stands rfl
  have recorded (f : Entry → Entry) :=
    (Stands.ite (p := plainPass s.dsq) framed (framed.trans (updEntry_stands c.addr.track f))).trans (closed _)
  exact .ite (recorded _) ((recorded _).trans ((updJob_changes _ _).stands rfl))

theorem deliverBad_stands_table (c : SealedCopy) : Stands s (deliverBad c s) := by
  have framed : Stands s
      (updFrame c.addr.track (Frame.updSector c.addr.sector (recordBad c.words c.weight)) s) :=
    (updFrame_changes _ _).stands rfl
  have placed := framed.trans ((updCps_changes (placeCopy s.vte.copyLimit c)).stands rfl)
  have starved (v : State) : Stands v (markStarved c.addr.track v) :=
    .ite ((updJbq_changes _).stands rfl) (((updJob_changes _ _).stands rfl).trans (updEntry_stands _ _))
  unfold deliverBad
  dsimp only
  split
  · exact placed.trans (reportDeviation_stands _)
  · exact placed.trans (reportDeviation_stands _)
  · exact placed.trans (starved _)
  · exact placed

theorem deliverCopy_stands (c : SealedCopy) : Stands s (deliverCopy c s) := by
  have read : Stands s (s.updRdc fun r => { r with lastDeviation := c.deviation, assembly := none }) :=
    (updRdc_changes _).stands rfl
  have counted := read.trans (tallyPass_stands c.addr.track c.addr.sector Tally.countCopy)
  exact .trans (.ite (counted.trans (deliverGood_stands c)) (counted.trans (deliverBad_stands_table c)))
    (testHold_changes.stands rfl)

/-! ### Requests -/

theorem addJob_stands (j : Job) : Stands s (addJob j s) :=
  (updJbq_changes _).stands rfl

theorem createKeptJob_stands (tr : Track) (f : Frame) (n : Nat) : Stands s (createKeptJob tr f n s) := by
  have reopened (j : Job) : Stands s (updFrame tr Frame.reopen (addJob j s)) :=
    (addJob_stands j).trans ((updFrame_changes _ _).stands rfl)
  unfold createKeptJob
  dsimp only
  split
  · exact (reopened _).trans (updEntry_stands _ _)
  · exact (reopened _).trans (createEntry_stands _ _ _ _ _ _)

theorem takeQueueTrack_stands (p : List Byte) : Stands s (takeQueueTrack p s) := by
  unfold takeQueueTrack
  refine .ite ?_ (refuse_stands _ _)
  split
  · exact .ite (answer_stands _ _ _) (.ite (refuse_stands _ _)
      ((((updJob_changes _ _).stands rfl).trans (updEntry_stands _ _)).trans afterJobs_stands |>.trans (answer_stands _ _ _)))
  · refine .ite (refuse_stands _ _) ?_
    split
    · exact .ite (refuse_stands _ _) (.ite ((offer_stands _ _ _).trans (answer_stands _ _ _))
        (((createKeptJob_stands _ _ _).trans afterJobs_stands).trans (answer_stands _ _ _)))
    · exact (((addJob_stands _).trans (updEntry_stands _ _)).trans afterJobs_stands).trans (answer_stands _ _ _)

theorem takeRetryTrack_stands (p : List Byte) : Stands s (takeRetryTrack p s) := by
  unfold takeRetryTrack
  refine .ite ?_ (refuse_stands _ _)
  split
  · exact .ite (.ite (refuse_stands _ _)
      (((createKeptJob_stands _ _ _).trans afterJobs_stands).trans (answer_stands _ _ _))) (refuse_stands _ _)
  · exact refuse_stands _ _
  · exact refuse_stands _ _

theorem cancelGrant_stands (tr : Track) : Stands s (cancelGrant tr s) := by
  have only : ChangesOnly [.dsq, .rdc, .vte] s (cancelGrant tr s) := cancelGrant_changes tr
  have dsq : (cancelGrant tr s).dsq.fence = s.dsq.fence ∧ (cancelGrant tr s).dsq.bypass = s.dsq.bypass := by
    by_cases held : ∃ g, s.dsq.grant = some g ∧ g.kind = .jobPass ∧ g.track = tr
    · obtain ⟨g, grant, kind, track⟩ := held
      rw [(cancelGrant_of_held grant kind track).1]
      exact ⟨rfl, rfl⟩
    · rw [cancelGrant_of_other fun g grant k => held ⟨g, grant, k⟩]
      exact ⟨rfl, rfl⟩
  exact ⟨fun _ => dsq.1.trans, dsq.2.trans, by rw [only.evq]; exact .refl _, by rw [only.rct]; exact .refl _⟩

theorem takeCancelJob_stands (p : List Byte) : Stands s (takeCancelJob p s) := by
  unfold takeCancelJob
  refine .ite ?_ (refuse_stands _ _)
  split
  · exact ((cancelGrant_stands _).trans (endJob_stands _ _ _ _)).trans afterJobs_stands |>.trans (answer_stands _ _ _)
  · exact refuse_stands _ _

theorem takeSetGeometry_stands (p : List Byte) : Stands s (takeSetGeometry p s) := by
  have port (v : State) : Stands v (portNewGeometry v) := by
    unfold portNewGeometry
    split
    · exact (updMcp_changes _).stands rfl
    · exact (updMcp_changes _).stands rfl
    · exact ((updMcp_changes _).stands rfl).trans (beginHold_changes.stands rfl)
  have stored : Stands s (storeGeometry (geometryOf p) s) :=
    ((((updGeom_changes _).stands rfl).trans (updDsq_stands _ rfl rfl)).trans (port _)).trans arbitrate_stands
  exact .ite (.ite (stored.trans (answer_stands _ _ _)) (refuse_stands _ _)) (refuse_stands _ _)

theorem takeSetRotation_stands (p : List Byte) : Stands s (takeSetRotation p s) := by
  have restarted (f : Ixm → Ixm) : Stands s (s.updIxm f) := (updIxm_changes f).stands rfl
  exact .ite ((((restarted _).trans (followSpindle_stands _)).trans afterEvent_stands).trans (answer_stands _ _ _))
    (refuse_stands _ _)

theorem setAttentionMode_stands (old new : Bool) (e : Evq) : QueueStands e (setAttentionMode old new e) := by
  unfold setAttentionMode
  split
  · exact .refl e
  · split
    · exact ⟨List.prefix_rfl, id, fun _ => id⟩
    · exact ⟨List.prefix_rfl, id, fun _ => id⟩

theorem takeSetPort_stands (p : List Byte) : Stands s (takeSetPort p s) :=
  (((updEvq_stands _ (setAttentionMode_stands _ _ _)).trans ((updMcp_changes _).stands rfl)).trans
    ((updTks_changes _).stands rfl)).trans arbitrate_stands |>.trans (answer_stands _ _ _)

theorem takeRestDrive_stands (p : List Byte) : Stands s (takeRestDrive p s) := by
  have rests (n : Nat) : Stands s (begunRest n s) := abandonWork_stands.trans (updDsq_stands _ rfl rfl)
  exact .ite (refuse_stands _ _) ((Stands.ite ((rests _).trans beginRecalibrate_stands) (rests _)).trans afterEvent_stands
    |>.trans (answer_stands _ _ _))

theorem takeBypassOn_stands : Stands s (takeBypassOn s) := by
  have work := abandonWork_stands (s := s)
  have closed : Stands s (bypassOn s) := ⟨work.fence, fun _ => rfl, work.queue, work.table⟩
  exact .trans (.ite (.refl _) closed) (answer_stands _ _ _)

theorem softReset_stands : Stands s (softReset s) := by
  have ended : Stands s (resetJobs s) := by
    unfold resetJobs
    generalize s.jbq.jobs = js
    induction js generalizing s with
    | nil => exact .refl s
    | cons j js ih =>
      rw [List.foldl_cons]
      exact (endJob_stands _ _ _ j).trans (ih (s := endJob (.cause .cancelled) true true j s))
  have blocks : Stands s (resetBlocks s) := ⟨fun _ => id, id, ended.queue, ended.table⟩
  exact blocks.trans (offer_stands _ _ _)

/-- CLEAR_FENCE keeps all but the fence, which it has cleared first. -/
theorem takeClearFence_stands : Stands s (takeClearFence s) ∨
    Stands (s.updDsq fun d => { d with fence := none, faults := 0, quiet := none }) (takeClearFence s) := by
  unfold takeClearFence
  by_cases refused : s.pins.driveFault || contentionNow s
  · rw [if_pos refused]; exact .inl (refuse_stands _ _)
  · rw [if_neg refused]
    cases fence : s.dsq.fence with
    | none => exact .inl (answer_stands _ _ _)
    | some c =>
      refine .inr (.trans ?_ (answer_stands _ _ _))
      have cleared : Stands (s.updDsq fun d => { d with fence := none, faults := 0, quiet := none }) (clearedFence c s) :=
        offer_stands _ _ _
      exact .ite (((cleared.trans beginRecalibrate_stands).trans afterEvent_stands).trans watchSelect_stands) cleared

/-- BYPASS off keeps all but the bypass, which it has opened first. -/
theorem takeBypassOff_stands : Stands s (takeBypassOff s) ∨ Stands (relayOpened s) (takeBypassOff s) := by
  unfold takeBypassOff
  by_cases bypass : s.dsq.bypass
  · rw [if_pos bypass]
    have port (v : State) : Stands v (reattachPort v) :=
      .ite (((updMcp_changes _).stands rfl).trans (beginHold_changes.stands rfl)) ((updMcp_changes _).stands rfl)
    have drive : Stands (relayOpened s) (reattachDrive s) :=
      .ite (setDsqState_stands _) (.ite (raiseFence_stands _ _) (.ite (raiseFence_stands _ _) beginRecalibrate_stands))
    exact .inr (((drive.trans (port _)).trans arbitrate_stands).trans (answer_stands _ _ _))
  · rw [if_neg bypass]
    exact .inl (answer_stands _ _ _)

/-! ### Every command -/

/-- The commands that clear a part of what stands. -/
def clearing : Instr → Bool
  | .powerOnReset | .clearFence | .getSnapshot | .bypassOff | .getEvents | .clearStats => true
  | _ => false

/-- The command answers a state in which nothing is cleared. -/
def ExecStands (c : Instr) (s : State) : Prop :=
  ∃ t, exec c s = .next t ∧ Stands s t

theorem CompletesWithin.execStands {c : Instr} (h : CompletesWithin bs c s) (idle : bs.all Block.idle = true) :
    ExecStands c s :=
  h.imp fun _ k => ⟨k.1, k.2.stands idle⟩

theorem exec_stands (c : Instr) (s : State) (h : clearing c = false) : ExecStands c s := by
  cases c with
  | indexQualified n => exact ⟨_, rfl, .ite qualifiedIndex_stands (.refl s)⟩
  | startupWindowExpiry =>
    exact ⟨_, rfl, .ite (((badEvent_stands _).trans (followSpindle_stands _)).trans afterEvent_stands) (.refl s)⟩
  | closedWindowExpiry => exact ⟨_, rfl, .ite ((updIxm_changes _).stands rfl) (.refl s)⟩
  | openWindowExpiry =>
    exact ⟨_, rfl, .ite ((((badEvent_stands _).trans (followSpindle_stands _)).trans takeLateExpiry_stands).trans
      afterEvent_stands) (.refl s)⟩
  | resyncLimitExpiry =>
    have stopped : Stands s (s.updIxm enterIdleWindow) := (updIxm_changes _).stands rfl
    exact ⟨_, rfl, .ite (((stopped.trans (offer_stands _ _ _)).trans (followSpindle_stands _)).trans afterEvent_stands)
      (.refl s)⟩
  | seekComplete current =>
    refine ⟨_, rfl, .ite ?_ (.refl s)⟩
    split
    · exact completeSeek_stands.trans afterEvent_stands
    · exact completeRecalibrate_stands.trans afterEvent_stands
    · exact .refl s
  | seekError =>
    refine ⟨_, rfl, ?_⟩
    split
    · exact seekFault_after_stands
    · exact seekFault_after_stands
    · exact seekFault_after_stands
    · exact .refl s
  | seekTimeoutExpiry => exact ⟨_, rfl, .ite seekFault_after_stands (.refl s)⟩
  | recalibrateTimeoutExpiry => exact ⟨_, rfl, .ite (fence_after_stands _ _) (.refl s)⟩
  | settleWaitEnd => exact ⟨_, rfl, .ite (endSettle_stands.trans afterEvent_stands) (.refl s)⟩
  | restEnd => exact ⟨_, rfl, .ite (beginRecalibrate_stands.trans afterEvent_stands) (.refl s)⟩
  | quietExpiry => exact ⟨_, rfl, .ite (updDsq_stands _ rfl rfl) (.refl s)⟩
  | driveFaultAsserted line =>
    exact ⟨_, rfl, .ite (((updPins_changes _).stands rfl).trans (fence_after_stands _ _)) ((updPins_changes _).stands rfl)⟩
  | contentionSeen held => exact ⟨_, rfl, ((updPins_changes _).stands rfl).trans watchSelect_stands⟩
  | header mark cyl hd sector check outside =>
    refine ⟨_, rfl, ?_⟩
    split
    · exact takeHeader_stands _ _ _
    · exact .refl s
  | copySeal data check outside =>
    refine ⟨_, rfl, ?_⟩
    split
    · exact deliverCopy_stands _
    · exact .refl s
  | batchCompletion =>
    refine ⟨_, rfl, ?_⟩
    split
    · exact (completeBatch_stands _).trans afterEvent_stands
    · exact .refl s
  | cooldownExpiry cyl hd =>
    refine ⟨_, rfl, ?_⟩
    split
    · exact .ite (((updJob_changes _ _).stands rfl).trans arbitrate_stands) (.refl s)
    · exact .refl s
  | holdExpiry => exact ⟨_, rfl, .ite (((updMcp_changes _).stands rfl).trans arbitrate_stands) (.refl s)⟩
  | seek cyl =>
    have moved (tr : Track) : Stands s (beginHold (setTrack tr s)) :=
      ((setTrack_changes _).stands rfl).trans (beginHold_changes.stands rfl)
    exact ⟨_, rfl, .ite (.ite ((moved _).trans arbitrate_stands) ((updMcp_changes _).stands rfl)) (.refl s)⟩
  | head hd => exact ⟨_, rfl, .ite (((selectHead_changes _).stands rfl).trans arbitrate_stands) (.refl s)⟩
  | recalibrate =>
    exact ⟨_, rfl, .ite ((((setTrack_changes _).stands rfl).trans (beginHold_changes.stands rfl)).trans arbitrate_stands) (.refl s)⟩
  | writeDataComplete d =>
    refine ⟨_, rfl, ?_⟩
    split
    · exact .ite (((updMcp_changes _).stands rfl).trans (.ite ((updOvl_changes _).stands rfl) (.ite ((updOvl_changes _).stands rfl)
        (((updMcp_changes _).stands rfl).trans (offer_stands _ _ _))))) (.refl s)
    · exact .refl s
  | attentionPulseEnd =>
    refine ⟨_, rfl, .ite (updEvq_stands _ ?_) (.refl s)⟩
    unfold endPulse
    split <;> exact ⟨List.prefix_rfl, id, fun _ => id⟩
  | attentionGapEnd =>
    refine ⟨_, rfl, .ite (updEvq_stands _ ?_) (.refl s)⟩
    unfold endGap
    split <;> exact ⟨List.prefix_rfl, id, fun _ => id⟩
  | markExported =>
    exact ⟨_, rfl, takeRequest_stands fun p => .ite (((updEntry_stands _ _).trans ((updFrame_changes _ _).stands rfl)).trans
      arbitrate_stands |>.trans (answer_stands _ _ _)) (refuse_stands _ _)⟩
  | queueTrack => exact ⟨_, rfl, takeRequest_stands takeQueueTrack_stands⟩
  | retryTrack => exact ⟨_, rfl, takeRequest_stands takeRetryTrack_stands⟩
  | cancelJob => exact ⟨_, rfl, takeRequest_stands takeCancelJob_stands⟩
  | setGeometry => exact ⟨_, rfl, takeRequest_stands takeSetGeometry_stands⟩
  | setRotation => exact ⟨_, rfl, takeRequest_stands takeSetRotation_stands⟩
  | setDrive =>
    exact ⟨_, rfl, takeRequest_stands fun _ => ((updDsq_stands _ rfl rfl).trans arbitrate_stands).trans
      (answer_stands _ _ _)⟩
  | setPort => exact ⟨_, rfl, takeRequest_stands takeSetPort_stands⟩
  | restDrive => exact ⟨_, rfl, takeRequest_stands takeRestDrive_stands⟩
  | bypassOn => exact ⟨_, rfl, takeRequest_stands fun _ => .ite takeBypassOn_stands (.refl _)⟩
  | softReset => exact ⟨_, rfl, takeRequest_stands fun _ => softReset_stands.trans (answer_stands _ _ _)⟩
  | emulatedIndex => exact emulatedIndex_within.execStands rfl
  | sectorPulse => exact sectorPulse_within.execStands rfl
  | read => exact read_within.execStands rfl
  | write => exact write_within.execStands rfl
  | faultClear => exact faultClear_within.execStands rfl
  | unitSelect active => exact (unitSelect_within active).execStands rfl
  | transferStart => exact transferStart_within.execStands rfl
  | requestCodeByte code => exact (requestCodeByte_within code).execStands rfl
  | frameComplete l p c => exact (frameComplete_within l p c).execStands rfl
  | selectRise => exact selectRise_within.execStands rfl
  | fetchFirstByte => exact fetchFirstByte_within.execStands rfl
  | responseReleased => exact responseReleased_within.execStands rfl
  | unknownRequest => exact unknownRequest_within.execStands rfl
  | frameError => exact frameError_within.execStands rfl
  | status => exact status_within.execStands rfl
  | getStats => exact getStats_within.execStands rfl
  | listEntries => exact listEntries_within.execStands rfl
  | getEntry => exact getEntry_within.execStands rfl
  | readSector => exact readSector_within.execStands rfl
  | listFrames => exact listFrames_within.execStands rfl
  | listJobs => exact listJobs_within.execStands rfl
  | listOverlay => exact listOverlay_within.execStands rfl
  | readOverlay => exact readOverlay_within.execStands rfl
  | dropOverlay => exact dropOverlay_within.execStands rfl
  | getSettings => exact getSettings_within.execStands rfl
  | setRead => exact setRead_within.execStands rfl
  | setVote => exact setVote_within.execStands rfl
  | setLadderStep => exact setLadderStep_within.execStands rfl
  | setLadderShape => exact setLadderShape_within.execStands rfl
  | _ => simp [clearing] at h

/-! ### The commands that clear -/

theorem takeRequest_cases_stands {code : Byte} {act : List Byte → State → State} {P : State → Prop}
    (stands : ∀ u, Stands s u → P u) (acts : ∀ p, P (act p s)) : P (takeRequest code act s) :=
  takeRequest_keeps (stands s (.refl s)) (stands _ (refuse_stands _ _)) acts

/-- What must stand under the command, as O18 says it. -/
def StandsUnder (c : Instr) (s t : State) : Prop :=
  (∀ x, c ≠ .clearFence → s.dsq.fence = some x → t.dsq.fence = some x) ∧
  (∀ x, c ≠ .getSnapshot → s.evq.snapshot = some x → t.evq.snapshot = some x) ∧
  (c ≠ .bypassOff → s.dsq.bypass = true → t.dsq.bypass = true) ∧
  (c ≠ .getEvents → s.evq.overrun = true → t.evq.overrun = true) ∧
  (c ≠ .getEvents → s.evq.records <+: t.evq.records) ∧
  s.rct.nextSequence ≤ t.rct.nextSequence ∧
  (c ≠ .clearStats → s.rct.peakPasses ≤ t.rct.peakPasses ∧ s.rct.peakDeviation ≤ t.rct.peakDeviation ∧
    s.rct.peakViolations ≤ t.rct.peakViolations ∧
    ∀ m, s.rct.peakMargin = some m → ∃ n, t.rct.peakMargin = some n ∧ n ≤ m)

theorem MarginStands.some {a b : Option Nat} (h : MarginStands a b) : ∀ m, a = some m → ∃ n, b = some n ∧ n ≤ m := by
  rintro m rfl
  exact h

theorem Stands.under (h : Stands s t) (c : Instr) : StandsUnder c s t := by
  obtain ⟨fence, bypass, ⟨records, overrun, snapshot⟩, ⟨sequence, passes, deviation, violations, margin⟩⟩ := h
  exact ⟨fun x _ => fence x, fun x _ => snapshot x, fun _ => bypass, fun _ => overrun, fun _ => records, sequence,
    fun _ => ⟨passes, deviation, violations, margin.some⟩⟩

/-- The command clears its part first, and nothing after that. -/
theorem StandsUnder.clearFence (h : Stands (s.updDsq fun d => { d with fence := none, faults := 0, quiet := none }) t) :
    StandsUnder .clearFence s t := by
  obtain ⟨-, snapshot, bypass, overrun, records, sequence, peaks⟩ := h.under .clearFence
  exact ⟨fun _ other => absurd rfl other, snapshot, bypass, overrun, records, sequence, peaks⟩

theorem StandsUnder.bypassOff (h : Stands (relayOpened s) t) : StandsUnder .bypassOff s t := by
  obtain ⟨fence, snapshot, -, overrun, records, sequence, peaks⟩ := h.under .bypassOff
  exact ⟨fence, snapshot, fun other => absurd rfl other, overrun, records, sequence, peaks⟩

theorem StandsUnder.getSnapshot (h : Stands (s.updEvq fun e => { e with snapshot := none }) t) :
    StandsUnder .getSnapshot s t := by
  obtain ⟨fence, -, bypass, overrun, records, sequence, peaks⟩ := h.under .getSnapshot
  exact ⟨fence, fun _ other => absurd rfl other, bypass, overrun, records, sequence, peaks⟩

theorem StandsUnder.getEvents {n : Nat} {b : Bool} (h : Stands (s.updEvq (drainEvents n b)) t) :
    StandsUnder .getEvents s t := by
  obtain ⟨fence, snapshot, bypass, -, -, sequence, peaks⟩ := h.under .getEvents
  exact ⟨fence, snapshot, bypass, fun other => absurd rfl other, fun other => absurd rfl other, sequence, peaks⟩

theorem StandsUnder.clearStats (h : Stands (s.updRct clearPeaks) t) : StandsUnder .clearStats s t := by
  obtain ⟨fence, snapshot, bypass, overrun, records, sequence, -⟩ := h.under .clearStats
  exact ⟨fence, snapshot, bypass, overrun, records, sequence, fun other => absurd rfl other⟩

theorem exec_standsUnder (c : Instr) (s : State) (h : c ≠ .powerOnReset) : ∃ t, exec c s = .next t ∧ StandsUnder c s t := by
  cases clears : clearing c with
  | false =>
    obtain ⟨t, run, stands⟩ := exec_stands c s clears
    exact ⟨t, run, stands.under c⟩
  | true =>
    have kept (u : State) (k : Stands s u) : StandsUnder c s u := k.under c
    cases c with
    | clearFence =>
      refine ⟨_, rfl, takeRequest_cases_stands kept fun _ => ?_⟩
      rcases takeClearFence_stands (s := s) with k | k
      exacts [kept _ k, .clearFence k]
    | bypassOff =>
      refine ⟨_, rfl, takeRequest_cases_stands kept fun p => ?_⟩
      split
      · exact kept _ (.refl s)
      · rcases takeBypassOff_stands (s := s) with k | k
        exacts [kept _ k, .bypassOff k]
    | getSnapshot => exact ⟨_, rfl, takeRequest_cases_stands kept fun _ => .getSnapshot (answer_stands _ _ _)⟩
    | getEvents => exact ⟨_, rfl, takeRequest_cases_stands kept fun _ => .getEvents (answer_stands _ _ _)⟩
    | clearStats => exact ⟨_, rfl, takeRequest_cases_stands kept fun _ => .clearStats (answer_stands _ _ _)⟩
    | powerOnReset => exact absurd rfl h
    | _ => cases clears

end Sys2Proof.Machine

open Sys2Proof Sys2Proof.Machine

/-- Settles O18: no operation clears what stands, and each of the five requests that do clears its own part alone. -/
theorem recordsStandUntilCleared : Obligations.RecordsStandUntilCleared := by
  intro c s t run power
  obtain ⟨u, reached, stands⟩ := exec_standsUnder c s power
  cases run.symm.trans reached
  exact stands

end


section
/-! PROOF. The three requests that store the geometry, the drive settings and the port settings (R44, R165, R190). -/

namespace Sys2Proof.Machine

variable {s : State}

/-! ### Payloads and echoes (R177, R210) -/

theorem pairAt_le (p : List Byte) (i : Nat) : pairAt p i ≤ 65535 := by
  have := byteAt_le p i
  have := byteAt_le p (i + 1)
  unfold pairAt
  omega

theorem flagAt_eq (p : List Byte) (i : Nat) : flagAt p i = decide (byteAt p i ≠ 0) := by
  have zero : (p.getD i 0 = 0) ↔ byteAt p i = 0 := BitVec.toNat_eq (x := p.getD i 0) (y := 0)
  rw [Bool.eq_iff_iff, flagAt, bne_iff_ne, decide_eq_true_iff]
  exact not_congr zero

theorem driveSettingsOf_eq (p : List Byte) : driveSettingsOf p =
    ⟨max 10 (min 500 (pairAt p 0)), min 50 (byteAt p 2), min 7 (byteAt p 3), max 1 (min 15 (byteAt p 4)),
      max 1 (min 600 (pairAt p 5)), decide (byteAt p 7 ≠ 0)⟩ := by
  rw [driveSettingsOf, flagAt_eq, clampNat_eq 10 500 _ (by omega), clampNat_eq 0 50 _ (by omega),
    clampNat_eq 0 7 _ (by omega), clampNat_eq 1 15 _ (by omega), clampNat_eq 1 600 _ (by omega)]
  simp only [Nat.zero_max]

theorem holdLimitOf_eq (p : List Byte) : holdLimitOf p = min 2000 (pairAt p 0) := by
  rw [holdLimitOf, clampNat_eq 0 2000 _ (by omega), Nat.zero_max]

/-- A flag in an echo is a byte other than 0 exactly when it is on. -/
theorem flagBit_mod_eq_zero (b : Bool) : flagBit b 0 % 256 = 0 ↔ b = false := by
  cases b <;> decide

/-- A geometry that a payload carries stands in the echo as it is. -/
theorem geometryBytes_fields (p : List Byte) :
    (geometryBytes (geometryOf p)).length = 4 ∧ pairAt (geometryBytes (geometryOf p)) 0 = pairAt p 0 ∧
      byteAt (geometryBytes (geometryOf p)) 2 = byteAt p 2 ∧ byteAt (geometryBytes (geometryOf p)) 3 = byteAt p 3 := by
  have cylinders := pairAt_le p 0
  have heads := byteAt_le p 2
  have sectors := byteAt_le p 3
  simp only [geometryBytes, geometryOf, u16, u8, List.cons_append, List.nil_append]
  generalize pairAt p 0 = c at *
  simp only [pairAt, byteAt, List.getD_cons_zero, List.getD_cons_succ, BitVec.toNat_ofNat, List.length_cons,
    List.length_nil, true_and] at *
  omega

/-- Settings within their ranges stand in the echo as they are. -/
theorem driveBytes_fields {d : DriveSettings} (h : d.InRange) :
    (driveBytes d).length = 8 ∧ pairAt (driveBytes d) 0 = d.seekTimeout ∧ byteAt (driveBytes d) 2 = d.settle ∧
      byteAt (driveBytes d) 3 = d.retries ∧ byteAt (driveBytes d) 4 = d.fenceLimit ∧
      pairAt (driveBytes d) 5 = d.quietPeriod ∧ (byteAt (driveBytes d) 7 = 0 ↔ d.prefetch = false) := by
  obtain ⟨-, timeout, settle, retries, -, limit, -, quiet⟩ := h
  have flag := flagBit_mod_eq_zero d.prefetch
  simp only [driveBytes, u16, u8, List.cons_append, List.nil_append, pairAt, byteAt, List.getD_cons_zero,
    List.getD_cons_succ, BitVec.toNat_ofNat, Nat.reducePow, flag, List.length_cons, List.length_nil, true_and, and_true]
  omega

theorem portBytes_fields {n : Nat} (h : n ≤ 2000) (hold pulse : Bool) :
    (portBytes n hold pulse).length = 4 ∧ pairAt (portBytes n hold pulse) 0 = n ∧
      (byteAt (portBytes n hold pulse) 2 = 0 ↔ hold = false) ∧
      (byteAt (portBytes n hold pulse) 3 = 0 ↔ pulse = false) := by
  have holdFlag := flagBit_mod_eq_zero hold
  have pulseFlag := flagBit_mod_eq_zero pulse
  simp only [portBytes, u16, u8, List.cons_append, List.nil_append, pairAt, byteAt, List.getD_cons_zero,
    List.getD_cons_succ, BitVec.toNat_ofNat, Nat.reducePow, holdFlag, pulseFlag, List.length_cons, List.length_nil,
    true_and, and_true]
  omega

/-! ### SET_GEOMETRY (R149, R190) -/

theorem geometryOf_inRange_iff (p : List Byte) : (geometryOf p).inRange = true ↔
    (1 ≤ pairAt p 0 ∧ pairAt p 0 ≤ 1024) ∧ (1 ≤ byteAt p 2 ∧ byteAt p 2 ≤ 16) ∧
      1 ≤ byteAt p 3 ∧ byteAt p 3 ≤ 32 := by
  rw [Geometry.inRange, Bool.and_eq_true, Bool.and_eq_true, decide_eq_true_iff, decide_eq_true_iff, decide_eq_true_iff,
    and_assoc]
  exact .rfl

theorem geometryFree_iff (s : State) : geometryFree s = true ↔
    (s.dsq.state = .offline ∨ s.dsq.state = .idle) ∧ s.jbq.jobs = [] ∧ s.tks.frames = [] := by
  simp [geometryFree, driveQuiet_iff, and_assoc]

theorem frameOf_of_no_frame (h : s.tks.frames = []) (tr : Track) : frameOf tr s = none := by
  simp [frameOf, h]

/-- Over a track without a frame a hold begins and stands (R152, R153). -/
theorem startPort_holds (cylinders : 1 ≤ s.geom.cylinders) (heads : 1 ≤ s.geom.heads) (frames : s.tks.frames = []) :
    startPort s = s.updMcp fun m =>
      { m with track := ⟨0, 0⟩, state := .seeking, hold := some (uptimeExpiry s m.holdLimit), activity := .none } := by
  have inside : inGeometry (s.updMcp fun m => { m with track := ⟨0, 0⟩ }) ⟨0, 0⟩ = true := by
    exact Bool.and_eq_true_iff.mpr ⟨decide_eq_true cylinders, decide_eq_true heads⟩
  have unresolved (m : Mcp) : currentResolved { s with mcp := m } = false := by
    simp [currentResolved, frameOf_of_no_frame (s := { s with mcp := m }) frames]
  refine (if_pos inside).trans ?_
  exact if_neg fun k => Bool.false_ne_true ((unresolved _).symm.trans k.2)

/-- The geometry and the position that SET_GEOMETRY stores (R22, R190). -/
def geometryStored (g : Geometry) (s : State) : State :=
  { s with geom := g, dsq := { s.dsq with position := keepPosition g s.dsq.position } }

theorem portNewGeometry_of_closed (h : s.mcp.state = .notReady ∨ s.mcp.state = .detached) :
    portNewGeometry s = setTrack ⟨0, 0⟩ s := by
  unfold portNewGeometry
  rcases h with h | h <;> rw [h]

theorem portNewGeometry_of_open (ready : s.mcp.state ≠ .notReady) (attached : s.mcp.state ≠ .detached) :
    portNewGeometry s = startPort s := by
  unfold portNewGeometry
  split
  · exact absurd ‹_› ready
  · exact absurd ‹_› attached
  · rfl

theorem portNewGeometry_changes : ChangesOnly [.mcp] s (portNewGeometry s) := by
  unfold portNewGeometry
  split
  · exact updMcp_changes _
  · exact updMcp_changes _
  · exact (updMcp_changes _).trans beginHold_changes

/-- A hold begun leaves the current track, in SEEKING or in READY (R152). -/
theorem beginHold_port (s : State) : (beginHold s).mcp.track = s.mcp.track ∧
    ((beginHold s).mcp.state = .seeking ∨ (beginHold s).mcp.state = .ready) := by
  unfold beginHold
  split
  · rcases testHold_cases (s.updMcp fun m =>
      { m with state := .seeking, hold := some (uptimeExpiry s m.holdLimit), activity := .none }) with k | ⟨-, k⟩
    · rw [k]; exact ⟨rfl, .inl rfl⟩
    · rw [k]; exact ⟨rfl, .inr rfl⟩
  · exact ⟨rfl, .inr rfl⟩

theorem startPort_port (s : State) : (startPort s).mcp.track = ⟨0, 0⟩ ∧
    ((startPort s).mcp.state = .seeking ∨ (startPort s).mcp.state = .ready) :=
  beginHold_port _

theorem portNewGeometry_track : (portNewGeometry s).mcp.track = ⟨0, 0⟩ := by
  unfold portNewGeometry
  split
  · rfl
  · rfl
  · exact (startPort_port s).1

end Sys2Proof.Machine

open Sys2Proof Sys2Proof.Machine

/-- Settles O30: the two refusals, and the store with the port's restart after it. -/
theorem setGeometryStoresOrRefuses : Obligations.SetGeometryStoresOrRefuses := by
  intro s p taking
  have act : exec .setGeometry s = .next (takeSetGeometry p s) :=
    congrArg Host.Outcome.next (takeRequest_of_taking takeSetGeometry taking)
  refine ⟨fun outside => ⟨_, act, ?_⟩, fun c1 c2 h1 h2 n1 n2 => ?_⟩
  · have unfit : ¬ (geometryOf p).inRange = true := by rw [geometryOf_inRange_iff]; omega
    rw [takeSetGeometry, if_neg unfit]
    exact ⟨refuse_changes _ _, answer_answered _ _ _⟩
  have fit : (geometryOf p).inRange = true := (geometryOf_inRange_iff p).mpr ⟨⟨c1, c2⟩, ⟨h1, h2⟩, n1, n2⟩
  rw [takeSetGeometry, if_pos fit] at act
  refine ⟨fun busy => ⟨_, act, ?_⟩, fun quiet jobs frames => ?_⟩
  · have occupied : ¬ geometryFree s = true := by rw [geometryFree_iff]; tauto
    rw [if_neg occupied]
    exact ⟨refuse_changes _ _, answer_answered _ _ _⟩
  · rw [if_pos ((geometryFree_iff s).mpr ⟨quiet, jobs, frames⟩)] at act
    have port : ChangesOnly [.mcp] (geometryStored (geometryOf p) s) _ := portNewGeometry_changes
    have drive := port.dsq (by decide)
    have stored : ChangesOnly [.geom, .dsq] s (geometryStored (geometryOf p) s) :=
      ((updGeom_changes (s := s) fun _ => geometryOf p).mono (by decide)).andThen
        (updDsq_changes fun d => { d with position := keepPosition (geometryOf p) d.position }) (by decide)
    obtain ⟨length, cylinders, heads, sectors⟩ := geometryBytes_fields p
    refine ⟨_, portNewGeometry (geometryStored (geometryOf p) s), geometryBytes (geometryOf p), act,
      (stored.mono (by decide)).andThen port (by decide), answer_answered _ _ _, answer_changes _ _ _, length, cylinders,
      heads, sectors, port.geom (by decide), portNewGeometry_track, fun closed => ?_,
      fun ready attached => ?_, ?_, fun x known => ?_⟩
    · rw [portNewGeometry_of_closed (s := geometryStored _ s) closed]
      exact ⟨rfl, rfl⟩
    · rw [portNewGeometry_of_open (s := geometryStored _ s) ready attached,
        startPort_holds (s := geometryStored (geometryOf p) s) c1 h1 frames]
      exact ⟨rfl, rfl⟩
    · rw [drive]
      rfl
    · rw [drive]
      simp only [geometryStored, known, keepPosition, geometryOf, Option.filter, Bool.and_eq_true]
      exact if_congr (and_congr decide_eq_true_iff decide_eq_true_iff) rfl rfl

/-- Settles O33: the settings stored, the echo of what is stored, and the arbitration that follows. -/
theorem setDriveAndSetPortStore : Obligations.SetDriveAndSetPortStore := by
  refine ⟨fun s p taking => ?_, fun s p taking => ?_⟩
  · obtain ⟨length, timeout, settle, retries, limit, quiet, flag⟩ := driveBytes_fields (driveSettingsOf_inRange p)
    have prefetch : (driveSettingsOf p).prefetch = false ↔ byteAt p 7 = 0 := by
      rw [driveSettingsOf_eq]; simp
    refine ⟨_, s.updDsq fun d => { d with set := driveSettingsOf p }, driveBytes (driveSettingsOf p),
      congrArg Host.Outcome.next (takeRequest_of_taking takeSetDrive taking), updDsq_changes _,
      answer_answered _ _ _, answer_changes _ _ _, ?_, length, timeout, settle, retries, limit, quiet,
      flag.trans prefetch⟩
    rw [← driveSettingsOf_eq]
    rfl
  · have limit : holdLimitOf p ≤ 2000 := holdLimitOf_eq p ▸ Nat.min_le_left _ _
    obtain ⟨length, hold, exportFlag, pulseFlag⟩ := portBytes_fields limit (flagAt p 2) (flagAt p 3)
    have off (i : Nat) : flagAt p i = false ↔ byteAt p i = 0 := by rw [flagAt_eq]; simp
    refine ⟨_, storePort (holdLimitOf p) (flagAt p 2) (flagAt p 3) s, portBytes (holdLimitOf p) (flagAt p 2) (flagAt p 3),
      congrArg Host.Outcome.next (takeRequest_of_taking takeSetPort taking), ?_, answer_answered _ _ _,
      answer_changes _ _ _, ?_, ?_, fun same => ?_, fun changed => ?_, length, hold, exportFlag.trans (off 2),
      pulseFlag.trans (off 3)⟩
    · exact (((updEvq_changes _).mono (by decide)).andThen (updMcp_changes _) (by decide)).andThen (updTks_changes _)
        (by decide)
    · rw [← holdLimitOf_eq, ← flagAt_eq]
      rfl
    · rw [← flagAt_eq]
      rfl
    · exact if_pos same.symm
    · refine (if_neg (Ne.symm changed)).trans ?_
      cases pulse : flagAt p 3 <;> simp [storePort]

end


section
/-! PROOF. A fence raised: the queue's last event, the snapshot it latches, and where it leaves the drive and the port
(R37, R38, R146, R201, R202). -/

namespace Sys2Proof.Machine

variable {s t u : State} {bs : List Block}

/-! ### The work abandoned latches no snapshot (R201) -/

/-- The latch holds what it held, or is free as it was. -/
def SameLatch (s t : State) : Prop :=
  t.evq.snapshot = s.evq.snapshot

theorem SameLatch.refl (s : State) : SameLatch s s :=
  rfl

theorem SameLatch.trans (h : SameLatch s t) (k : SameLatch t u) : SameLatch s u :=
  Eq.trans k h

theorem SameLatch.ite {p : Prop} [Decidable p] (h : SameLatch s t) (k : SameLatch s u) :
    SameLatch s (if p then t else u) := by
  split <;> assumption

/-- Changes beyond the queue. -/
theorem ChangesOnly.latch (h : ChangesOnly bs s t) (beyond : .evq ∉ bs) : SameLatch s t :=
  congrArg Evq.snapshot (h.evq beyond)

theorem offer_latch (k : EventKind) (tr : Option Track) (n : Nat) : SameLatch s (offer k tr n s) :=
  (offer_cases k tr n s).2.1

theorem createEntry_latch (tr : Track) (o : Origin) (st : EntryState) (n : Nat) (b : Bool) (os : List OutcomeRec) :
    SameLatch s (createEntry tr o st n b os s) := by
  unfold createEntry
  split
  · exact .refl s
  · exact offer_latch _ _ _

theorem closeEntry_latch (tr : Track) (falls : OutcomeRec → Bool) (reason : Nat → FailReason) (held : Nat → Nat)
    (p q : Bool) : SameLatch s (closeEntry tr falls reason held p q s) := by
  have closing (e : Entry) (v : State) : SameLatch v (closingEvent e v) := by
    unfold closingEvent
    split <;> exact offer_latch _ _ _
  unfold closeEntry
  split
  · exact .ite (.ite (.refl s) (closing _ _)) (.refl s)
  · exact .refl s

theorem endJob_latch (k : JobEnd) (p q : Bool) (j : Job) : SameLatch s (endJob k p q j s) := by
  have frame : SameLatch s (endFrame j s) := (endFrame_changes j).latch (by decide)
  have copies (v : State) : SameLatch v (endCopies j v) := (endCopies_changes j).latch (by decide)
  have removed (v : State) : SameLatch v (removeJob j.track (reportPasses j.counter v)) := .refl v
  exact ((frame.trans (copies _)).trans (closeEntry_latch _ _ _ _ _ _)).trans (removed _)

theorem advanceJob_latch (tr : Track) : SameLatch s (advanceJob tr s) := by
  have updated (v : State) (f : Job → Job) : SameLatch v (updJob tr f v) := .refl v
  have walked (j : Job) : SameLatch s (endWalk j s) := .ite (.refl s) (endJob_latch _ _ _ _)
  rcases advanceJob_cases tr s with ⟨e, -⟩ | ⟨j, -, e | ⟨j', -, -, -, e | ⟨-, e⟩⟩⟩ <;> rw [e]
  · exact .refl s
  · exact (SameLatch.ite (offer_latch _ _ _) (.refl s)).trans (endJob_latch _ _ _ _)
  · have walked' (v : State) : SameLatch v (endWalk j' v) := .ite (.refl v) (endJob_latch _ _ _ _)
    exact (updated s _).trans (walked' _)
  · exact updated s _

theorem finishJobPass_latch (tr : Track) : SameLatch s (finishJobPass tr s) := by
  have refilled (j : Job) : SameLatch s (recordRefill j s) := by
    unfold recordRefill
    split
    · exact .ite (.refl s) (.refl s)
    · exact .ite (.refl s) (createEntry_latch _ _ _ _ _ _)
  unfold finishJobPass
  split
  · exact (SameLatch.ite (refilled _) (.refl s)).trans (advanceJob_latch _)
  · exact .refl s

theorem createFetchedJob_latch (k : GrantKind) (tr : Track) (os : List Nat) :
    SameLatch s (createFetchedJob k tr os s) := by
  unfold createFetchedJob
  dsimp only
  split
  · exact .refl s
  · have entered (v : State) : SameLatch v (createEntry tr (fetchOrigin k) .opened 1 (fetchTallies s).starved
        (pendingOutcomes os) v) := createEntry_latch _ _ _ _ _ _
    exact entered _

theorem failFetch_latch (k : GrantKind) (tr : Track) (os : List Nat) : SameLatch s (failFetch k tr os s) := by
  unfold failFetch
  dsimp only
  refine .trans (t := offer _ _ _ _) (.trans ?_ (offer_latch _ _ _)) ((updCps_changes _).latch (by decide))
  split
  · exact .refl s
  · have failed : SameLatch s (updFrame tr (failSectors os) s) := .refl s
    exact failed.trans (createEntry_latch _ _ _ _ _ _)

theorem endFetch_latch (k : GrantKind) (tr : Track) : SameLatch s (endFetch k tr s) := by
  have dropped (v : State) : SameLatch v (dropFetchTallies v) := .refl v
  have served (os : List Nat) : SameLatch s (serveFill k tr os s) := by
    obtain ⟨u, recorded, e⟩ := serveFill_eq k tr os s
    have filled : SameLatch s (updJob tr (fillServed k os s) s) := .refl s
    rw [e]
    exact (filled.trans (recorded.latch (by decide))).trans (finishJobPass_latch tr)
  have freed : SameLatch s (s.updCps (freeTrack tr)) := .refl s
  unfold endFetch
  dsimp only
  refine .trans (.ite (served _) (.ite freed (.ite (createFetchedJob_latch _ _ _) ?_))) (dropped _)
  split
  · exact (endJob_latch _ _ _ _).trans (createFetchedJob_latch _ _ _)
  · exact failFetch_latch _ _ _

/-- Work abandoned latches nothing: the fence's own event comes after it (R38, R201). -/
theorem abandonWork_latch (s : State) : SameLatch s (abandonWork s) := by
  have cleared (v : State) : SameLatch v (clearOperation v) := .refl v
  have fetch (v : State) (k : GrantKind) (tr : Track) : SameLatch v (endFetch k tr v) := endFetch_latch k tr
  have freed : SameLatch s (setGrant none s) := .refl s
  have unpassed (g : Grant) : SameLatch s (endUnpassed g s) :=
    .ite (.refl s) (.ite (freed.trans (fetch _ _ _)) (.refl s))
  have aborted (g : Grant) : SameLatch s (abortPass g s) := by
    have ended : SameLatch s (setGrant none (endPassContext s)) := .refl s
    exact .ite (.refl s) (ended.trans (fetch _ _ _))
  unfold abandonWork
  refine .trans ?_ (cleared _)
  split
  · split
    · exact unpassed _
    · exact aborted _
    · exact .refl s
  · exact .refl s

/-! ### The last event (R195, R197) -/

theorem offerLatching_lastOffered (k : EventKind) (n : Nat) (x : Snapshot) (s : State) :
    LastOffered k none n (offerLatching k n x s) := by
  have only : (offerLatching k n x s).evq.records = (offer k none n s).evq.records ∧
      (offerLatching k n x s).evq.overrun = (offer k none n s).evq.overrun ∧
      (offerLatching k n x s).evq.counter = (offer k none n s).evq.counter := by
    unfold offerLatching
    rw [State.updEvq_evq]
    unfold latchSnapshot
    split <;> exact ⟨rfl, rfl, rfl⟩
  obtain ⟨records, overrun, counter⟩ := only
  obtain ⟨next, -, ⟨-, joined, -⟩ | ⟨-, discarded⟩⟩ := offer_cases k none n s
  · intro _
    rw [records, joined, counter, next]
    exact ⟨_, List.getLast?_concat, rfl, rfl, rfl, rfl⟩
  · intro kept
    rw [overrun, discarded] at kept
    cases kept

theorem offerLatching_counter (k : EventKind) (n : Nat) (x : Snapshot) (s : State) :
    (offerLatching k n x s).evq.counter = s.evq.counter + 1 := by
  show (latchSnapshot _ (offer k none n s).evq).counter = _
  rw [← (offer_cases k none n s).1]
  unfold latchSnapshot
  split <;> rfl

/-! ### The grant that abandoned work leaves (R31, R32) -/

/-- Work abandoned leaves no grant but one whose batch runs. -/
def voting (g : Grant) : Bool :=
  decide (g.phase = .voting)

theorem filter_voting {o : Option Grant} {g : Grant} (h : o.filter voting = some g) : o = some g ∧ g.phase = .voting := by
  obtain ⟨held, runs⟩ := Option.filter_eq_some_iff.mp h
  exact ⟨held, of_decide_eq_true runs⟩

/-! ### A fence raised (R37, R38) -/

/-- The snapshot of a fence raised in `s`, with the state at its cause's arrival (R38, R202). -/
def fenceSnapshot (cause : FenceCause) (before s : State) : Snapshot :=
  { snapshotOf (.fence cause) (lastKnown before.dsq) before with faults := s.dsq.faults }

/-- A fence raised in `s`, its cause having come in `before`, and the end of its event in `t`. -/
structure FenceRaised (cause : FenceCause) (before s t : State) : Prop where
  changes : ChangesOnly sequencerBlocks s t
  dsq : t.dsq = { s.dsq with
    grant := s.dsq.grant.filter voting, seekTarget := none, expiry := none
    fence := some cause, position := none, state := .fenced }
  port : s.mcp.state ≠ .detached → t.mcp.state = .notReady
  offered : LastOffered .driveFenced none (causeByte cause) t
  latched : s.evq.snapshot = none →
    ∃ n, t.evq.snapshot = some { fenceSnapshot cause before s with seqNo := n } ∧ n + 1 = t.evq.counter

theorem raiseFence_dsq (cause : FenceCause) (before : State) (free : s.dsq.fence = none) :
    (raiseFence cause before s).dsq = { s.dsq with
      grant := s.dsq.grant.filter voting, seekTarget := none, expiry := none
      fence := some cause, position := none, state := .fenced } := by
  rw [raiseFence_of_free free]
  show (fencedBy cause s).dsq = _
  rw [fencedBy_dsq, abandonWork_grant]
  rfl

/-- A port that is not detached is NOT_READY while the sequencer is FENCED (R146). -/
theorem followReady_of_fenced (fenced : s.dsq.state = .fenced) (attached : s.mcp.state ≠ .detached) :
    (followReady s).mcp.state = .notReady := by
  have unready : readyToServe s = false := by simp [readyToServe, fenced]
  unfold followReady
  split
  · exact absurd ‹_› attached
  · simpa [unready] using ‹_›
  · simp [unready, leaveFor]

theorem afterEvent_of_fenced (fenced : s.dsq.state = .fenced) (attached : s.mcp.state ≠ .detached) :
    (afterEvent s).mcp.state = .notReady := by
  have unready := followReady_of_fenced fenced attached
  rw [afterEvent_of_no_grant (.inl (by rw [fenced]; decide)), testHold_eq_self (by rw [unready]; decide)]
  exact unready

theorem raiseFence_raises (cause : FenceCause) (before : State) (free : s.dsq.fence = none) :
    FenceRaised cause before s (afterEvent (raiseFence cause before s)) := by
  have dsq := raiseFence_dsq cause before free
  have fenced : (raiseFence cause before s).dsq.state = .fenced := by rw [dsq]
  have only : ChangesOnly (.rdc :: grantBlocks) s (raiseFence cause before s) := raiseFence_changes _ _
  have port := afterEvent_changes_port (.inl (show (raiseFence cause before s).dsq.state ≠ .idle by rw [fenced]; decide))
  have queue := port.evq (by decide)
  have raised := raiseFence_of_free (cause := cause) (before := before) free
  refine ⟨(only.mono (by decide)).andThen port (by decide), (port.dsq (by decide)).trans dsq, fun attached => ?_, ?_,
    fun empty => ?_⟩
  · exact afterEvent_of_fenced fenced (by rwa [only.mcp (by decide)])
  · unfold LastOffered
    rw [queue, raised]
    exact offerLatching_lastOffered _ _ _ _
  · have still : (fencedBy cause s).evq.snapshot = none := Eq.trans (abandonWork_latch s) empty
    rw [queue, raised, offerLatching_counter]
    exact ⟨_, offerLatching_snapshot _ _ _ still, rfl⟩

end Sys2Proof.Machine

end


section
/-! PROOF. CLEAR_FENCE: its refusal, a fence cleared, and the recalibrate of a sequencer cleared from FENCED (R20, R34,
R36, R39, R147). -/

namespace Sys2Proof.Machine

variable {s : State}

/-! ### The port once the drive is served again (R146, R147) -/

theorem readyToServe_of_up (up : spindleDown s.ixm = false) (free : s.dsq.state ≠ .fenced) : readyToServe s = true := by
  simp [readyToServe, up, free]

/-- The end of an event opens a NOT_READY port at 0/0 once the drive serves (R147). -/
theorem afterEvent_opens (ready : readyToServe s = true) (closed : s.mcp.state = .notReady) (busy : s.dsq.state ≠ .idle) :
    (afterEvent s).mcp.state ≠ .notReady ∧ (afterEvent s).mcp.track = ⟨0, 0⟩ := by
  have opened : followReady s = startPort s := by
    unfold followReady
    rw [closed]
    exact if_pos ready
  obtain ⟨track, state⟩ := startPort_port s
  have shut {v : State} (k : v.mcp.state = .seeking ∨ v.mcp.state = .ready) : v.mcp.state ≠ .notReady := by
    rcases k with k | k <;> rw [k] <;> decide
  rw [afterEvent_of_no_grant (.inl busy), opened]
  rcases testHold_cases (startPort s) with k | ⟨-, k⟩ <;> rw [k]
  · exact ⟨shut state, track⟩
  · exact ⟨shut (.inr rfl), track⟩

/-- The end of an event takes no port to DETACHED (R148). -/
theorem afterEvent_attached (attached : s.mcp.state ≠ .detached) (busy : s.dsq.state ≠ .idle) :
    (afterEvent s).mcp.state ≠ .detached := by
  have followed : (followReady s).mcp.state ≠ .detached := by
    unfold followReady
    split
    · exact attached
    · split
      · rcases (startPort_port s).2 with k | k <;> rw [k] <;> decide
      · exact attached
    · split
      · exact attached
      · exact PortState.noConfusion
  rw [afterEvent_of_no_grant (.inl busy)]
  rcases testHold_cases (followReady s) with k | ⟨-, k⟩ <;> rw [k]
  · exact followed
  · exact PortState.noConfusion

/-! ### A fence cleared (R39) -/

theorem clearedFence_changes (c : FenceCause) : ChangesOnly [.dsq, .evq] s (clearedFence c s) :=
  .andThen ((updDsq_changes _).mono (by decide)) (offer_changes _ _ _) (by decide)

theorem clearedFence_dsq (c : FenceCause) (s : State) :
    (clearedFence c s).dsq = { s.dsq with fence := none, faults := 0, quiet := none } := rfl

theorem clearFence_of_free (c : FenceCause) (h : s.dsq.state ≠ .fenced) : clearFence c s = clearedFence c s :=
  if_neg h

theorem clearFence_of_fenced (c : FenceCause) (h : s.dsq.state = .fenced) :
    clearFence c s = watchSelect (afterEvent (beginRecalibrate (clearedFence c s))) :=
  if_pos h

theorem takeClearFence_of_refused (h : s.pins.driveFault = true ∨ ContentionOn s) :
    takeClearFence s = refuse .state 0x50 s :=
  if_pos (by rw [Bool.or_eq_true, contentionNow_iff]; exact h)

theorem takeClearFence_of_no_fence (fault : s.pins.driveFault = false) (contention : ¬ ContentionOn s)
    (free : s.dsq.fence = none) : takeClearFence s = answer .ok 0x50 (u8 0) s := by
  refine (if_neg ?_).trans (by rw [free])
  rw [Bool.or_eq_true, contentionNow_iff, fault]
  exact not_or.mpr ⟨Bool.false_ne_true, contention⟩

theorem takeClearFence_of_fence {c : FenceCause} (fault : s.pins.driveFault = false) (contention : ¬ ContentionOn s)
    (fence : s.dsq.fence = some c) : takeClearFence s = answer .ok 0x50 (u8 (causeByte c)) (clearFence c s) := by
  refine (if_neg ?_).trans (by rw [fence])
  rw [Bool.or_eq_true, contentionNow_iff, fault]
  exact not_or.mpr ⟨Bool.false_ne_true, contention⟩

/-- The drive of a fence cleared recalibrates, or is OFFLINE, up to the end of the event (R34). -/
def recalibratedAfterClear (c : FenceCause) (s : State) : State :=
  afterEvent (beginRecalibrate (clearedFence c s))

theorem beginRecalibrate_busy (s : State) : (beginRecalibrate s).dsq.state ≠ .idle := by
  rw [beginRecalibrate_state]
  split <;> decide

theorem recalibratedAfterClear_changes (c : FenceCause) (s : State) :
    ChangesOnly [.dsq, .evq, .mcp] s (recalibratedAfterClear c s) :=
  (((clearedFence_changes c).mono (by decide)).andThen beginRecalibrate_changes (by decide)).andThen
    (afterEvent_changes_port (.inl (beginRecalibrate_busy _))) (by decide)

theorem recalibratedAfterClear_dsq (c : FenceCause) (s : State) : (recalibratedAfterClear c s).dsq =
    { s.dsq with
      fence := none, faults := 0, quiet := none, position := none, seekTarget := none
      state := if spindleDown s.ixm then .offline else .recalibrating
      expiry := if spindleDown s.ixm then none else some ⟨s.clock.uptime, 10 * s.dsq.set.seekTimeout⟩ } :=
  ((afterEvent_changes_port (.inl (beginRecalibrate_busy _))).dsq (by decide)).trans (beginRecalibrate_dsq _)

theorem recalibratedAfterClear_firstQueued (c : FenceCause) (s : State) {t : State}
    (h : Moves (recalibratedAfterClear c s) t) : FirstQueued .fenceCleared none (causeByte c) s t :=
  firstQueued_of_offer (u := s.updDsq fun d => { d with fence := none, faults := 0, quiet := none }) rfl
    ((beginRecalibrate_moves.trans afterEvent_moves).trans h)

theorem recalibratedAfterClear_latch (c : FenceCause) (s : State) :
    (recalibratedAfterClear c s).evq.snapshot = s.evq.snapshot := by
  have queue : ChangesOnly [.dsq, .mcp] (clearedFence c s) (recalibratedAfterClear c s) :=
    (beginRecalibrate_changes.mono (by decide)).andThen
      (afterEvent_changes_port (.inl (beginRecalibrate_busy _))) (by decide)
  rw [queue.evq (by decide)]
  exact offer_latch _ _ _

/-- Contention is seen on a sequencer that recalibrates, or is OFFLINE, exactly where the line is held inactive (R20). -/
theorem recalibratedAfterClear_contention (c : FenceCause) (s : State) :
    contentionNow (recalibratedAfterClear c s) = true ↔ s.pins.selectHeld = some false := by
  have pins := (recalibratedAfterClear_changes c s).pins (by decide)
  have state : (recalibratedAfterClear c s).dsq.state = .offline ∨
      (recalibratedAfterClear c s).dsq.state = .recalibrating := by
    rw [recalibratedAfterClear_dsq]
    dsimp only
    split <;> simp
  rw [contentionNow_iff, pins]
  constructor
  · rintro ⟨h, held, -, level⟩
    rw [held]
    rcases state with k | k <;> simpa [k] using level
  · intro held
    refine ⟨false, held, ?_, ?_⟩ <;> rcases state with k | k <;> simp [k]

/-- Without contention the drive of a FENCED sequencer recalibrates (R34, R39). -/
theorem clearFence_of_calm (c : FenceCause) (fenced : s.dsq.state = .fenced) (calm : s.pins.selectHeld ≠ some false) :
    clearFence c s = recalibratedAfterClear c s := by
  rw [clearFence_of_fenced c fenced]
  exact if_neg (mt (recalibratedAfterClear_contention c s).mp calm)

/-- A line held inactive raises a fence in its turn (R20, R37). -/
theorem clearFence_of_contended (c : FenceCause) (fenced : s.dsq.state = .fenced)
    (held : s.pins.selectHeld = some false) :
    FenceRaised .contention (recalibratedAfterClear c s) (recalibratedAfterClear c s) (clearFence c s) ∧
      Moves (recalibratedAfterClear c s) (clearFence c s) := by
  have again : clearFence c s =
      afterEvent (raiseFence .contention (recalibratedAfterClear c s) (recalibratedAfterClear c s)) := by
    rw [clearFence_of_fenced c fenced]
    exact if_pos ((recalibratedAfterClear_contention c s).mpr held)
  rw [again]
  exact ⟨raiseFence_raises _ _ (by rw [recalibratedAfterClear_dsq]), (raiseFence_moves _ _).trans afterEvent_moves⟩

theorem recalibratedAfterClear_opens (c : FenceCause) (up : spindleDown s.ixm = false)
    (closed : s.mcp.state = .notReady) :
    (recalibratedAfterClear c s).mcp.state ≠ .notReady ∧ (recalibratedAfterClear c s).mcp.track = ⟨0, 0⟩ := by
  have only : ChangesOnly [.dsq, .evq] s (beginRecalibrate (clearedFence c s)) :=
    (clearedFence_changes c).andThen beginRecalibrate_changes (by decide)
  have ixm := only.ixm (by decide)
  have begun : (beginRecalibrate (clearedFence c s)).dsq.state ≠ .fenced := by
    rw [beginRecalibrate_state]
    split <;> decide
  exact afterEvent_opens (readyToServe_of_up (ixm ▸ up) begun) (by rw [only.mcp (by decide)]; exact closed)
    (beginRecalibrate_busy _)

end Sys2Proof.Machine

open Sys2Proof Sys2Proof.Machine

/-- Settles O37: the refusal, no fence, a fence cleared, and a sequencer fenced again by a line held inactive. -/
theorem clearFenceClearsAndRecalibrates : Obligations.ClearFenceClearsAndRecalibrates := by
  intro s p taking
  have act : exec .clearFence s = .next (takeClearFence s) :=
    congrArg Host.Outcome.next (takeRequest_of_taking (fun _ s => takeClearFence s) taking)
  refine ⟨fun refused => ⟨_, act, ?_⟩, fun fault contention => ?_⟩
  · rw [takeClearFence_of_refused refused]
    exact ⟨refuse_changes _ _, answer_answered _ _ _⟩
  refine ⟨fun free => ?_, fun c fence uncontended => ?_, fun c fence fenced held => ?_⟩
  · rw [takeClearFence_of_no_fence fault contention free] at act
    exact ⟨_, act, answer_changes _ _ _, answer_answered _ _ _⟩
  · rw [takeClearFence_of_fence fault contention fence] at act
    refine ⟨_, act, ?_⟩
    by_cases fenced : s.dsq.state = .fenced
    · rw [clearFence_of_calm c fenced (uncontended.resolve_left (absurd fenced))]
      have only := recalibratedAfterClear_changes c s
      have dsq := recalibratedAfterClear_dsq c s
      have opens := recalibratedAfterClear_opens (s := s) c
      have queued := recalibratedAfterClear_firstQueued c s (answer_moves .ok 0x50 (u8 (causeByte c)))
      generalize recalibratedAfterClear c s = w at *
      refine ⟨(answer_within only).mono (by decide), answer_answers only (by decide), queued, ?_⟩
      show w.dsq.fence = none ∧ w.dsq.faults = 0 ∧ w.dsq.quiet = none ∧ w.dsq.grant = s.dsq.grant ∧ _
      rw [dsq]
      refine ⟨rfl, rfl, rfl, rfl, absurd fenced, fun _ down => ?_, fun _ up => ?_⟩
      · show w.dsq.state = _ ∧ w.dsq.position = _
        rw [dsq]
        exact ⟨if_pos down, rfl⟩
      · show w.dsq.state = _ ∧ w.dsq.position = _ ∧ w.dsq.expiry = _ ∧ _
        rw [dsq]
        exact ⟨if_neg (by simp [up]), rfl, if_neg (by simp [up]), opens up⟩
    · rw [clearFence_of_free c fenced]
      have only := clearedFence_changes (s := s) c
      refine ⟨(answer_within only).mono (by decide), answer_answers only (by decide), ?_, rfl, rfl, rfl, rfl,
        fun _ => ⟨rfl, rfl⟩, fun k => absurd k fenced, fun k => absurd k fenced⟩
      exact firstQueued_of_offer (u := s.updDsq fun d => { d with fence := none, faults := 0, quiet := none }) rfl
        (answer_moves _ _ _)
  · rw [takeClearFence_of_fence fault contention fence] at act
    obtain ⟨raised, moves⟩ := clearFence_of_contended c fenced held
    have queued := recalibratedAfterClear_firstQueued c s (moves.trans (answer_moves .ok 0x50 (u8 (causeByte c))))
    have only := recalibratedAfterClear_changes c s
    have dsq := raised.dsq
    rw [recalibratedAfterClear_dsq c s] at dsq
    have within : ChangesOnly driveBlocks s (clearFence c s) :=
      (only.mono (by decide)).andThen raised.changes (by decide)
    refine ⟨_, act, answer_within within, answer_answers within (by decide), queued, ?_⟩
    show (clearFence c s).dsq.state = _ ∧ (clearFence c s).dsq.fence = _ ∧ (clearFence c s).dsq.faults = _ ∧
      (clearFence c s).dsq.quiet = _ ∧ (clearFence c s).dsq.position = _ ∧ (clearFence c s).dsq.expiry = _ ∧ _
    rw [dsq]
    refine ⟨rfl, rfl, rfl, rfl, rfl, rfl, raised.offered, fun attached => ?_, fun free => ?_⟩
    · exact raised.port (afterEvent_attached (by rw [beginRecalibrate_changes.mcp (by decide)]; exact attached)
        (beginRecalibrate_busy _))
    · obtain ⟨n, latched, -⟩ := raised.latched ((recalibratedAfterClear_latch c s).trans free)
      exact ⟨_, latched, rfl⟩

end


section
/-! PROOF. REST_DRIVE and BYPASS: the drive withdrawn, and returned (R20, R32 to R34, R40 to R43, R148). -/

namespace Sys2Proof.Machine

variable {s : State} {p : List Byte}

/-! ### Payloads (R40, R177) -/

theorem restOf_eq (p : List Byte) : restOf p = min 60000 (pairAt p 0) := by
  rw [restOf, clampNat_eq 0 60000 _ (by omega), Nat.zero_max]

theorem u16_fields {n : Nat} (h : n ≤ 65535) : (u16 n).length = 2 ∧ pairAt (u16 n) 0 = n := by
  simp only [u16, pairAt, byteAt, List.getD_cons_zero, List.getD_cons_succ, BitVec.toNat_ofNat, List.length_cons,
    List.length_nil, true_and]
  omega

theorem flagAt_of_nonzero (h : byteAt p 0 ≠ 0) : flagAt p 0 = true := by
  rw [flagAt_eq]
  exact decide_eq_true h

theorem flagAt_of_zero (h : byteAt p 0 = 0) : flagAt p 0 = false := by
  rw [flagAt_eq]
  exact decide_eq_false (fun k => k h)

/-! ### REST_DRIVE (R40, R41) -/

theorem begunRest_dsq (ms : Nat) (s : State) : (begunRest ms s).dsq = { s.dsq with
    state := .resting, position := none, grant := s.dsq.grant.filter voting, seekTarget := none
    expiry := some ⟨s.clock.uptime, ms⟩ } := by
  show { (abandonWork s).dsq with state := .resting, position := none, expiry := some (uptimeExpiry s ms) } = _
  rw [abandonWork_dsq, abandonWork_grant]
  rfl

theorem begunRest_changes (ms : Nat) (s : State) : ChangesOnly (.rdc :: grantBlocks) s (begunRest ms s) :=
  abandonWork_changes.andThen (updDsq_changes _) (by decide)

theorem restDrive_of_some {ms : Nat} (h : ms ≠ 0) : restDrive ms s = afterEvent (begunRest ms s) :=
  congrArg afterEvent (if_neg h)

theorem restDrive_of_none : restDrive 0 s = afterEvent (beginRecalibrate (begunRest 0 s)) :=
  congrArg afterEvent (if_pos rfl)

theorem restDrive_dsq {ms : Nat} (h : ms ≠ 0) : (restDrive ms s).dsq = (begunRest ms s).dsq := by
  rw [restDrive_of_some h]
  exact (afterEvent_changes_port (.inl (by rw [begunRest_dsq]; exact DsqState.noConfusion))).dsq (by decide)

/-- A rest of 0 ms ends in the same event, in a recalibrate or in OFFLINE (R41; log entry 19). -/
theorem restDrive_zero_dsq : (restDrive 0 s).dsq = { s.dsq with
    state := if spindleDown s.ixm then .offline else .recalibrating, position := none
    grant := s.dsq.grant.filter voting, seekTarget := none
    expiry := if spindleDown s.ixm then none else some ⟨s.clock.uptime, 10 * s.dsq.set.seekTimeout⟩ } := by
  have only := begunRest_changes 0 s
  rw [restDrive_of_none, (afterEvent_changes_port (.inl (beginRecalibrate_busy _))).dsq (by decide), beginRecalibrate_dsq,
    begunRest_dsq, only.ixm (by decide), only.clock (by decide)]

theorem restDrive_changes (ms : Nat) (s : State) : ChangesOnly sequencerBlocks s (restDrive ms s) := by
  have begun : ChangesOnly sequencerBlocks s (begunRest ms s) := (begunRest_changes ms s).mono (by decide)
  exact (ChangesOnly.ite (begun.andThen beginRecalibrate_changes (by decide)) begun).andThen afterEvent_changes
    (by decide)

theorem takeRestDrive_of_refused (h : s.dsq.state = .fenced ∨ s.dsq.state = .detached) :
    takeRestDrive p s = refuse .state 0x51 s :=
  if_pos h

theorem takeRestDrive_of_taken (fenced : s.dsq.state ≠ .fenced) (detached : s.dsq.state ≠ .detached) :
    takeRestDrive p s = answer .ok 0x51 (u16 (restOf p)) (restDrive (restOf p) s) :=
  if_neg (not_or.mpr ⟨fenced, detached⟩)

/-! ### BYPASS (R42, R43, R148) -/

theorem bypassOn_dsq (s : State) : (bypassOn s).dsq = { s.dsq with
    state := .detached, position := none, grant := s.dsq.grant.filter voting, seekTarget := none, expiry := none
    bypass := true } := by
  show { (abandonWork s).dsq with state := .detached, position := none, bypass := true } = _
  rw [abandonWork_dsq, abandonWork_grant]
  rfl

theorem bypassOn_changes (s : State) : ChangesOnly sequencerBlocks s (bypassOn s) :=
  ((abandonWork_changes.mono (by decide)).andThen (updDsq_changes _) (by decide)).andThen (updMcp_changes _) (by decide)

theorem bypassOn_mcp (s : State) : (bypassOn s).mcp = leaveFor .detached s.mcp := by
  have same : (abandonWork s).mcp = s.mcp := abandonWork_changes.mcp (by decide)
  show leaveFor .detached (abandonWork s).mcp = _
  rw [same]

theorem reattachDrive_of_fence (h : s.dsq.fence.isSome) : reattachDrive s = setDsqState .fenced (relayOpened s) :=
  if_pos h

theorem reattachDrive_of_cause (fence : s.dsq.fence = none)
    (cause : s.pins.driveFault = true ∨ s.pins.selectHeld = some false) :
    reattachDrive s = raiseFence (if s.pins.driveFault then .driveFault else .contention) s (relayOpened s) := by
  refine (if_neg (by simp [fence])).trans ?_
  by_cases fault : s.pins.driveFault = true
  · rw [if_pos fault, if_pos fault]
    rfl
  · rw [if_neg fault, if_neg fault, if_pos (cause.resolve_left fault)]
    rfl

theorem reattachDrive_of_quiet (fence : s.dsq.fence = none) (fault : s.pins.driveFault = false)
    (select : s.pins.selectHeld ≠ some false) : reattachDrive s = beginRecalibrate (relayOpened s) := by
  refine (if_neg (by simp [fence])).trans ((if_neg (by simp [fault])).trans ?_)
  rw [if_neg select]
  rfl

/-- Behind a sequencer that grants nothing the port comes back alone (R148). -/
theorem reattached_of_busy (busy : s.dsq.state ≠ .idle) :
    (arbitrate (reattachPort s)).dsq = s.dsq ∧ (arbitrate (reattachPort s)).mcp = (reattachPort s).mcp := by
  have port : ChangesOnly [.mcp] s (reattachPort s) :=
    .ite ((updMcp_changes _).trans beginHold_changes) (updMcp_changes _)
  have same := port.dsq (by decide)
  rw [arbitrate_eq_self (.inl (by rw [same]; exact busy))]
  exact ⟨same, rfl⟩

theorem reattachPort_of_unready (h : readyToServe s = false) : (reattachPort s).mcp.state = .notReady := by
  unfold reattachPort
  rw [h]
  rfl

theorem reattachPort_of_ready (h : readyToServe s = true) : (reattachPort s).mcp.track = ⟨0, 0⟩ := by
  unfold reattachPort
  rw [if_pos h]
  exact (startPort_port s).1

theorem reattachDrive_changes (s : State) : ChangesOnly (.rdc :: grantBlocks) s (reattachDrive s) := by
  have relay : ChangesOnly (.rdc :: grantBlocks) s (relayOpened s) := (updDsq_changes _).mono (by decide)
  have fence (cause : FenceCause) := relay.andThen (raiseFence_changes cause s) (by decide)
  exact .ite (relay.andThen (setDsqState_changes _) (by decide))
    (.ite (fence _) (.ite (fence _) (relay.andThen beginRecalibrate_changes (by decide))))

/-- BYPASS off, from the sequencer on (R43, R148). -/
def bypassOff (s : State) : State :=
  arbitrate (reattachPort (reattachDrive s))

theorem bypassOff_changes (s : State) : ChangesOnly sequencerBlocks s (bypassOff s) := by
  have port : ChangesOnly [.mcp] (reattachDrive s) (reattachPort (reattachDrive s)) :=
    .ite ((updMcp_changes _).trans beginHold_changes) (updMcp_changes _)
  exact (((reattachDrive_changes s).mono (by decide)).andThen port (by decide)).andThen arbitrate_changes (by decide)

/-- A sequencer that comes back FENCED leaves the port NOT_READY (R43, R148). -/
theorem reattached_of_fenced (fenced : s.dsq.state = .fenced) :
    (arbitrate (reattachPort s)).dsq = s.dsq ∧ (arbitrate (reattachPort s)).mcp.state = .notReady := by
  obtain ⟨dsq, port⟩ := reattached_of_busy (s := s) (by rw [fenced]; decide)
  rw [port]
  exact ⟨dsq, reattachPort_of_unready (by simp [readyToServe, fenced])⟩

theorem bypassOff_of_fence (fence : s.dsq.fence.isSome) :
    (bypassOff s).dsq = { s.dsq with bypass := false, position := none, state := .fenced } ∧
      (bypassOff s).mcp.state = .notReady := by
  have drive := reattachDrive_of_fence fence
  obtain ⟨dsq, port⟩ := reattached_of_fenced (s := reattachDrive s) (by rw [drive]; rfl)
  exact ⟨dsq.trans (by rw [drive]; rfl), port⟩

theorem bypassOff_of_cause (fence : s.dsq.fence = none)
    (cause : s.pins.driveFault = true ∨ s.pins.selectHeld = some false) :
    (bypassOff s).dsq = { s.dsq with
        bypass := false, position := none, state := .fenced, grant := s.dsq.grant.filter voting, seekTarget := none
        expiry := none, fence := some (if s.pins.driveFault then .driveFault else .contention) } ∧
      (bypassOff s).mcp.state = .notReady := by
  have drive := raiseFence_dsq (s := relayOpened s) (if s.pins.driveFault then .driveFault else .contention) s fence
  rw [← reattachDrive_of_cause fence cause] at drive
  obtain ⟨dsq, port⟩ := reattached_of_fenced (s := reattachDrive s) (by rw [drive])
  exact ⟨dsq.trans drive, port⟩

theorem bypassOff_of_quiet (fence : s.dsq.fence = none) (fault : s.pins.driveFault = false)
    (select : s.pins.selectHeld ≠ some false) :
    (bypassOff s).dsq = { s.dsq with
        bypass := false, state := if spindleDown s.ixm then .offline else .recalibrating, position := none
        seekTarget := none
        expiry := if spindleDown s.ixm then none else some ⟨s.clock.uptime, 10 * s.dsq.set.seekTimeout⟩ } ∧
      (spindleDown s.ixm = true → (bypassOff s).mcp.state = .notReady) ∧
      (spindleDown s.ixm = false → (bypassOff s).mcp.track = ⟨0, 0⟩) := by
  have drive := reattachDrive_of_quiet fence fault select
  have busy := beginRecalibrate_busy (relayOpened s)
  have ixm : (reattachDrive s).ixm = s.ixm := (reattachDrive_changes s).ixm (by decide)
  have free : (reattachDrive s).dsq.state ≠ .fenced := by
    rw [drive, beginRecalibrate_state]
    split <;> decide
  rw [← drive] at busy
  obtain ⟨dsq, port⟩ := reattached_of_busy busy
  unfold bypassOff
  rw [dsq, port]
  refine ⟨by rw [drive, beginRecalibrate_dsq]; rfl, fun down => ?_, fun up => ?_⟩
  · exact reattachPort_of_unready (by simp [readyToServe, ixm, down])
  · exact reattachPort_of_ready (readyToServe_of_up (ixm ▸ up) free)

end Sys2Proof.Machine

open Sys2Proof Sys2Proof.Machine

/-- Settles O38: a rest of 0 ms and a longer one, BYPASS on, and BYPASS off by the fence and the lines. -/
theorem restAndBypassWithdrawTheDrive : Obligations.RestAndBypassWithdrawTheDrive := by
  refine ⟨fun s p taking => ?_, fun s p taking on => ?_, fun s p taking off => ?_⟩
  · have act : exec .restDrive s = .next (takeRestDrive p s) :=
      congrArg Host.Outcome.next (takeRequest_of_taking takeRestDrive taking)
    have within := restDrive_changes (restOf p) s
    refine ⟨fun refused => ⟨_, act, ?_⟩, fun fenced detached some => ?_, fun fenced detached none => ?_⟩
    · rw [takeRestDrive_of_refused refused]
      exact ⟨refuse_changes _ _, answer_answered _ _ _⟩
    · rw [takeRestDrive_of_taken fenced detached] at act
      have ms := restOf_eq p
      obtain ⟨length, echo⟩ := u16_fields (n := restOf p) (by omega)
      refine ⟨_, _, act, (answer_within within).mono (by decide), answer_answers within (by decide), length,
        echo.trans ms, ?_⟩
      show (restDrive (restOf p) s).dsq.state = _ ∧ (restDrive (restOf p) s).dsq.position = _ ∧
        (restDrive (restOf p) s).dsq.expiry = _ ∧ (restDrive (restOf p) s).dsq.faults = _ ∧
        ∀ g, (restDrive (restOf p) s).dsq.grant = _ → _
      rw [restDrive_dsq (by omega), begunRest_dsq, ms]
      exact ⟨rfl, rfl, rfl, rfl, fun g => filter_voting⟩
    · rw [takeRestDrive_of_taken fenced detached] at act
      have ms : restOf p = 0 := by rw [restOf_eq, none, Nat.min_zero]
      rw [ms] at act within
      refine ⟨_, act, (answer_within within).mono (by decide), answer_answers within (by decide), ?_⟩
      show (restDrive 0 s).dsq.position = _ ∧ (restDrive 0 s).dsq.faults = _ ∧
        (_ → (restDrive 0 s).dsq.state = _ ∧ (restDrive 0 s).dsq.expiry = _) ∧
        (_ → (restDrive 0 s).dsq.state = _ ∧ (restDrive 0 s).dsq.expiry = _) ∧ ∀ g, (restDrive 0 s).dsq.grant = _ → _
      rw [restDrive_zero_dsq]
      exact ⟨rfl, rfl, fun down => ⟨if_pos down, if_pos down⟩,
        fun up => ⟨if_neg (by simp [up]), if_neg (by simp [up])⟩, fun g => filter_voting⟩
  · have act : exec .bypassOn s = .next (takeBypassOn s) := by
      refine congrArg Host.Outcome.next
        ((takeRequest_of_taking (fun p s => if flagAt p 0 then takeBypassOn s else s) taking).trans ?_)
      exact if_pos (flagAt_of_nonzero on)
    have within := bypassOn_changes s
    unfold takeBypassOn at act
    cases bypass : s.dsq.bypass with
    | true =>
      rw [bypass, if_pos rfl] at act
      exact ⟨_, act, (answer_changes _ _ _).mono (by decide), answer_answered _ _ _, fun _ => answer_changes _ _ _,
        nofun⟩
    | false =>
      rw [bypass, if_neg Bool.false_ne_true] at act
      refine ⟨_, act, (answer_within within).mono (by decide), answer_answers within (by decide), nofun, fun _ => ?_⟩
      show (bypassOn s).dsq.state = _ ∧ (bypassOn s).dsq.bypass = _ ∧ (bypassOn s).dsq.position = _ ∧
        (bypassOn s).dsq.fence = _ ∧ (bypassOn s).dsq.faults = _ ∧ (bypassOn s).mcp.state = _ ∧
        (bypassOn s).mcp.hold = _ ∧ (bypassOn s).mcp.activity = _ ∧ (bypassOn s).mcp.track = _ ∧
        ∀ g, (bypassOn s).dsq.grant = _ → _
      rw [bypassOn_dsq, bypassOn_mcp]
      exact ⟨rfl, rfl, rfl, rfl, rfl, rfl, rfl, rfl, rfl, fun g => filter_voting⟩
  · have act : exec .bypassOff s = .next (takeBypassOff s) := by
      refine congrArg Host.Outcome.next
        ((takeRequest_of_taking (fun p s => if flagAt p 0 then s else takeBypassOff s) taking).trans ?_)
      exact if_neg (by rw [flagAt_of_zero off]; decide)
    unfold takeBypassOff at act
    cases bypass : s.dsq.bypass with
    | false =>
      rw [bypass, if_neg Bool.false_ne_true] at act
      exact ⟨_, act, answer_answered _ _ _, fun _ => answer_changes _ _ _, nofun, nofun, nofun⟩
    | true =>
      rw [bypass, if_pos rfl] at act
      refine ⟨_, act, answer_answers (bypassOff_changes s) (by decide), nofun, fun _ fence => ?_, fun _ fence cause => ?_,
        fun _ fence fault select => ?_⟩
      · obtain ⟨dsq, port⟩ := bypassOff_of_fence fence
        show (bypassOff s).dsq.bypass = _ ∧ (bypassOff s).dsq.state = _ ∧ (bypassOff s).dsq.fence = _ ∧ _
        rw [dsq]
        exact ⟨rfl, rfl, rfl, port⟩
      · obtain ⟨dsq, port⟩ := bypassOff_of_cause fence cause
        show (bypassOff s).dsq.bypass = _ ∧ (bypassOff s).dsq.state = _ ∧ _ ∧ (bypassOff s).dsq.fence = _
        rw [dsq]
        exact ⟨rfl, rfl, port, rfl⟩
      · obtain ⟨dsq, closed, opened⟩ := bypassOff_of_quiet fence fault select
        show (bypassOff s).dsq.bypass = _ ∧ (bypassOff s).dsq.position = _ ∧ (_ → (bypassOff s).dsq.state = _ ∧ _) ∧
          (_ → (bypassOff s).dsq.state = _ ∧ _ ∧ (bypassOff s).dsq.expiry = _)
        rw [dsq]
        exact ⟨rfl, rfl, fun down => ⟨if_pos down, closed down⟩,
          fun up => ⟨if_neg (by simp [up]), opened up, if_neg (by simp [up])⟩⟩

end


section
/-! PROOF. The seek fault below the fence limit and at it, and every other cause of a fence (R20, R22, R34 to R38, R52,
R146, R201, R202). -/

namespace Sys2Proof.Machine

variable {s : State} {c : Instr} {g : Grant}

/-! ### The seek fault (R35, R52) -/

/-- The three events that are seek faults do what a seek fault does, and the event ends. -/
theorem exec_of_seekFaultBy (h : SeekFaultBy c s) : exec c s = .next (afterEvent (seekFault s)) := by
  cases c with
  | seekError =>
    refine congrArg Host.Outcome.next ?_
    rcases h with k | k | k <;> rw [k]
  | seekTimeoutExpiry =>
    exact congrArg Host.Outcome.next (if_pos ((operationDue_iff _ _).mpr h))
  | header mark cyl head sector check outside =>
    obtain ⟨p, r, pass, later, rfl, good, other⟩ := h
    refine congrArg Host.Outcome.next ?_
    rw [pass]
    have opened : ¬ beforeOpening mark p.reference = true := by
      rw [beforeOpening_iff]
      exact Nat.not_le_of_lt later
    exact (if_neg opened).trans ((if_neg (not_not_intro good)).trans (if_pos other))
  | _ => exact h.elim

/-- What a fault leaves of a grant: a retry more, or the grant treated as counted once none is left (R35). -/
theorem afterFault_fields (q : Nat) (unstable : Bool) (g : Grant) :
    (afterFault q unstable g).kind = g.kind ∧ (afterFault q unstable g).track = g.track ∧
      (afterFault q unstable g).openSet = g.openSet ∧
      (g.retries < q → unstable = false →
        (afterFault q unstable g).after = .retake ∧ (afterFault q unstable g).retries = g.retries + 1) ∧
      (q ≤ g.retries → (afterFault q unstable g).after = .counted ∧ (afterFault q unstable g).retries = g.retries) := by
  unfold afterFault
  split
  · exact ⟨rfl, rfl, rfl, fun left => absurd ‹_› (Nat.not_le_of_lt left), fun _ => ⟨rfl, rfl⟩⟩
  · split
    · exact ⟨rfl, rfl, rfl, fun _ steady => (nomatch ‹unstable = true›.symm.trans steady), fun none => absurd none ‹_›⟩
    · exact ⟨rfl, rfl, rfl, fun _ _ => ⟨rfl, rfl⟩, fun none => absurd none ‹_›⟩

/-- A fault that does not fence recalibrates, and the event ends there (R35). -/
theorem faultRetried_after (up : spindleDown s.ixm = false) :
    ChangesOnly [.dsq, .rdc, .mcp] s (afterEvent (faultRetried s)) ∧
      (afterEvent (faultRetried s)).dsq = (faultRetried s).dsq := by
  have port := afterEvent_changes_port (s := faultRetried s) (.inl (by
    rw [faultRetried_dsq up]
    exact DsqState.noConfusion))
  exact ⟨((faultRetried_changes s).mono (by decide)).andThen port (by decide), port.dsq (by decide)⟩

/-! ### The causes of a fence (R37) -/

/-- A cause of a fence with the command by which it comes. -/
def FencedBy (c : Instr) (cause : FenceCause) (s : State) : Prop :=
  SeekFaultBy c s ∧ s.dsq.set.fenceLimit ≤ s.dsq.faults + 1 ∧ cause = .seek ∨
    (c = .recalibrateTimeoutExpiry ∧ Fallen c s ∧ cause = .recal) ∨
    (c = .driveFaultAsserted true ∧ s.dsq.state ≠ .detached ∧ cause = .driveFault) ∨
    (∃ h, c = .contentionSeen h ∧ ContentionOn { s with pins := { s.pins with selectHeld := h } } ∧ cause = .contention)

/-- Every cause raises its fence, a seek fault counted and a line at its level before. -/
theorem exec_of_fencedBy {cause : FenceCause} (h : FencedBy c cause s) : ∃ before v,
    exec c s = .next (afterEvent (raiseFence cause before v)) ∧ ChangesOnly [.pins] s before ∧
      ChangesOnly [.pins, .dsq] s v ∧ v.dsq = { s.dsq with
        faults := if cause = .seek then s.dsq.faults + 1 else s.dsq.faults, quiet := v.dsq.quiet } := by
  rcases h with ⟨fault, limit, rfl⟩ | ⟨rfl, fallen, rfl⟩ | ⟨rfl, attached, rfl⟩ | ⟨h, rfl, seen, rfl⟩
  · exact ⟨s, faultCounted s, by rw [exec_of_seekFaultBy fault, seekFault_of_limit limit], .refl _ _,
      (updDsq_changes _).mono (by decide), rfl⟩
  · exact ⟨s, s, congrArg Host.Outcome.next (if_pos ((operationDue_iff _ _).mpr fallen)), .refl _ _, .refl _ _, rfl⟩
  · have line : (true && s.dsq.state != .detached) = true := by simpa using attached
    exact ⟨s, _, congrArg Host.Outcome.next (if_pos line), .refl _ _, (updPins_changes _).mono (by decide), rfl⟩
  · exact ⟨_, _, congrArg Host.Outcome.next (if_pos (contentionNow_iff.mpr seen)), updPins_changes _,
      (updPins_changes _).mono (by decide), rfl⟩

theorem filter_voting_of_grant (g : Grant) :
    (some g).filter voting = if g.phase = .voting then some g else none := by
  simp [Option.filter, voting]

end Sys2Proof.Machine

open Sys2Proof Sys2Proof.Machine

/-- Settles O44: the fault's part of the sequencer and the pass, with what it leaves of the grant. -/
theorem seekFaultRecalibrates : Obligations.SeekFaultRecalibrates := by
  intro s c fault below up
  have act : exec c s = .next (afterEvent (faultRetried s)) := by
    rw [exec_of_seekFaultBy fault, seekFault_of_below below]
  obtain ⟨only, dsq⟩ := faultRetried_after up
  have rdc : (afterEvent (faultRetried s)).rdc = (faultRetried s).rdc := afterEvent_changes.rdc (by decide)
  refine ⟨_, act, only, ?_, rdc.trans (faultRetried_rdc s), ?_⟩
  all_goals rw [dsq, faultRetried_dsq up]
  refine ⟨fun free => faultGrant_of_free free, fun g grant phase => ?_⟩
  obtain ⟨kind, track, openSet, retake, counted⟩ := afterFault_fields s.dsq.set.retries
    (decide (spindleOf s.ixm = .unstable)) g
  refine ⟨_, faultGrant_of_work grant phase, afterFault_approach _ _ g, kind, track, openSet, fun left running => ?_,
    counted⟩
  exact retake left (decide_eq_false (by rw [running]; decide))

/-- Settles O45: each cause raises its fence on a state that the cause has counted or levelled. -/
theorem fenceCausesRaiseTheFence : Obligations.FenceCausesRaiseTheFence := by
  intro s c cause free by_
  obtain ⟨before, v, act, arrived, caused, counted⟩ := exec_of_fencedBy by_
  have dsq : before.dsq = s.dsq := arrived.dsq (by decide)
  have raised := raiseFence_raises cause before (s := v) (by rw [counted]; exact free)
  have fenced := raised.dsq
  generalize afterEvent (raiseFence cause before v) = t at *
  rw [counted] at fenced
  refine ⟨t, act, (caused.mono (by decide)).andThen raised.changes (by decide), ?_⟩
  rw [fenced]
  refine ⟨rfl, rfl, rfl, rfl, rfl, rfl, fun g grant => ?_, fun attached => ?_, raised.offered, fun empty => ?_⟩
  · show s.dsq.grant.filter voting = _
    rw [grant, filter_voting_of_grant]
  · exact raised.port (by rw [caused.mcp (by decide)]; exact attached)
  · obtain ⟨n, latched, next⟩ := raised.latched (by rw [caused.evq (by decide)]; exact empty)
    refine ⟨_, latched, rfl, next, congrArg Clock.uptime (arrived.clock (by decide)), congrArg Dsq.state dsq,
      fun q known => ?_, fun unknown => ?_, fun g grant kind => ?_, fun g grant kind => ?_, fun none => ?_,
      congrArg Ixm.average (arrived.ixm (by decide)), congrArg Ixm.violations (arrived.ixm (by decide)),
      ?_, congrArg Rdc.lastDeviation (arrived.rdc (by decide))⟩
    · exact (congrArg lastKnown dsq).trans (lastKnown_of_known known)
    · exact (congrArg lastKnown dsq).trans (lastKnown_of_unknown unknown)
    · exact (congrArg grantedJob dsq).trans (grantedJob_of_jobPass grant kind)
    · exact (congrArg grantedJob dsq).trans (grantedJob_of_fetch grant kind)
    · exact (congrArg grantedJob dsq).trans (grantedJob_of_free none)
    · show v.dsq.faults = _
      rw [counted]

end


section
/-! PROOF. The drive cable's lines, and the ends of settle waits, rests and the quiet period (R20, R21, R24, R27, R28,
R33, R34, R36, R37, R41). -/

namespace Sys2Proof.Machine

variable {s t u : State} {g : Grant} {c : Instr}

/-! ### A grant that ends without a pass (R24, R33) -/

/-- GrantAbandoned reads nothing of the sequencer before the event. -/
theorem GrantAbandoned.before_drive (pre : ChangesOnly [.dsq] s u) (h : GrantAbandoned g u t) :
    GrantAbandoned g s t := by
  unfold GrantAbandoned at h
  rw [pre.rdc (by decide), pre.tks (by decide), pre.jbq (by decide)] at h
  obtain ⟨ended, pass, wait, job, release, cut⟩ := h
  refine ⟨ended, pass, wait, job, release, fun kind phase => ?_⟩
  obtain ⟨x, changes, rest⟩ := cut kind phase
  exact ⟨x, (pre.mono (by decide)).trans changes, rest⟩

/-- The grant ends without a pass, and the sequencer enters the state it rests in. -/
theorem endUnpassed_rests (pre : ChangesOnly [.dsq] s u) (phase : g.phase = .approach) :
    ChangesOnly driveBlocks s (enterIdle (endUnpassed g u)) ∧ GrantAbandoned g s (enterIdle (endUnpassed g u)) ∧
      (enterIdle (endUnpassed g u)).dsq = { u.dsq with state := restState s.ixm, grant := none } := by
  have ended := endUnpassed_changes (s := u) g
  have idle : ChangesOnly [.dsq] (endUnpassed g u) (enterIdle (endUnpassed g u)) := setDsqState_changes _
  refine ⟨((pre.mono (by decide)).andThen ended (by decide)).andThen idle (by decide), ?_, ?_⟩
  · exact ((endUnpassed_abandons phase).before_drive pre).after (idle.mono (by decide)) rfl
  · rw [enterIdle_dsq, endUnpassed_dsq, ended.ixm (by decide), pre.ixm (by decide)]

theorem restState_of_unstable {x : Ixm} (unstable : spindleOf x = .unstable) : restState x = .idle := by
  simp [restState, spindleDown, unstable]

/-- Under UNSTABLE the event then ends in IDLE, nothing being granted (R24). -/
theorem endUnpassed_unstable (pre : ChangesOnly [.dsq] s u) (phase : g.phase = .approach)
    (unstable : spindleOf s.ixm = .unstable) :
    ChangesOnly driveBlocks s (afterEvent (enterIdle (endUnpassed g u))) ∧
      GrantAbandoned g s (afterEvent (enterIdle (endUnpassed g u))) ∧
      (afterEvent (enterIdle (endUnpassed g u))).dsq = { u.dsq with state := .idle, grant := none } := by
  obtain ⟨only, abandoned, dsq⟩ := endUnpassed_rests pre phase
  have ixm : (enterIdle (endUnpassed g u)).ixm = s.ixm := only.ixm (by decide)
  have port := afterEvent_changes_port (s := enterIdle (endUnpassed g u)) (.inr (.inl (by rw [ixm, unstable]; decide)))
  have same := port.dsq (by decide)
  refine ⟨only.andThen port (by decide), abandoned.after (port.mono (by decide)) (by rw [same]), same.trans ?_⟩
  rw [dsq, restState_of_unstable unstable]

/-! ### The lines (R20, R21) -/

theorem driveOutputs_of_fenced {d : Dsq} (h : d.state = .fenced) :
    driveOutputs d = ⟨.inactive, .inactive, .inactive, .inactive, .inactive⟩ := by
  simp [driveOutputs, h, selectDriven, Level.ofDriven]

theorem driveOutputs_of_detached {d : Dsq} (h : d.state = .detached) :
    driveOutputs d = ⟨.released, .released, .released, .released, .released⟩ := by
  simp [driveOutputs, h, selectDriven, Level.ofDriven]

theorem driveOutputs_of_recalibrating {d : Dsq} (h : d.state = .recalibrating) :
    driveOutputs d = ⟨.active, .inactive, .driven (0, offsetLines 0), .active, .inactive⟩ := by
  simp [driveOutputs, h, selectDriven, Level.ofDriven]

/-- In every other state the real position is held, and a cylinder sought presented. -/
theorem driveOutputs_of_selected {d : Dsq} (fenced : d.state ≠ .fenced) (detached : d.state ≠ .detached)
    (recalibrating : d.state ≠ .recalibrating) :
    driveOutputs d = ⟨.active, cylinderLines d.seekTarget, headLines d.position, .inactive, .inactive⟩ := by
  unfold driveOutputs selectDriven
  cases h : d.state with
  | fenced => exact absurd h fenced
  | detached => exact absurd h detached
  | recalibrating => exact absurd h recalibrating
  | _ => rfl

theorem driveOutputs_writeGate (d : Dsq) : (driveOutputs d).writeGate ≠ .active := by
  by_cases fenced : d.state = .fenced
  · rw [driveOutputs_of_fenced fenced]; decide
  by_cases detached : d.state = .detached
  · rw [driveOutputs_of_detached detached]; decide
  by_cases recalibrating : d.state = .recalibrating
  · rw [driveOutputs_of_recalibrating recalibrating]; decide
  · rw [driveOutputs_of_selected fenced detached recalibrating]; exact Level.noConfusion

/-- What R20 says of the lines while the drive is selected. -/
theorem driveOutputs_attached {d : Dsq} (fenced : d.state ≠ .fenced) (detached : d.state ≠ .detached) :
    (driveOutputs d).unitSelect = .active ∧
      (driveOutputs d).restore = (if d.state = .recalibrating then .active else .inactive) ∧
      (∀ c, d.state = .seeking → d.seekTarget = some c → (driveOutputs d).cylinder = .driven c) ∧
      (d.state = .recalibrating → (driveOutputs d).headAndOffset = .driven (0, ⟨false, false, 0⟩)) ∧
      ∀ q, d.state ≠ .recalibrating → d.position = some q → (driveOutputs d).headAndOffset =
        .driven (q.head, ⟨decide (0 < q.offset), decide (q.offset < 0), q.offset.natAbs⟩) := by
  by_cases recalibrating : d.state = .recalibrating
  · rw [driveOutputs_of_recalibrating recalibrating, if_pos recalibrating]
    exact ⟨rfl, rfl, fun _ seeking => (nomatch recalibrating.symm.trans seeking), fun _ => rfl,
      fun _ k => absurd recalibrating k⟩
  · rw [driveOutputs_of_selected fenced detached recalibrating, if_neg recalibrating]
    refine ⟨rfl, rfl, fun _ _ sought => ?_, fun k => absurd k recalibrating, fun _ _ known => ?_⟩
    · show cylinderLines d.seekTarget = _
      rw [sought]; rfl
    · show headLines d.position = _
      rw [known]; rfl

/-! ### Lines that record no cause (R37) -/

theorem exec_driveFault_quiet {b : Bool} (h : b = false ∨ s.dsq.state = .detached) :
    exec (.driveFaultAsserted b) s = .next (s.updPins fun p => { p with driveFault := b }) := by
  refine congrArg Host.Outcome.next (if_neg ?_)
  rcases h with rfl | h
  · exact Bool.false_ne_true
  · simp [h]

theorem exec_contention_quiet {h : Option Bool}
    (calm : ¬ ContentionOn { s with pins := { s.pins with selectHeld := h } }) :
    exec (.contentionSeen h) s = .next (s.updPins fun p => { p with selectHeld := h }) :=
  congrArg Host.Outcome.next (if_neg (mt contentionNow_iff.mp calm))

/-- With a fence recorded, in FENCED, a further cause reaches the pins and the port at most. -/
theorem raiseFence_again {cause : FenceCause} {before : State} (fenced : s.dsq.state = .fenced)
    (fence : s.dsq.fence.isSome) : ChangesOnly [.mcp] s (afterEvent (raiseFence cause before s)) := by
  rw [raiseFence_of_fenced fence]
  exact afterEvent_changes_port (.inl (by rw [fenced]; decide))

theorem exec_again (fenced : s.dsq.state = .fenced) (fence : s.dsq.fence.isSome)
    (h : c = .driveFaultAsserted true ∨ ∃ h, c = .contentionSeen h) :
    ∃ t, exec c s = .next t ∧ ChangesOnly [.pins, .mcp] s t := by
  have levelled (f : Pins → Pins) : ChangesOnly [.pins, .mcp] s (s.updPins f) := (updPins_changes f).mono (by decide)
  have again (f : Pins → Pins) (cause : FenceCause) (before : State) :
      ChangesOnly [.pins, .mcp] s (afterEvent (raiseFence cause before (s.updPins f))) :=
    (levelled f).andThen (raiseFence_again (s := s.updPins f) fenced fence) (by decide)
  rcases h with rfl | ⟨h, rfl⟩
  · exact ⟨_, rfl, .ite (again _ _ _) (levelled _)⟩
  · exact ⟨_, rfl, .ite (again _ _ _) (levelled _)⟩

/-! ### The waits (R24, R28, R33, R36, R41) -/

theorem exec_of_operationDue {e : Expiry} {st : DsqState} {f : State → State} (state : s.dsq.state = st)
    (expiry : s.dsq.expiry = some e) (fallen : e.FallenAt s.clock.uptime)
    (run : exec c s = .next (if operationDue st s then f s else s)) : exec c s = .next (f s) := by
  rw [run, if_pos ((operationDue_iff st s).mpr ⟨state, e, expiry, fallen⟩)]

theorem clearOperation_changes : ChangesOnly [.dsq] s (clearOperation s) :=
  updDsq_changes _

/-- The wait of a grant ends in READING (R28). -/
theorem endSettle_reads (grant : s.dsq.grant = some g) (steady : spindleOf s.ixm ≠ .unstable) :
    ChangesOnly [.dsq, .mcp] s (afterEvent (endSettle s)) ∧
      (afterEvent (endSettle s)).dsq = { s.dsq with state := .reading, seekTarget := none, expiry := none } := by
  rw [endSettle_of_steady grant steady]
  have port := afterEvent_changes_port (s := setDsqState .reading (clearOperation s)) (.inl DsqState.noConfusion)
  exact ⟨((clearOperation_changes.trans (setDsqState_changes _)).mono (by decide)).andThen port (by decide),
    port.dsq (by decide)⟩

theorem exec_wait_not_fallen
    (h : c ∈ [.settleWaitEnd, .restEnd, .quietExpiry, .seekTimeoutExpiry, .recalibrateTimeoutExpiry])
    (early : ¬ Fallen c s) : exec c s = .next s := by
  have operation (st : DsqState) (f : State)
      (k : ¬ (s.dsq.state = st ∧ ∃ e, s.dsq.expiry = some e ∧ e.FallenAt s.clock.uptime)) :
      (Host.Outcome.next (if operationDue st s then f else s) : Host.Outcome State Fault Refusal) = .next s :=
    congrArg Host.Outcome.next (if_neg (mt (operationDue_iff st s).mp k))
  simp only [List.mem_cons, List.not_mem_nil, or_false] at h
  rcases h with rfl | rfl | rfl | rfl | rfl
  · exact operation .settling _ early
  · exact operation .resting _ early
  · exact congrArg Host.Outcome.next (if_neg (mt (dueAt_iff _ _).mp early))
  · exact operation .seeking _ early
  · exact operation .recalibrating _ early

end Sys2Proof.Machine

open Sys2Proof Sys2Proof.Machine

/-- Settles O46: the lines, the levels that record no cause, and the ends of the three waits. -/
theorem driveLinesAndWaitsEnd : Obligations.DriveLinesAndWaitsEnd := by
  refine ⟨fun d => ⟨driveOutputs_writeGate d, driveOutputs_of_fenced, driveOutputs_of_detached, driveOutputs_attached⟩,
    fun s b h => ⟨_, exec_driveFault_quiet h, updPins_changes _, rfl⟩,
    fun s h calm => ⟨_, exec_contention_quiet calm, updPins_changes _, rfl⟩, fun s c => exec_again,
    fun s e fallen => ⟨fun g settling expiry grant steady => ?_, fun g settling expiry grant phase unstable => ?_,
      fun settling expiry grant => ?_, fun resting expiry => ?_, fun quiet => ?_⟩,
    fun s c => exec_wait_not_fallen⟩
  · exact ⟨_, exec_of_operationDue (f := fun s => afterEvent (endSettle s)) settling expiry fallen rfl,
      endSettle_reads grant steady⟩
  · have act := exec_of_operationDue (f := fun s => afterEvent (endSettle s)) settling expiry fallen
      (c := .settleWaitEnd) rfl
    obtain ⟨only, abandoned, dsq⟩ := endUnpassed_unstable (s := s) clearOperation_changes phase unstable
    rw [endSettle_of_unstable grant unstable] at act
    exact ⟨_, act, only, abandoned, dsq⟩
  · have act := exec_of_operationDue (f := fun s => afterEvent (endSettle s)) settling expiry fallen
      (c := .settleWaitEnd) rfl
    rw [endSettle_of_free grant] at act
    exact ⟨_, act, clearOperation_changes.trans (setDsqState_changes _), rfl⟩
  · have act := exec_of_operationDue (f := fun s => afterEvent (beginRecalibrate s)) resting expiry fallen
      (c := .restEnd) rfl
    have port := afterEvent_changes_port (.inl (beginRecalibrate_busy s))
    refine ⟨_, act, (beginRecalibrate_changes.mono (by decide)).andThen port (by decide), ?_⟩
    rw [port.dsq (by decide), beginRecalibrate_dsq]
    exact ⟨rfl, fun down => ⟨if_pos down, if_pos down⟩, fun up => ⟨if_neg (by simp [up]), if_neg (by simp [up])⟩⟩
  · exact ⟨_, congrArg Host.Outcome.next (if_pos ((dueAt_iff _ _).mpr ⟨e, quiet, fallen⟩)), updDsq_changes _, rfl⟩

end


section
/-! PROOF. Where a seek and a recalibrate end, and how the grant goes on from there (R22, R24, R25, R27, R28, R33 to R35,
R71). -/

namespace Sys2Proof.Machine

variable {s : State} {g : Grant}

/-! ### The end of a seek (R22, R27) -/

theorem exec_seekComplete_ignored {b : Bool}
    (h : b = false ∨ (s.dsq.state ≠ .seeking ∧ s.dsq.state ≠ .recalibrating)) : exec (.seekComplete b) s = .next s := by
  refine congrArg Host.Outcome.next ?_
  rcases h with rfl | ⟨seeking, recalibrating⟩
  · rfl
  · cases b with
    | false => rfl
    | true =>
      rw [if_pos rfl]
      split
      · exact absurd ‹_› seeking
      · exact absurd ‹_› recalibrating
      · rfl

theorem exec_seekComplete_of_seeking (h : s.dsq.state = .seeking) :
    exec (.seekComplete true) s = .next (afterEvent (completeSeek s)) := by
  refine congrArg Host.Outcome.next ?_
  rw [if_pos rfl, h]

theorem exec_seekComplete_of_recalibrating (h : s.dsq.state = .recalibrating) :
    exec (.seekComplete true) s = .next (afterEvent (completeRecalibrate s)) := by
  refine congrArg Host.Outcome.next ?_
  rw [if_pos rfl, h]

theorem seekArrived_changes (s : State) : ChangesOnly [.dsq] s (seekArrived s) :=
  (updDsq_changes _).trans (updDsq_changes _)

/-- The position takes the cylinder sought. -/
theorem seekArrived_at {q : Position} {c : Nat} (position : s.dsq.position = some q)
    (target : s.dsq.seekTarget = some c) : (seekArrived s).dsq = { s.dsq with
      position := some { q with cyl := c }, lastPosition := some { q with cyl := c }, seekTarget := none
      expiry := none } := by
  rw [seekArrived_dsq, reachTarget_eq position target]
  rfl

/-- A settle wait begun, or over at once, to the end of its event (R27, R28; log entry 19). -/
theorem beginSettle_after (grant : s.dsq.grant = some g) (steady : spindleOf s.ixm ≠ .unstable) :
    ChangesOnly [.dsq, .mcp] s (afterEvent (beginSettle g s)) ∧ (afterEvent (beginSettle g s)).dsq = { s.dsq with
      position := some ⟨g.track.cyl, g.track.head, g.offset⟩, lastPosition := some ⟨g.track.cyl, g.track.head, g.offset⟩
      seekTarget := none
      state := if s.dsq.set.settle = 0 then .reading else .settling
      expiry := if s.dsq.set.settle = 0 then none else some ⟨s.clock.uptime, s.dsq.set.settle⟩ } := by
  rw [beginSettle_steady grant steady]
  have port := afterEvent_changes_port (s := s.updDsq fun d => { d with
    position := some ⟨g.track.cyl, g.track.head, g.offset⟩, lastPosition := some ⟨g.track.cyl, g.track.head, g.offset⟩
    seekTarget := none
    state := if d.set.settle = 0 then .reading else .settling
    expiry := if d.set.settle = 0 then none else some ⟨s.clock.uptime, d.set.settle⟩ }) (.inl (by
      rw [State.updDsq_dsq]
      dsimp only
      split <;> decide))
  exact ⟨((updDsq_changes _).mono (by decide)).andThen port (by decide), port.dsq (by decide)⟩

/-- With a grant, head and offset are driven to it at the cylinder sought. -/
theorem completeSeek_settles {q : Position} {c : Nat} (position : s.dsq.position = some q)
    (target : s.dsq.seekTarget = some c) (grant : s.dsq.grant = some g) (track : g.track.cyl = c)
    (steady : spindleOf s.ixm ≠ .unstable) :
    ChangesOnly [.dsq, .mcp] s (afterEvent (completeSeek s)) ∧ (afterEvent (completeSeek s)).dsq = { s.dsq with
      position := some ⟨c, g.track.head, g.offset⟩, lastPosition := some ⟨c, g.track.head, g.offset⟩
      seekTarget := none
      state := if s.dsq.set.settle = 0 then .reading else .settling
      expiry := if s.dsq.set.settle = 0 then none else some ⟨s.clock.uptime, s.dsq.set.settle⟩ } := by
  have dsq := seekArrived_at position target
  obtain ⟨only, settled⟩ := beginSettle_after (s := seekArrived s) (g := g) (by rw [dsq]; exact grant) steady
  rw [completeSeek_of_steady grant steady]
  refine ⟨((seekArrived_changes s).mono (by decide)).trans only, settled.trans ?_⟩
  rw [dsq, track]
  rfl

/-! ### The end of a recalibrate (R22, R34) -/

theorem recalibrateArrived_changes (s : State) : ChangesOnly [.dsq] s (recalibrateArrived s) :=
  (updDsq_changes _).trans (updDsq_changes _)

/-- Without a grant to go on with, the sequencer rests (R34). -/
theorem completeRecalibrate_of_idle
    (h : s.dsq.grant = none ∨ ∃ g, s.dsq.grant = some g ∧ g.phase = .voting) :
    completeRecalibrate s = enterIdle (recalibrateArrived s) := by
  rcases h with free | ⟨g, grant, phase⟩
  · exact completeRecalibrate_of_free free
  · exact completeRecalibrate_of_past grant (by rw [phase]; decide)

/-- A grant taken up from 0/0 with offset 0 (R27, R28). -/
theorem takeUpGrant_from_zero (g : Grant) (s : State) : takeUpGrant g (recalibrateArrived s) =
    if g.track.cyl ≠ 0 then beginSeek g (recalibrateArrived s)
    else if g.track.head ≠ 0 ∨ g.offset ≠ 0 then beginSettle g (recalibrateArrived s)
    else setDsqState .reading (clearOperation (recalibrateArrived s)) := by
  rw [takeUpGrant_of_known (p := ⟨0, 0, 0⟩) rfl]
  exact if_congr ne_comm rfl (if_congr (or_congr ne_comm ne_comm) rfl rfl)

/-- A seek begins for a grant of another cylinder. -/
theorem retake_seeks (cyl : g.track.cyl ≠ 0) :
    ChangesOnly [.dsq, .mcp] s (afterEvent (takeUpGrant g (recalibrateArrived s))) ∧
      (afterEvent (takeUpGrant g (recalibrateArrived s))).dsq = { (recalibrateArrived s).dsq with
        state := .seeking, seekTarget := some g.track.cyl, expiry := some ⟨s.clock.uptime, s.dsq.set.seekTimeout⟩ } := by
  rw [takeUpGrant_from_zero, if_pos cyl]
  have port := afterEvent_changes_port (s := beginSeek g (recalibrateArrived s)) (.inl DsqState.noConfusion)
  exact ⟨(((recalibrateArrived_changes s).trans (updDsq_changes _)).mono (by decide)).andThen port (by decide),
    port.dsq (by decide)⟩

/-- A settle wait begins, or is over at once, for a grant of cylinder 0 with another head or offset. -/
theorem retake_settles (cyl : g.track.cyl = 0) (moves : g.track.head ≠ 0 ∨ g.offset ≠ 0) (grant : s.dsq.grant = some g)
    (steady : spindleOf s.ixm ≠ .unstable) :
    ChangesOnly [.dsq, .mcp] s (afterEvent (takeUpGrant g (recalibrateArrived s))) ∧
      (afterEvent (takeUpGrant g (recalibrateArrived s))).dsq = { (recalibrateArrived s).dsq with
        position := some ⟨0, g.track.head, g.offset⟩, lastPosition := some ⟨0, g.track.head, g.offset⟩
        state := if s.dsq.set.settle = 0 then .reading else .settling
        expiry := if s.dsq.set.settle = 0 then none else some ⟨s.clock.uptime, s.dsq.set.settle⟩ } := by
  rw [takeUpGrant_from_zero, if_neg (not_not_intro cyl), if_pos moves]
  obtain ⟨only, dsq⟩ := beginSettle_after (s := recalibrateArrived s) grant steady
  rw [cyl] at dsq
  exact ⟨((recalibrateArrived_changes s).mono (by decide)).trans only, dsq⟩

/-- A grant of 0/0 with offset 0 reads at once. -/
theorem retake_reads (cyl : g.track.cyl = 0) (head : g.track.head = 0) (offset : g.offset = 0) :
    ChangesOnly [.dsq, .mcp] s (afterEvent (takeUpGrant g (recalibrateArrived s))) ∧
      (afterEvent (takeUpGrant g (recalibrateArrived s))).dsq =
        { (recalibrateArrived s).dsq with state := .reading } := by
  rw [takeUpGrant_from_zero, if_neg (not_not_intro cyl), if_neg (by simp [head, offset])]
  have port := afterEvent_changes_port (s := setDsqState .reading (clearOperation (recalibrateArrived s)))
    (.inl DsqState.noConfusion)
  exact ⟨(((recalibrateArrived_changes s).trans (clearOperation_changes.trans (setDsqState_changes _))).mono
    (by decide)).andThen port (by decide), port.dsq (by decide)⟩

/-- The three ways on from 0/0, to the end of the event: a seek, a settle wait, or READING (R27, R28). -/
theorem retake_goes_on {d : Dsq} (grant : s.dsq.grant = some g) (steady : spindleOf s.ixm ≠ .unstable)
    (hd : d = { (recalibrateArrived s).dsq with
      position := some ⟨0, g.track.head, g.offset⟩, lastPosition := some ⟨0, g.track.head, g.offset⟩ }) :
    ∃ t, t = afterEvent (takeUpGrant g (recalibrateArrived s)) ∧ ChangesOnly [.dsq, .mcp] s t ∧
      (g.track.cyl ≠ 0 → t.dsq = { (recalibrateArrived s).dsq with
        state := .seeking, seekTarget := some g.track.cyl, expiry := some ⟨s.clock.uptime, s.dsq.set.seekTimeout⟩ }) ∧
      (g.track.cyl = 0 → g.track.head ≠ 0 ∨ g.offset ≠ 0 → 1 ≤ s.dsq.set.settle →
        t.dsq = { d with state := .settling, expiry := some ⟨s.clock.uptime, s.dsq.set.settle⟩ }) ∧
      (g.track.cyl = 0 → (g.track.head = 0 ∧ g.offset = 0) ∨ s.dsq.set.settle = 0 →
        t.dsq = { d with state := .reading }) := by
  subst hd
  refine ⟨_, rfl, ?_⟩
  by_cases cyl : g.track.cyl = 0
  · by_cases moves : g.track.head ≠ 0 ∨ g.offset ≠ 0
    · obtain ⟨only, dsq⟩ := retake_settles cyl moves grant steady
      refine ⟨only, absurd cyl, fun _ _ waits => dsq.trans ?_, fun _ none => dsq.trans ?_⟩
      · have some : s.dsq.set.settle ≠ 0 := by omega
        rw [if_neg some, if_neg some]
      · have zero := none.resolve_left fun ⟨head, offset⟩ => moves.elim (absurd head) (absurd offset)
        rw [if_pos zero, if_pos zero]
        rfl
    · have head : g.track.head = 0 := by omega
      have offset : g.offset = 0 := by omega
      obtain ⟨only, dsq⟩ := retake_reads (s := s) cyl head offset
      refine ⟨only, absurd cyl, fun _ k => absurd k moves, fun _ _ => dsq.trans ?_⟩
      rw [head, offset]
      rfl
  · obtain ⟨only, dsq⟩ := retake_seeks (s := s) cyl
    exact ⟨only, fun _ => dsq, fun k => absurd k cyl, fun k => absurd k cyl⟩

end Sys2Proof.Machine

open Sys2Proof Sys2Proof.Machine

/-- Settles O43: the ends of a seek, with a grant, under UNSTABLE and without one, and those of a recalibrate. -/
theorem seekCompleteGoesOn : Obligations.SeekCompleteGoesOn := by
  refine ⟨fun s b => exec_seekComplete_ignored, fun s q p c seeking position target hp => ?_,
    fun s x recalibrating hx => ?_⟩
  · subst hp
    have act := exec_seekComplete_of_seeking seeking
    have pre := seekArrived_changes s
    have dsq := seekArrived_at position target
    refine ⟨fun g grant track steady => ?_, fun g grant phase unstable => ?_, fun grant => ?_⟩
    · obtain ⟨only, settled⟩ := completeSeek_settles position target grant track steady
      refine ⟨_, _, act, only, rfl, fun waits => settled.trans ?_, fun none => settled.trans ?_⟩
      · have some : s.dsq.set.settle ≠ 0 := by omega
        rw [if_neg some, if_neg some]
      · rw [if_pos none, if_pos none]
    · rw [completeSeek_of_unstable grant unstable] at act
      obtain ⟨only, abandoned, ended⟩ := endUnpassed_unstable pre phase unstable
      exact ⟨_, act, only, abandoned, ended.trans (by rw [dsq])⟩
    · rw [completeSeek_of_free grant] at act
      exact ⟨_, act, pre.trans (setDsqState_changes _), (enterIdle_dsq _).trans (by rw [dsq]; rfl)⟩
  · have arrived : x = recalibrateArrived s := hx
    subst arrived
    have act := exec_seekComplete_of_recalibrating recalibrating
    have pre := recalibrateArrived_changes s
    refine ⟨fun g grant phase => ?_, fun idle => ?_⟩
    · rw [completeRecalibrate_of_approach grant phase] at act
      refine ⟨fun after steady => ?_, fun after up => ?_, fun after => ?_⟩
      · rw [resumeGrant_of_retake (s := recalibrateArrived s) after steady] at act
        obtain ⟨t, rfl, only, seeks, settles, reads⟩ := retake_goes_on grant steady rfl
        exact ⟨_, _, act, only, rfl, seeks, settles, reads⟩
      · rw [resumeGrant_of_counted after] at act
        rw [act]
        obtain ⟨w, -, counted⟩ := countPass_counted (g := g) (.refl _ (recalibrateArrived s)) rfl up
        exact ⟨w, counted⟩
      · rw [resumeGrant_of_ended (s := recalibrateArrived s) after] at act
        obtain ⟨only, abandoned, ended⟩ := endUnpassed_rests pre phase
        exact ⟨_, act, only, abandoned, ended⟩
    · rw [completeRecalibrate_of_idle idle] at act
      exact ⟨_, act, pre.trans (setDsqState_changes _), rfl⟩

end


section
/-! PROOF. A batch delivered, part by part: what each member does to its sector in the frame, the store, the job and the
entry of the track, and what the other members leave of it (R78 to R80, R118, R137). -/

namespace Sys2Proof.Machine

variable {s : State} {b : Batch} {m : Member}

/-! ### The vote's outcome (R77, R78) -/

theorem voteOutcome_of_bad {least : Nat} {cs : List SealedCopy}
    (bad : check16 (votedWords cs).data.val ≠ (votedWords cs).check) : voteOutcome least cs = .failedCheck :=
  if_neg (by simpa [SectorWords.checkGood] using bad)

theorem voteOutcome_of_good {least : Nat} {cs : List SealedCopy}
    (good : check16 (votedWords cs).data.val = (votedWords cs).check) : voteOutcome least cs =
      if least ≤ sectorMargin cs then .voted (votedWords cs) (sectorMargin cs) else .weak :=
  if_pos (by simpa [SectorWords.checkGood] using good)

/-! ### The parts of a delivery -/

/-- An outcome's part of the frame of its track (R79, R80, R118). -/
def frameOutcome (m : Member) (f : Frame) : VoteOutcome → Frame
  | .voted w _ => recoverSector m.sector w f
  | _ => f

/-- An outcome's part of the Capture Store (R65, R80). -/
def copiesOutcome (b : Batch) (m : Member) (c : Cps) : VoteOutcome → Cps
  | .voted _ _ => freeSector ⟨b.track, m.sector⟩ c
  | _ => clearFresh ⟨b.track, m.sector⟩ c

/-- The job of an unresolved member, with its last vote outcome (R80). -/
def lastVoteSet (i : Nat) (v : LastVote) (j : Job) : Job :=
  { j with tallies := updTally i (fun t => { t with lastVote := some v }) j.tallies }

/-- An outcome's part of the job on its track (R79, R80). -/
def jobOutcome (m : Member) (j : Job) : VoteOutcome → Job
  | .voted _ _ => j.close m.sector
  | .weak => lastVoteSet m.sector .weak j
  | .failedCheck => lastVoteSet m.sector .failedCheck j

/-- An outcome's part of the entry of its track (R137). -/
def entryOutcome (b : Batch) (m : Member) (e : Entry) : VoteOutcome → Entry
  | .voted _ margin => e.resolve m.sector (.voted m.copies.length margin b.step b.passNo) b.step
  | _ => e

/-- A member's part of the frame. -/
def frameDelivered (b : Batch) (f : Frame) (m : Member) : Frame :=
  frameOutcome m f (voteOutcome b.minMargin m.copies)

/-- A member's part of the Capture Store. -/
def copiesDelivered (b : Batch) (c : Cps) (m : Member) : Cps :=
  copiesOutcome b m c (voteOutcome b.minMargin m.copies)

/-- A member's part of the job. -/
def jobDelivered (b : Batch) (j : Job) (m : Member) : Job :=
  jobOutcome m j (voteOutcome b.minMargin m.copies)

/-- A member's part of the entry. -/
def entryDelivered (b : Batch) (e : Entry) (m : Member) : Entry :=
  entryOutcome b m e (voteOutcome b.minMargin m.copies)

theorem Entry.resolve_track (i : Nat) (r : OutcomeResult) (step : Nat) (e : Entry) :
    (e.resolve i r step).track = e.track := by
  unfold Entry.resolve
  split <;> rfl

/-- An outcome's delivery, by its parts. -/
theorem deliverOutcome_parts (b : Batch) (m : Member) (s : State) (o : VoteOutcome) :
    frameOf b.track (deliverOutcome b m s o) = (frameOf b.track s).map (frameOutcome m · o) ∧
      (deliverOutcome b m s o).cps = copiesOutcome b m s.cps o ∧
      jobOf b.track (deliverOutcome b m s o) = (jobOf b.track s).map (jobOutcome m · o) ∧
      entryOf b.track (deliverOutcome b m s o) = (entryOf b.track s).map (entryOutcome b m · o) := by
  have same {α : Type} (o : Option α) : o = o.map fun x => x := Option.map_id'.symm
  cases o with
  | voted w n =>
    exact ⟨frameOf_updFrame (s := s) b.track (recoverSector m.sector w) fun _ => rfl, rfl,
      jobOf_updJob (s := s) b.track (Job.close m.sector) fun _ => rfl,
      entryOf_updEntry (s := s) b.track _ (Entry.resolve_track _ _ _)⟩
  | weak => exact ⟨same _, rfl, jobOf_updJob (s := s) b.track (lastVoteSet m.sector .weak) fun _ => rfl, same _⟩
  | failedCheck =>
    exact ⟨same _, rfl, jobOf_updJob (s := s) b.track (lastVoteSet m.sector .failedCheck) fun _ => rfl, same _⟩

/-- A member's delivery, by its parts. -/
theorem deliverMember_parts (b : Batch) (m : Member) (s : State) :
    frameOf b.track (deliverMember b s m) = (frameOf b.track s).map (frameDelivered b · m) ∧
      (deliverMember b s m).cps = copiesDelivered b s.cps m ∧
      jobOf b.track (deliverMember b s m) = (jobOf b.track s).map (jobDelivered b · m) ∧
      entryOf b.track (deliverMember b s m) = (entryOf b.track s).map (entryDelivered b · m) :=
  deliverOutcome_parts b m s _

/-- A batch's delivery, by its parts. -/
theorem deliverBatch_parts (b : Batch) (s : State) :
    frameOf b.track (deliverBatch b s) = (frameOf b.track s).map (b.members.foldl (frameDelivered b) ·) ∧
      (deliverBatch b s).cps = b.members.foldl (copiesDelivered b) s.cps ∧
      jobOf b.track (deliverBatch b s) = (jobOf b.track s).map (b.members.foldl (jobDelivered b) ·) ∧
      entryOf b.track (deliverBatch b s) = (entryOf b.track s).map (b.members.foldl (entryDelivered b) ·) := by
  unfold deliverBatch
  generalize b.members = ms
  induction ms generalizing s with
  | nil => exact ⟨Option.map_id'.symm, rfl, Option.map_id'.symm, Option.map_id'.symm⟩
  | cons m ms ih =>
    obtain ⟨frame, copies, job, entry⟩ := deliverMember_parts b m s
    obtain ⟨frames, stores, jobs, entries⟩ := ih (deliverMember b s m)
    rw [frame, Option.map_map] at frames
    rw [copies] at stores
    rw [job, Option.map_map] at jobs
    rw [entry, Option.map_map] at entries
    simp only [List.foldl_cons]
    exact ⟨frames, stores, jobs, entries⟩

/-! ### One member among the others -/

/-- Where every other member leaves a relation standing, the batch does what the member does between two steps that leave
it standing. -/
theorem foldl_member {α : Type} {R : α → α → Prop} {step : α → Member → α} {ms : List Member}
    (refl : ∀ a, R a a) (trans : ∀ {a c d}, R a c → R c d → R a d)
    (others : ∀ a x, x.sector ≠ m.sector → R a (step a x)) (nodup : (ms.map Member.sector).Nodup) (mem : m ∈ ms) (a : α) :
    ∃ c, R a c ∧ R (step c m) (ms.foldl step a) := by
  have standing (xs : List Member) (apart : ∀ x ∈ xs, x.sector ≠ m.sector) (a : α) : R a (xs.foldl step a) := by
    induction xs generalizing a with
    | nil => exact refl a
    | cons x xs ih =>
      rw [List.foldl_cons]
      exact trans (others a x (apart x List.mem_cons_self)) (ih (fun y k => apart y (List.mem_cons_of_mem _ k)) _)
  obtain ⟨pre, post, rfl⟩ := List.append_of_mem mem
  rw [List.map_append, List.map_cons, List.nodup_append, List.nodup_cons] at nodup
  obtain ⟨-, ⟨after, -⟩, before⟩ := nodup
  rw [List.foldl_append, List.foldl_cons]
  refine ⟨_, standing pre (fun x k e => ?_) a, standing post (fun x k e => ?_) _⟩
  · exact before _ (List.mem_map_of_mem k) _ List.mem_cons_self e
  · exact after (e ▸ List.mem_map_of_mem k)

/-! ### The frame (R118, R127) -/

/-- A frame whose sector stands, and whose `exportPending` flag stays up. -/
structure FrameBeside (i : Nat) (f f' : Frame) : Prop where
  sector : f'.sectors[i]? = f.sectors[i]?
  pending : f.exportPending = true → f'.exportPending = true

theorem FrameBeside.refl (i : Nat) (f : Frame) : FrameBeside i f f :=
  ⟨rfl, id⟩

theorem FrameBeside.trans {i : Nat} {f f' f'' : Frame} (h : FrameBeside i f f') (k : FrameBeside i f' f'') :
    FrameBeside i f f'' :=
  ⟨k.sector.trans h.sector, k.pending ∘ h.pending⟩

theorem frameOutcome_beside {i : Nat} (f : Frame) (x : Member) (o : VoteOutcome) (ne : x.sector ≠ i) :
    FrameBeside i f (frameOutcome x f o) := by
  cases o with
  | voted w _ => exact ⟨List.getElem?_modify_ne _ _ ne, fun _ => rfl⟩
  | weak => exact .refl i f
  | failedCheck => exact .refl i f

theorem frameOutcome_voted {f : Frame} {r : SectorRec} (w : SectorWords) (margin : Nat)
    (held : f.sectors[m.sector]? = some r) :
    (frameOutcome m f (.voted w margin)).sectors[m.sector]? = some (.recovered w) ∧
      (frameOutcome m f (.voted w margin)).exportPending = true := by
  refine ⟨?_, rfl⟩
  show (f.sectors.modify m.sector _)[m.sector]? = _
  rw [List.getElem?_modify_eq, held]
  rfl

/-! ### The Capture Store (R65, R80) -/

/-- A store whose list of a sector stands. -/
def CopiesBeside (a : SectorAddr) (c c' : Cps) : Prop :=
  copyListOf a c' = copyListOf a c

theorem copiesOutcome_beside {i : Nat} (b : Batch) (c : Cps) (x : Member) (o : VoteOutcome) (ne : x.sector ≠ i) :
    CopiesBeside ⟨b.track, i⟩ c (copiesOutcome b x c o) := by
  have apart : (⟨b.track, i⟩ : SectorAddr) ≠ ⟨b.track, x.sector⟩ := fun e => ne (congrArg SectorAddr.sector e).symm
  have stale : CopiesBeside ⟨b.track, i⟩ c (clearFresh ⟨b.track, x.sector⟩ c) :=
    find_change_ne CopyList.addr _ (fun l => { l with fresh := false }) (fun _ => rfl) apart
  cases o with
  | voted w _ => exact find_remove_ne CopyList.addr _ apart
  | weak => exact stale
  | failedCheck => exact stale

theorem CopiesBeside.copies {a : SectorAddr} {c c' : Cps} (h : CopiesBeside a c c') : copiesOf a c' = copiesOf a c :=
  congrArg (fun l => (l.map CopyList.copies).getD []) h

theorem CopiesBeside.fresh {a : SectorAddr} {c c' : Cps} (h : CopiesBeside a c c') : isFresh a c' = isFresh a c :=
  congrArg (fun l => l.any CopyList.fresh) h

/-! ### The job (R79, R80) -/

theorem mem_openSet {i : Nat} {j : Job} : i ∈ j.openSet ↔ ∃ t ∈ j.tallies, t.sector = i :=
  List.mem_map

/-- A job whose tallies of a sector stand. -/
structure JobBeside (i : Nat) (j j' : Job) : Prop where
  tallies : ∀ t : Tally, t.sector = i → (t ∈ j'.tallies ↔ t ∈ j.tallies)
  fill : j'.fill = j.fill

theorem JobBeside.refl (i : Nat) (j : Job) : JobBeside i j j :=
  ⟨fun _ _ => .rfl, rfl⟩

theorem JobBeside.trans {i : Nat} {j j' j'' : Job} (h : JobBeside i j j') (k : JobBeside i j' j'') : JobBeside i j j'' :=
  ⟨fun t e => (k.tallies t e).trans (h.tallies t e), k.fill.trans h.fill⟩

theorem JobBeside.openSet {i : Nat} {j j' : Job} (h : JobBeside i j j') : i ∈ j'.openSet ↔ i ∈ j.openSet := by
  simp only [mem_openSet]
  exact exists_congr fun t => ⟨fun ⟨k, e⟩ => ⟨(h.tallies t e).mp k, e⟩, fun ⟨k, e⟩ => ⟨(h.tallies t e).mpr k, e⟩⟩

/-- A tally with its last vote set keeps its sector. -/
theorem mem_lastVoteSet {i : Nat} {v : LastVote} {j : Job} {t : Tally} : t ∈ (lastVoteSet i v j).tallies ↔
    (t ∈ j.tallies ∧ t.sector ≠ i) ∨
      (t.sector = i ∧ ∃ x ∈ j.tallies, x.sector = i ∧ t = { x with lastVote := some v }) := by
  show t ∈ List.map _ j.tallies ↔ _
  rw [List.mem_map]
  constructor
  · rintro ⟨x, mem, rfl⟩
    by_cases here : x.sector = i
    · rw [if_pos here]
      exact .inr ⟨here, x, mem, here, rfl⟩
    · rw [if_neg here]
      exact .inl ⟨mem, here⟩
  · rintro (⟨mem, away⟩ | ⟨-, x, mem, here, rfl⟩)
    · exact ⟨t, mem, if_neg away⟩
    · exact ⟨x, mem, if_pos here⟩

theorem lastVoteSet_beside {i k : Nat} (v : LastVote) (j : Job) (ne : k ≠ i) : JobBeside i j (lastVoteSet k v j) := by
  refine ⟨fun t e => mem_lastVoteSet.trans ⟨?_, fun mem => .inl ⟨mem, fun k' => ne (k'.symm.trans e)⟩⟩, rfl⟩
  rintro (⟨mem, -⟩ | ⟨k', -⟩)
  · exact mem
  · exact absurd (k'.symm.trans e) ne

theorem jobOutcome_beside {i : Nat} (j : Job) (x : Member) (o : VoteOutcome) (ne : x.sector ≠ i) :
    JobBeside i j (jobOutcome x j o) := by
  cases o with
  | voted w _ =>
    refine ⟨fun t e => ?_, rfl⟩
    show t ∈ List.filter _ j.tallies ↔ _
    rw [List.mem_filter, bne_iff_ne]
    exact and_iff_left fun k => ne (k.symm.trans e)
  | weak => exact lastVoteSet_beside .weak j ne
  | failedCheck => exact lastVoteSet_beside .failedCheck j ne

theorem not_mem_close (i : Nat) (j : Job) : i ∉ (j.close i).openSet := by
  rw [mem_openSet]
  rintro ⟨t, mem, e⟩
  exact bne_iff_ne.mp (List.mem_filter.mp mem).2 e

theorem lastVoteSet_open {i : Nat} {v : LastVote} {j : Job} (h : i ∈ j.openSet) : i ∈ (lastVoteSet i v j).openSet := by
  obtain ⟨t, mem, e⟩ := mem_openSet.mp h
  exact mem_openSet.mpr ⟨{ t with lastVote := some v }, mem_lastVoteSet.mpr (.inr ⟨e, t, mem, e, rfl⟩), e⟩

theorem lastVoteSet_vote {i : Nat} {v : LastVote} {j : Job} {t : Tally} (mem : t ∈ (lastVoteSet i v j).tallies)
    (e : t.sector = i) : t.lastVote = some v := by
  rcases mem_lastVoteSet.mp mem with ⟨-, away⟩ | ⟨-, x, -, -, rfl⟩
  · exact absurd e away
  · rfl

/-! ### The entry (R137, R140) -/

/-- An entry whose outcomes of a sector stand, and which keeps the success step of the batch. -/
structure EntryBeside (i step : Nat) (e e' : Entry) : Prop where
  seqNo : e'.seqNo = e.seqNo
  state : e'.state = e.state
  outcomes : ∀ o : OutcomeRec, o.sector = i → o ∈ e.outcomes → o ∈ e'.outcomes
  success : e.successStep = some step → e.exported = false → e'.successStep = some step ∧ e'.exported = false

theorem EntryBeside.refl (i step : Nat) (e : Entry) : EntryBeside i step e e :=
  ⟨rfl, rfl, fun _ _ => id, fun k l => ⟨k, l⟩⟩

theorem EntryBeside.trans {i step : Nat} {e e' e'' : Entry} (h : EntryBeside i step e e')
    (k : EntryBeside i step e' e'') :
    EntryBeside i step e e'' :=
  ⟨k.seqNo.trans h.seqNo, k.state.trans h.state, fun o here mem => k.outcomes o here (h.outcomes o here mem),
    fun step exported => (h.success step exported).elim k.success⟩

theorem Entry.resolve_of_opened {e : Entry} (opened : e.state = .opened) (i : Nat) (r : OutcomeResult) (step : Nat) :
    e.resolve i r step =
      { e with outcomes := setOutcome i r e.outcomes, successStep := some step, exported := false } :=
  if_pos opened

theorem entryOutcome_beside {i : Nat} (b : Batch) (e : Entry) (x : Member) (o : VoteOutcome) (ne : x.sector ≠ i) :
    EntryBeside i b.step e (entryOutcome b x e o) := by
  cases o with
  | voted w margin =>
    show EntryBeside i b.step e (e.resolve _ _ _)
    by_cases opened : e.state = .opened
    · rw [Entry.resolve_of_opened opened]
      refine ⟨rfl, rfl, fun o here mem => List.mem_map.mpr ⟨o, mem, if_neg fun k => ne (k.symm.trans here)⟩,
        fun _ _ => ⟨rfl, rfl⟩⟩
    · rw [Entry.resolve, if_neg opened]
      exact .refl _ _ _
  | weak => exact .refl _ _ _
  | failedCheck => exact .refl _ _ _

theorem resolve_records {e : Entry} {i step : Nat} {r : OutcomeResult} (opened : e.state = .opened)
    (known : ∃ o ∈ e.outcomes, o.sector = i) : ⟨i, r⟩ ∈ (e.resolve i r step).outcomes ∧
      (e.resolve i r step).successStep = some step ∧ (e.resolve i r step).exported = false ∧
      (e.resolve i r step).seqNo = e.seqNo ∧ (e.resolve i r step).state = .opened := by
  rw [Entry.resolve_of_opened opened]
  obtain ⟨o, mem, here⟩ := known
  exact ⟨List.mem_map.mpr ⟨o, mem, if_pos here⟩, rfl, rfl, rfl, opened⟩

end Sys2Proof.Machine

end


section
/-! PROOF. What the end of a job's pass leaves of one sector: its record, its copies, its place in the open set and its
outcome (R66, R105 to R108, R119, R138). -/

namespace Sys2Proof.Machine

variable {s t u v : State} {tr : Track} {j : Job} {i : Nat}

/-! ### Where the job goes (R105 to R107) -/

/-- The job on a track after its pass: in the queue with the tallies it had, or ended. -/
inductive JobGoesOn (tr : Track) (j : Job) (s t : State) : Prop where
  | stays (j' : Job) (tallies : j'.tallies = j.tallies) (job : jobOf tr t = some j') (only : ChangesOnly [.jbq] s t)
  | ends (k : JobEnd) (j' : Job) (v : State) (track : j'.track = tr) (tallies : j'.tallies = j.tallies)
      (fill : j'.fill = true → j.fill = true) (only : ChangesOnly [.jbq, .evq] s v) (e : t = endJob k false false j' v)

theorem jobOf_replaced {f : Job → Job} (hf : ∀ x, x.track = tr → (f x).track = tr) :
    jobOf tr (updJob tr f s) = (jobOf tr s).map f := by
  rw [jobOf_eq_head?, jobsOn_updJob hf, jobOf_eq_head?, List.head?_map]

theorem replaced_goesOn {j' : Job} (job : jobOf tr s = some j) (track : j'.track = tr)
    (tallies : j'.tallies = j.tallies) : JobGoesOn tr j s (updJob tr (fun _ => j') s) := by
  refine .stays j' tallies ?_ (updJob_changes _ _)
  rw [jobOf_replaced fun _ _ => track, job]
  rfl

theorem coolJob_tallies (e : Expiry) (j : Job) : (coolJob e j).tallies = j.tallies := by
  unfold coolJob
  split <;> rfl

theorem endWalk_goesOn {j' : Job} (job : jobOf tr s = some j) (track : j'.track = tr) (tallies : j'.tallies = j.tallies)
    (fill : j'.fill = true → j.fill = true) : JobGoesOn tr j s (endWalk j' (updJob tr (fun _ => j') s)) := by
  have replaced : jobOf tr (updJob tr (fun _ => j') s) = some j' := by
    rw [jobOf_replaced fun _ _ => track, job]
    rfl
  have only : ChangesOnly [.jbq] s (updJob tr (fun _ => j') s) := updJob_changes _ _
  unfold endWalk
  split
  · have cooled := jobOf_replaced (tr := tr) (s := updJob tr (fun _ => j') s)
      (f := coolJob (uptimeExpiry (updJob tr (fun _ => j') s) (updJob tr (fun _ => j') s).jbq.cooldown))
      fun x k => (coolJob_waits _ x).1.trans k
    rw [replaced] at cooled
    rw [track]
    exact .stays _ ((coolJob_tallies _ _).trans tallies) cooled (only.trans (updJob_changes _ _))
  · exact .ends _ j' _ track tallies fill (only.mono (by decide)) rfl

theorem advanceJob_goesOn (job : jobOf tr s = some j) : JobGoesOn tr j s (advanceJob tr s) := by
  have track := jobOf_track job
  unfold advanceJob
  rw [job]
  dsimp only
  split
  · unfold endRecovered
    dsimp only
    split
    · exact .ends _ j _ track rfl id ((offer_changes _ _ _).mono (by decide)) rfl
    · exact .ends _ j s track rfl id (.refl _ _) rfl
  · have kept : (if j.step = 0 then { j with fill := false } else j).track = tr ∧
        (if j.step = 0 then { j with fill := false } else j).tallies = j.tallies ∧
        ((if j.step = 0 then { j with fill := false } else j).fill = true → j.fill = true) := by
      split
      · exact ⟨track, rfl, nofun⟩
      · exact ⟨track, rfl, id⟩
    obtain ⟨track', tallies, fill⟩ := kept
    split
    · exact endWalk_goesOn job track' tallies fill
    · exact replaced_goesOn job track' tallies

/-- The end of a job's pass: nothing without a job; else a fill's refill, and the job goes on. -/
theorem finishJobPass_goesOn (tr : Track) (s : State) : finishJobPass tr s = s ∧ jobOf tr s = none ∨
    ∃ j u, jobOf tr s = some j ∧ ChangesOnly [.rct, .evq] s u ∧ (j.fill = false → u = s) ∧
      JobGoesOn tr j u (finishJobPass tr s) := by
  unfold finishJobPass
  cases job : jobOf tr s with
  | none => exact .inl ⟨rfl, rfl⟩
  | some j =>
    have recorded : ChangesOnly [.rct, .evq] s (if j.fill then recordRefill j s else s) :=
      .ite (recordRefill_changes _) (.refl _ _)
    refine .inr ⟨j, _, rfl, recorded, fun off => if_neg (by simp [off]), advanceJob_goesOn ?_⟩
    rw [← job]
    exact jobOf_congr _ (congrArg Jbq.jobs (recorded.jbq (by decide)))

/-! ### The frame at a job's end (R108, R119) -/

/-- A record as it stood, or FAILED with its best copy. -/
def StandsOrFails (r r' : Option SectorRec) : Prop :=
  r' = r ∨ r' = r.map failRecord

theorem failRecord_idem (r : SectorRec) : failRecord (failRecord r) = failRecord r := by
  cases r <;> rfl

theorem StandsOrFails.trans {r r' r'' : Option SectorRec} (h : StandsOrFails r r') (k : StandsOrFails r' r'') :
    StandsOrFails r r'' := by
  have again : r.map failRecord = (r.map failRecord).map failRecord := by
    rw [Option.map_map]
    exact congrArg (r.map ·) (funext fun x => (failRecord_idem x).symm)
  rcases h with rfl | rfl
  · exact k
  · rcases k with rfl | rfl
    · exact .inr rfl
    · exact .inr again.symm

theorem failSectors_at (is : List Nat) (f : Frame) (i : Nat) : (failSectors is f).exportPending = f.exportPending ∧
    StandsOrFails f.sectors[i]? (failSectors is f).sectors[i]? := by
  induction is generalizing f with
  | nil => exact ⟨rfl, .inl rfl⟩
  | cons x is ih =>
    obtain ⟨pending, record⟩ := ih (f.updSector x failRecord)
    refine ⟨pending, StandsOrFails.trans ?_ record⟩
    show StandsOrFails f.sectors[i]? (f.sectors.modify x failRecord)[i]?
    by_cases here : x = i
    · subst here
      exact .inr (List.getElem?_modify_eq _ _ _)
    · exact .inl (List.getElem?_modify_ne _ _ here)

theorem failSectors_track (is : List Nat) (f : Frame) : (failSectors is f).track = f.track := by
  induction is generalizing f with
  | nil => rfl
  | cons x is ih => exact ih (f.updSector x failRecord)

/-- The frame released, all EMPTY, or kept with the record of a sector as it stood or FAILED. -/
def FrameEnds (tr : Track) (i : Nat) (f : Frame) (t : State) : Prop :=
  (frameOf tr t = none ∧ f.allEmpty = true) ∨
    ∃ f', frameOf tr t = some f' ∧ f'.exportPending = f.exportPending ∧ StandsOrFails f.sectors[i]? f'.sectors[i]?

theorem FrameEnds.same {f : Frame} (frame : frameOf tr s = some f) (i : Nat) : FrameEnds tr i f s :=
  .inr ⟨f, frame, rfl, .inl rfl⟩

theorem endFrame_ends {f : Frame} (frame : frameOf j.track s = some f) (i : Nat) :
    FrameEnds j.track i f (endFrame j s) := by
  unfold endFrame
  split
  · split
    · rename_i released
      have empty : f.allEmpty = true := by
        rw [releasesFrame, frame, Bool.and_eq_true] at released
        exact released.2
      exact .inl ⟨frameOf_releaseFrame _, empty⟩
    · obtain ⟨pending, record⟩ := failSectors_at j.openSet f i
      refine .inr ⟨failSectors j.openSet f, ?_, pending, record⟩
      rw [frameOf_updFrame _ _ (failSectors_track _), frame]
      rfl
  · exact .same frame i

/-! ### The entry at a job's end (R138) -/

/-- An entry that has kept its sequence, its success step, its exported flag and the outcomes of the sectors not open. -/
structure EntryEnds (j : Job) (e e' : Entry) : Prop where
  seqNo : e'.seqNo = e.seqNo
  success : e'.successStep = e.successStep
  exported : e'.exported = e.exported
  outcomes : ∀ o ∈ e.outcomes, o.sector ∉ j.openSet → o ∈ e'.outcomes

theorem EntryEnds.refl (j : Job) (e : Entry) : EntryEnds j e e :=
  ⟨rfl, rfl, rfl, fun _ mem _ => mem⟩

theorem closeEntry_ends {e : Entry} {reason : Nat → FailReason} {held : Nat → Nat} (p q : Bool)
    (entry : entryOf j.track s = some e) (fill : j.fill = false) :
    ∃ e', entryOf j.track (closeEntry j.track (fallsWith j) reason held p q s) = some e' ∧ EntryEnds j e e' := by
  have closed : EntryEnds j e (e.close (fallsWith j) reason held p) := by
    refine ⟨rfl, rfl, rfl, fun o mem away => List.mem_map.mpr ⟨o, mem, if_neg ?_⟩⟩
    rw [fallsWith, if_neg (by simp [fill]), List.contains_iff_mem]
    exact away
  have updated : entryOf j.track (updEntry j.track (Entry.close (fallsWith j) reason held p) s) =
      some (e.close (fallsWith j) reason held p) := by
    rw [entryOf_updEntry _ (Entry.close (fallsWith j) reason held p) fun _ => rfl, entry]
    rfl
  have queued (w : State) (x : Entry) : entryOf j.track (closingEvent x w) = entryOf j.track w := by
    unfold closingEvent
    split <;> rfl
  unfold closeEntry
  rw [entry]
  dsimp only
  split
  · split
    · exact ⟨_, updated, closed⟩
    · exact ⟨_, (queued _ _).trans updated, closed⟩
  · exact ⟨e, entry, .refl j e⟩

/-! ### The end of a job, and of its pass -/

theorem copyListOf_freeTrack (tr : Track) (i : Nat) (c : Cps) : copyListOf ⟨tr, i⟩ (freeTrack tr c) = none := by
  refine List.find?_eq_none.mpr fun l mem here => ?_
  have away := (List.mem_filter.mp mem).2
  rw [eq_of_beq here] at away
  exact bne_iff_ne.mp away rfl

theorem endJob_parts (k : JobEnd) (p q : Bool) (j : Job) (s : State) :
    (endJob k p q j s).tks = (endFrame j s).tks ∧ (endJob k p q j s).cps = freeTrack j.track s.cps ∧
      jobOf j.track (endJob k p q j s) = none ∧ (endJob k p q j s).rct.entries =
        (closeEntry j.track (fallsWith j) (endReason k j) (copyCount s j.track) p q
          (endCopies j (endFrame j s))).rct.entries := by
  have closing := closeEntry_changes (s := endCopies j (endFrame j s)) j.track (fallsWith j) (endReason k j)
    (copyCount s j.track) p q
  refine ⟨closing.tks (by decide), (closing.cps (by decide)).trans ?_, jobOf_removeJob _, rfl⟩
  show freeTrack j.track (endFrame j s).cps = _
  rw [(endFrame_changes j).cps (by decide)]

/-- What the end of the pass of a track's job leaves of a sector. -/
structure PassFinished (tr : Track) (i : Nat) (s t : State) : Prop where
  frame : ∀ f, frameOf tr s = some f → FrameEnds tr i f t
  copies : copiesOf ⟨tr, i⟩ s.cps = [] → copiesOf ⟨tr, i⟩ t.cps = []
  fresh : isFresh ⟨tr, i⟩ s.cps = false → isFresh ⟨tr, i⟩ t.cps = false
  job : ∀ j', jobOf tr t = some j' → ∃ j, jobOf tr s = some j ∧ j'.tallies = j.tallies
  entry : ∀ e j, entryOf tr s = some e → jobOf tr s = some j → j.fill = false →
    ∃ e', entryOf tr t = some e' ∧ EntryEnds j e e'

theorem finishJobPass_finished (tr : Track) (i : Nat) (s : State) : PassFinished tr i s (finishJobPass tr s) := by
  rcases finishJobPass_goesOn tr s with ⟨e, none⟩ | ⟨j, u, job, recorded, unfilled, goes⟩
  · rw [e]
    exact ⟨fun f k => .same k i, id, id, fun j k => ⟨j, k, rfl⟩, fun e _ k _ _ => ⟨e, k, .refl _ e⟩⟩
  generalize finishJobPass tr s = t at *
  have tks := recorded.tks (by decide)
  have cps := recorded.cps (by decide)
  cases goes with
  | stays j' tallies job' only =>
    have frames : t.tks = s.tks := (only.tks (by decide)).trans tks
    have store : t.cps = s.cps := (only.cps (by decide)).trans cps
    refine ⟨fun f k => .same ((frameOf_congr _ (congrArg Tks.frames frames)).trans k) i, fun k => by rwa [store],
      fun k => by rwa [store], fun x k => ?_, fun e x k l off => ?_⟩
    · cases job'.symm.trans k
      exact ⟨j, job, tallies⟩
    · cases job.symm.trans l
      have table : t.rct = s.rct := (only.rct (by decide)).trans (congrArg State.rct (unfilled off))
      exact ⟨e, (entryOf_congr _ (congrArg Rct.entries table)).trans k, .refl _ e⟩
  | ends k j' v track tallies fill only e =>
    subst e track
    obtain ⟨frames, store, gone, entries⟩ := endJob_parts k false false j' v
    have framed : v.tks = s.tks := (only.tks (by decide)).trans tks
    have free : copyListOf ⟨j'.track, i⟩ (endJob k false false j' v).cps = none := by
      rw [store]; exact copyListOf_freeTrack _ _ _
    refine ⟨fun f held => ?_, fun _ => by rw [copiesOf, free]; rfl, fun _ => by rw [isFresh, free]; rfl,
      fun x there => ?_, fun e x entry there off => ?_⟩
    · have ended := endFrame_ends (s := v) ((frameOf_congr _ (congrArg Tks.frames framed)).trans held) i
      unfold FrameEnds at ended ⊢
      rwa [frameOf_congr _ (congrArg Tks.frames frames)]
    · cases gone.symm.trans there
    · cases job.symm.trans there
      have table : v.rct = s.rct := (only.rct (by decide)).trans (congrArg State.rct (unfilled off))
      have before : entryOf j'.track (endCopies j' (endFrame j' v)) = some e := by
        have same : (endCopies j' (endFrame j' v)).rct = v.rct := (endFrame_changes j').rct (by decide)
        exact (entryOf_congr _ (congrArg Rct.entries (same.trans table))).trans entry
      have unfilled' : j'.fill = false := by
        cases on : j'.fill with
        | false => rfl
        | true => exact (fill on).symm.trans off
      obtain ⟨e', closed, ends⟩ := closeEntry_ends (reason := endReason k j') (held := copyCount v j'.track) false false
        before unfilled'
      refine ⟨e', (entryOf_congr _ entries).trans closed, ends.seqNo, ends.success, ends.exported, fun o mem away => ?_⟩
      exact ends.outcomes o mem (by rwa [Job.openSet, tallies])

end Sys2Proof.Machine

end


section
/-! PROOF. BATCH_COMPLETION: what each member's sector, its copies, its job and its entry are when the batch has completed
(R23, R31, R65, R77 to R80, R118, R137, R141). -/

namespace Sys2Proof.Machine

variable {s t : State} {b : Batch} {m : Member} {w : SectorWords} {margin : Nat}

/-! ### The least margin accepted (R141) -/

/-- A least margin is held, at most the one given. -/
def MarginAtMost (n : Nat) (s : State) : Prop :=
  ∃ least, s.rct.peakMargin = some least ∧ least ≤ n

theorem MarginAtMost.stands {n : Nat} (h : MarginAtMost n s) (k : Stands s t) : MarginAtMost n t := by
  obtain ⟨least, held, le⟩ := h
  have standing := k.table.margin
  rw [held] at standing
  obtain ⟨m, held', le'⟩ := standing
  exact ⟨m, held', Nat.le_trans le' le⟩

theorem reportMargin_atMost (n : Nat) (s : State) : MarginAtMost n (reportMargin n s) := by
  refine ⟨_, rfl, ?_⟩
  split
  · exact Nat.min_le_right _ _
  · exact Nat.le_refl _

theorem deliverMember_margin (voted : voteOutcome b.minMargin m.copies = .voted w margin) (s : State) :
    MarginAtMost margin (deliverMember b s m) := by
  unfold deliverMember
  rw [voted]
  exact reportMargin_atMost margin _

theorem deliverBatch_margin (voted : voteOutcome b.minMargin m.copies = .voted w margin) (mem : m ∈ b.members)
    (s : State) : MarginAtMost margin (deliverBatch b s) := by
  unfold deliverBatch
  generalize b.members = ms at mem
  have after (xs : List Member) (v : State) (h : MarginAtMost margin v) :
      MarginAtMost margin (xs.foldl (deliverMember b) v) := by
    induction xs generalizing v with
    | nil => exact h
    | cons x xs ih =>
      rw [List.foldl_cons]
      exact ih _ (h.stands (deliverMember_stands b x))
  obtain ⟨pre, post, rfl⟩ := List.append_of_mem mem
  rw [List.foldl_append, List.foldl_cons]
  exact after post _ (deliverMember_margin voted _)

/-! ### The batch delivered -/

/-- A RECOVERED sector stays so, and its frame is kept. -/
theorem PassFinished.recovered {tr : Track} {i : Nat} {f : Frame} (h : PassFinished tr i s t)
    (frame : frameOf tr s = some f) (record : f.sectors[i]? = some (.recovered w)) (pending : f.exportPending = true) :
    ∃ f', frameOf tr t = some f' ∧ f'.sectors[i]? = some (.recovered w) ∧ f'.exportPending = true := by
  rcases h.frame f frame with ⟨-, empty⟩ | ⟨f', frame', pending', ends⟩
  · cases List.all_eq_true.mp empty _ (List.mem_of_getElem? record)
  · rw [record] at ends
    exact ⟨f', frame', ends.elim id id, pending'.trans pending⟩

/-- PassFinished reads nothing of the vote before the pass's end, nor of the sequencer after it. -/
theorem PassFinished.congr {tr : Track} {i : Nat} {s' t' : State} (h : PassFinished tr i s t)
    (pre : ChangesOnly [.vte] s' s) (post : ChangesOnly [.dsq] t t') : PassFinished tr i s' t' := by
  have frame {v v' : State} (k : v'.tks = v.tks) := frameOf_congr tr (congrArg Tks.frames k)
  have job {v v' : State} (k : v'.jbq = v.jbq) := jobOf_congr tr (congrArg Jbq.jobs k)
  have entry {v v' : State} (k : v'.rct = v.rct) := entryOf_congr tr (congrArg Rct.entries k)
  obtain ⟨frames, copies, fresh, jobs, entries⟩ := h
  simp only [FrameEnds] at frames
  rw [frame (pre.tks (by decide))] at frames
  rw [pre.cps (by decide)] at copies fresh
  rw [job (pre.jbq (by decide))] at jobs entries
  rw [entry (pre.rct (by decide))] at entries
  refine ⟨?_, ?_, ?_, ?_, ?_⟩
  · simp only [FrameEnds]
    rwa [frame (post.tks (by decide))]
  · rwa [post.cps (by decide)]
  · rwa [post.cps (by decide)]
  · rwa [job (post.jbq (by decide))]
  · rwa [entry (post.rct (by decide))]

/-- What the completion leaves of a sector, from what the deliveries made of it. -/
theorem completeBatch_finished (b : Batch) (i : Nat) (s : State) :
    PassFinished b.track i (deliverBatch b s) (completeBatch b s) := by
  have ended : ChangesOnly [.vte] (deliverBatch b s) ((deliverBatch b s).updVte fun v => { v with batch := none }) :=
    updVte_changes _
  refine (finishJobPass_finished b.track i _).congr ended ?_
  generalize hv : (deliverBatch b s).updVte (fun v => { v with batch := none }) = v
  have free : ChangesOnly [.dsq] (finishJobPass b.track v) (setGrant none (finishJobPass b.track v)) :=
    setGrant_changes none
  unfold completeBatch
  rw [hv]
  exact .ite (free.trans enterIdle_changes) free

theorem completeBatch_after (b : Batch) (s : State) : Stands (deliverBatch b s) (completeBatch b s) := by
  have ended (v : State) : Stands v (v.updVte fun v => { v with batch := none }) := (updVte_changes _).stands rfl
  have freed := ((ended (deliverBatch b s)).trans (finishJobPass_stands b.track)).trans (setGrant_stands none)
  exact .ite (freed.trans enterIdle_stands) freed

/-- No outcome changes whether the job's fill is pending. -/
theorem deliverBatch_fill {j : Job} (job : jobOf b.track s = some j) :
    ∃ j', jobOf b.track (deliverBatch b s) = some j' ∧ j'.fill = j.fill := by
  obtain ⟨-, -, jobs, -⟩ := deliverBatch_parts b s
  have one (j : Job) (m : Member) (o : VoteOutcome) : (jobOutcome m j o).fill = j.fill := by cases o <;> rfl
  have all (ms : List Member) (j : Job) : (ms.foldl (jobDelivered b) j).fill = j.fill := by
    induction ms generalizing j with
    | nil => rfl
    | cons m ms ih =>
      rw [List.foldl_cons, ih]
      exact one j m _
  exact ⟨_, jobs.trans (by rw [job]; rfl), all b.members j⟩

/-! ### A VOTED member (R65, R79, R118, R137) -/

section
variable (voted : voteOutcome b.minMargin m.copies = .voted w margin) (nodup : (b.members.map Member.sector).Nodup)
  (mem : m ∈ b.members)
include voted nodup mem

theorem deliverBatch_frame {f : Frame} {r : SectorRec} (frame : frameOf b.track s = some f)
    (held : f.sectors[m.sector]? = some r) : ∃ f', frameOf b.track (deliverBatch b s) = some f' ∧
      f'.sectors[m.sector]? = some (.recovered w) ∧ f'.exportPending = true := by
  obtain ⟨c, before, after⟩ := foldl_member (R := FrameBeside m.sector) (step := frameDelivered b) (.refl _) .trans
    (fun f x ne => frameOutcome_beside f x _ ne) nodup mem f
  have step : frameDelivered b c m = frameOutcome m c (.voted w margin) := congrArg (frameOutcome m c) voted
  obtain ⟨record, pending⟩ := frameOutcome_voted w margin (before.sector.trans held)
  rw [← step] at record pending
  refine ⟨_, (deliverBatch_parts b s).1.trans (by rw [frame]; rfl), after.sector.trans record, after.pending pending⟩

theorem deliverBatch_copies (s : State) : copiesOf ⟨b.track, m.sector⟩ (deliverBatch b s).cps = [] := by
  obtain ⟨c, -, after⟩ := foldl_member (R := CopiesBeside ⟨b.track, m.sector⟩) (step := copiesDelivered b) (fun _ => rfl)
    (fun h k => Eq.trans k h) (fun c x ne => copiesOutcome_beside b c x _ ne) nodup mem s.cps
  have step : copiesDelivered b c m = freeSector ⟨b.track, m.sector⟩ c := congrArg (copiesOutcome b m c) voted
  obtain ⟨-, store, -⟩ := deliverBatch_parts b s
  rw [store, after.copies, step]
  exact copiesOf_freeSector _ _

theorem deliverBatch_closed {j : Job} (job : jobOf b.track (deliverBatch b s) = some j) : m.sector ∉ j.openSet := by
  obtain ⟨-, -, jobs, -⟩ := deliverBatch_parts b s
  obtain ⟨j', -, rfl⟩ := Option.map_eq_some_iff.mp (jobs.symm.trans job)
  obtain ⟨c, -, after⟩ := foldl_member (R := JobBeside m.sector) (step := jobDelivered b) (.refl _) .trans
    (fun j x ne => jobOutcome_beside j x _ ne) nodup mem j'
  have step : jobDelivered b c m = c.close m.sector := congrArg (jobOutcome m c) voted
  rw [after.openSet, step]
  exact not_mem_close _ _

theorem deliverBatch_entry {e : Entry} (entry : entryOf b.track s = some e) (opened : e.state = .opened)
    (known : ∃ o ∈ e.outcomes, o.sector = m.sector) : ∃ e', entryOf b.track (deliverBatch b s) = some e' ∧
      e'.seqNo = e.seqNo ∧ ⟨m.sector, .voted m.copies.length margin b.step b.passNo⟩ ∈ e'.outcomes ∧
      e'.successStep = some b.step ∧ e'.exported = false := by
  obtain ⟨c, before, after⟩ := foldl_member (R := EntryBeside m.sector b.step) (step := entryDelivered b) (.refl _ _)
    .trans (fun e x ne => entryOutcome_beside b e x _ ne) nodup mem e
  have step : entryDelivered b c m = c.resolve m.sector (.voted m.copies.length margin b.step b.passNo) b.step :=
    congrArg (entryOutcome b m c) voted
  obtain ⟨o, held, here⟩ := known
  obtain ⟨recorded, success, exported, seqNo, -⟩ := resolve_records (i := m.sector) (step := b.step)
    (r := .voted m.copies.length margin b.step b.passNo) (before.state.trans opened)
    ⟨o, before.outcomes o here held, here⟩
  rw [← step] at recorded success exported seqNo
  obtain ⟨-, -, -, entries⟩ := deliverBatch_parts b s
  obtain ⟨success', exported'⟩ := after.success success exported
  exact ⟨_, entries.trans (by rw [entry]; rfl), (after.seqNo.trans seqNo).trans before.seqNo,
    after.outcomes _ rfl recorded, success', exported'⟩

end

/-! ### A member left open (R80) -/

/-- A WEAK or FAILED_CHECK member leaves the frame, clears the fresh mark, and sets the last vote. -/
theorem delivered_open {v : LastVote} (unresolved : voteOutcome b.minMargin m.copies = .weak ∧ v = .weak ∨
      voteOutcome b.minMargin m.copies = .failedCheck ∧ v = .failedCheck) :
    (∀ f, frameDelivered b f m = f) ∧
    (∀ c, copiesDelivered b c m = clearFresh ⟨b.track, m.sector⟩ c) ∧
    ∀ j, jobDelivered b j m = lastVoteSet m.sector v j := by
  unfold frameDelivered copiesDelivered jobDelivered
  rcases unresolved with ⟨outcome, rfl⟩ | ⟨outcome, rfl⟩ <;> rw [outcome] <;>
    exact ⟨fun _ => rfl, fun _ => rfl, fun _ => rfl⟩

section
variable {v : LastVote} (nodup : (b.members.map Member.sector).Nodup) (mem : m ∈ b.members)
  (unresolved : voteOutcome b.minMargin m.copies = .weak ∧ v = .weak ∨
    voteOutcome b.minMargin m.copies = .failedCheck ∧ v = .failedCheck)
include nodup mem unresolved

theorem deliverBatch_stale (s : State) : isFresh ⟨b.track, m.sector⟩ (deliverBatch b s).cps = false := by
  obtain ⟨-, step, -⟩ := delivered_open unresolved
  obtain ⟨c, -, after⟩ := foldl_member (R := CopiesBeside ⟨b.track, m.sector⟩) (step := copiesDelivered b) (fun _ => rfl)
    (fun h k => Eq.trans k h) (fun c x ne => copiesOutcome_beside b c x _ ne) nodup mem s.cps
  obtain ⟨-, store, -⟩ := deliverBatch_parts b s
  rw [store, after.fresh, step]
  exact isFresh_clearFresh _ _

theorem deliverBatch_record {f : Frame} (frame : frameOf b.track s = some f) :
    ∃ f', frameOf b.track (deliverBatch b s) = some f' ∧ f'.sectors[m.sector]? = f.sectors[m.sector]? := by
  obtain ⟨step, -⟩ := delivered_open unresolved
  obtain ⟨c, before, after⟩ := foldl_member (R := FrameBeside m.sector) (step := frameDelivered b) (.refl _) .trans
    (fun f x ne => frameOutcome_beside f x _ ne) nodup mem f
  rw [step] at after
  exact ⟨_, (deliverBatch_parts b s).1.trans (by rw [frame]; rfl), after.sector.trans before.sector⟩

theorem deliverBatch_job {j : Job} (job : jobOf b.track s = some j) (there : m.sector ∈ j.openSet) :
    ∃ j', jobOf b.track (deliverBatch b s) = some j' ∧ m.sector ∈ j'.openSet ∧
      ∀ x ∈ j'.tallies, x.sector = m.sector → x.lastVote = some v := by
  obtain ⟨-, -, step⟩ := delivered_open unresolved
  obtain ⟨c, before, after⟩ := foldl_member (R := JobBeside m.sector) (step := jobDelivered b) (.refl _) .trans
    (fun j x ne => jobOutcome_beside j x _ ne) nodup mem j
  rw [step] at after
  obtain ⟨-, -, jobs, -⟩ := deliverBatch_parts b s
  refine ⟨_, jobs.trans (by rw [job]; rfl), after.openSet.mpr (lastVoteSet_open (before.openSet.mpr there)), ?_⟩
  exact fun x held here => lastVoteSet_vote ((after.tallies x here).mp held) here

end

end Sys2Proof.Machine

open Sys2Proof Sys2Proof.Machine

/-- Settles O52: the vote's outcome, and what each member's delivery and the end of the pass make of its sector. -/
theorem batchCompletionDelivers : Obligations.BatchCompletionDelivers := by
  refine ⟨fun least cs w hw => ?_, fun s => ⟨fun none => ?_, fun b batch => ?_⟩⟩
  · subst hw
    refine ⟨voteOutcome_of_bad, fun good few => ?_, fun good enough => ?_⟩
    · rw [voteOutcome_of_good good, if_neg (Nat.not_le_of_lt few)]
    · rw [voteOutcome_of_good good, if_pos enough]
  · simp [exec, execBatchCompletion, none]
  have dsq := completeBatch_dsq b s
  refine ⟨completeBatch b s, exec_batchCompletion batch, (completeBatch_changes b).mono (by decide),
    completeBatch_vte b s, by rw [dsq], by rw [dsq]; rfl, fun m nodup mem => ?_⟩
  have finished := completeBatch_finished b m.sector s
  refine ⟨fun w margin voted => ⟨fun f r frame held => ?_, ?_, ?_, fun j job => ?_,
      fun e j entry opened known job off => ?_⟩,
    fun v unresolved => ⟨?_, fun f r f' frame held frame' => ?_, fun j j' job there job' => ?_⟩⟩
  · obtain ⟨f', frame', record, pending⟩ := deliverBatch_frame voted nodup mem frame held
    exact finished.recovered frame' record pending
  · exact finished.copies (deliverBatch_copies voted nodup mem s)
  · exact (deliverBatch_margin voted mem s).stands (completeBatch_after b s)
  · obtain ⟨j', job', tallies⟩ := finished.job j job
    rw [Job.openSet, tallies]
    exact deliverBatch_closed voted nodup mem job'
  · obtain ⟨e', entry', seqNo, recorded, success, exported⟩ := deliverBatch_entry voted nodup mem entry opened known
    obtain ⟨j', job', fill⟩ := deliverBatch_fill job
    obtain ⟨e'', entry'', ends⟩ := finished.entry e' j' entry' job' (fill.trans off)
    exact ⟨e'', entry'', ends.seqNo.trans seqNo,
      ends.outcomes _ recorded (deliverBatch_closed voted nodup mem job'), ends.success.trans success,
      ends.exported.trans exported⟩
  · exact finished.fresh (deliverBatch_stale nodup mem unresolved s)
  · obtain ⟨g, delivered, record⟩ := deliverBatch_record nodup mem unresolved frame
    rcases finished.frame g delivered with ⟨none, -⟩ | ⟨g', there, -, ends⟩
    · cases none.symm.trans frame'
    · cases there.symm.trans frame'
      rw [record, held] at ends
      exact ends
  · obtain ⟨x, delivered, open_, votes⟩ := deliverBatch_job nodup mem unresolved job there
    obtain ⟨y, held, tallies⟩ := finished.job j' job'
    cases delivered.symm.trans held
    rw [Job.openSet, tallies]
    exact ⟨open_, votes⟩

end


section
/-! PROOF. Claims: the source of R124 that offers a frame, and what a claim from it makes of the frames, of the image it
retires and of the job it ends (R108, R114, R122, R124 to R126, R139). -/

namespace Sys2Proof.Machine

variable {s t u : State} {f : Frame} {tr : Track} {j : Job} {k : Nat}

/-! ### Pins and sources (R122, R124) -/

theorem jobPin_eq_false_iff : jobPin s f = false ↔ ∀ j, jobOf f.track s = some j → j.holdsFrame = false := by
  unfold jobPin
  cases jobOf f.track s with
  | none => simp
  | some j => simp

theorem currentPin_eq_false_iff : currentPin s f = false ↔ f.track ≠ s.mcp.track := by
  simp [currentPin]

theorem unpinned_iff : unpinned s f = true ↔ Unpinned s f := by
  rw [unpinned, Bool.not_eq_true', Bool.or_eq_false_iff, Bool.or_eq_false_iff, currentPin_eq_false_iff,
    jobPin_eq_false_iff, and_assoc]
  refine and_congr_right fun _ => and_congr_right fun _ => ?_
  rw [exportPin, ← Bool.not_eq_true, Bool.and_eq_true]

/-- A frame whose only pin is that of an image not yet exported. -/
def exportOnly (s : State) (f : Frame) : Bool :=
  exportPin s f && !currentPin s f && !jobPin s f

theorem evictable_iff {o : Origin} : evictable s o f = true ↔
    ∃ j, jobOf f.track s = some j ∧ j.holdsFrame = true ∧ j.origin = o ∧ j.state ≠ .active := by
  unfold evictable
  rw [Option.any_eq_true]
  refine exists_congr fun j => and_congr_right fun _ => ?_
  rw [Bool.and_eq_true, Bool.and_eq_true, beq_iff_eq, bne_iff_ne, and_assoc]

/-- What source `k` of R124 looks for. -/
def offers (s : State) (f : Frame) : Nat → Bool
  | 2 => unpinned s f
  | 3 => exportOnly s f
  | 4 => evictable s .prefetch f
  | 5 => evictable s .machine f
  | _ => false

theorem offers_iff : offers s f k = true ↔ OfferedBy s f k := by
  unfold offers OfferedBy
  split
  · simp [unpinned_iff]
  · rw [exportOnly, Bool.and_eq_true, Bool.and_eq_true, Bool.not_eq_true', Bool.not_eq_true', currentPin_eq_false_iff,
      jobPin_eq_false_iff, exportPin, Bool.and_eq_true]
    simp
    tauto
  · simp [evictable_iff]
  · simp [evictable_iff]
  · rename_i two three four five
    refine ⟨Bool.noConfusion, ?_⟩
    rintro (⟨e, -⟩ | ⟨e, -⟩ | ⟨e, -⟩ | ⟨e, -⟩)
    exacts [(two e).elim, (three e).elim, (four e).elim, (five e).elim]

/-- The least recently used frame that source `k` offers. -/
def offered (s : State) (k : Nat) : Option Track :=
  lruWhere (fun f => offers s f k) s

theorem demandSource_eq (full : 8 ≤ s.tks.frames.length) : demandSource s =
    ((offered s 2).map ClaimFrom.take).orElse fun _ => ((offered s 3).map ClaimFrom.take).orElse fun _ =>
      ((offered s 4).map ClaimFrom.evict).orElse fun _ => (offered s 5).map ClaimFrom.evict := by
  have plain : plainSource s = (offered s 2).map ClaimFrom.take := if_neg (Nat.not_lt_of_le full)
  unfold demandSource
  rw [plain]
  rfl

theorem plainSource_of_room (room : s.tks.frames.length < 8) : plainSource s = some .free :=
  if_pos room

theorem demandSource_of_room (room : s.tks.frames.length < 8) : demandSource s = some .free := by
  unfold demandSource
  rw [plainSource_of_room room]
  rfl

theorem offered_first {pre post : List Frame} (frames : s.tks.frames = pre ++ f :: post) (here : OfferedBy s f k)
    (first : ∀ x ∈ pre, ¬ OfferedBy s x k) : offered s k = some f.track := by
  have found : s.tks.frames.find? (fun f => offers s f k) = some f := by
    refine List.find?_eq_some_iff_append.mpr ⟨offers_iff.mpr here, pre, post, frames, fun x mem => ?_⟩
    rw [Bool.not_eq_true', ← Bool.not_eq_true, offers_iff]
    exact first x mem
  rw [offered, lruWhere, found]
  rfl

theorem offered_none (unoffered : ∀ x ∈ s.tks.frames, ¬ OfferedBy s x k) : offered s k = none := by
  rw [offered, lruWhere, Option.map_eq_none_iff, List.find?_eq_none]
  intro x mem
  rw [offers_iff]
  exact unoffered x mem

theorem offered_isSome {x : Frame} (mem : x ∈ s.tks.frames) (here : OfferedBy s x k) : (offered s k).isSome := by
  rw [offered, lruWhere, Option.isSome_map, List.find?_isSome]
  exact ⟨x, mem, offers_iff.mpr here⟩

theorem offeredBy_range (h : OfferedBy s f k) : k = 2 ∨ k = 3 ∨ k = 4 ∨ k = 5 := by
  rcases h with ⟨e, -⟩ | ⟨e, -⟩ | ⟨e, -⟩ | ⟨e, -⟩ <;> simp [e]

/-- Sources 2 and 3 take a frame; 4 and 5 end its job before. -/
def sourceOf (k : Nat) (tr : Track) : ClaimFrom :=
  if k ≤ 3 then .take tr else .evict tr

/-- The first source of R124 that offers a frame gives the least recently used of those it offers. -/
theorem demandSource_of_offered {pre post : List Frame} (full : 8 ≤ s.tks.frames.length)
    (frames : s.tks.frames = pre ++ f :: post) (here : OfferedBy s f k) (first : ∀ x ∈ pre, ¬ OfferedBy s x k)
    (lower : ∀ x ∈ s.tks.frames, ∀ i, i < k → ¬ OfferedBy s x i) : demandSource s = some (sourceOf k f.track) := by
  have taken := offered_first frames here first
  have free (i : Nat) (below : i < k) : offered s i = none := offered_none fun x mem => lower x mem i below
  rw [demandSource_eq full]
  rcases offeredBy_range here with rfl | rfl | rfl | rfl
  · rw [taken]; rfl
  · rw [free 2 (by decide), taken]; rfl
  · rw [free 2 (by decide), free 3 (by decide), taken]; rfl
  · rw [free 2 (by decide), free 3 (by decide), free 4 (by decide), taken]; rfl

theorem demandSource_isSome (h : s.tks.frames.length < 8 ∨ ∃ f k, f ∈ s.tks.frames ∧ OfferedBy s f k) :
    ∃ src, demandSource s = some src := by
  by_cases room : s.tks.frames.length < 8
  · exact ⟨_, demandSource_of_room room⟩
  obtain ⟨f, k, mem, here⟩ := h.resolve_left room
  have some_ := offered_isSome mem here
  rw [demandSource_eq (Nat.le_of_not_lt room), ← Option.isSome_iff_exists]
  rcases offeredBy_range here with rfl | rfl | rfl | rfl <;>
    simp [some_]

/-! ### The image retired (R114, R139) -/

/-- ImageRetired reads the table and the queue alone, and of the frame its track, its flag and its RECOVERED sectors. -/
theorem ImageRetired.congr {f' : Frame} {t' : State} (h : ImageRetired f s t) (track : f'.track = f.track)
    (pending : f'.exportPending = f.exportPending)
    (count : f'.sectors.countP SectorRec.isRecovered = f.sectors.countP SectorRec.isRecovered)
    (rct : t'.rct = t.rct) (evq : t'.evq = t.evq) : ImageRetired f' s t' := by
  unfold ImageRetired FirstQueued at *
  rwa [track, pending, count, rct, evq]

theorem dropImage_retired (f : Frame) (s : State) : ImageRetired f s (dropImage f s) := by
  unfold dropImage
  refine ⟨fun clean => ?_, fun pending => ?_⟩
  · rw [if_neg (by simp [clean])]
    exact ⟨rfl, rfl⟩
  · rw [if_pos pending]
    have queued : FirstQueued .imageDropped (some f.track) (f.sectors.countP SectorRec.isRecovered) s
        (offer .imageDropped (some f.track) (f.sectors.countP SectorRec.isRecovered) s) :=
      firstQueued_of_offer rfl (.refl _)
    exact ⟨queued, rfl⟩

theorem frameOf_split {pre post : List Frame} (frames : s.tks.frames = pre ++ f :: post)
    (apart : ∀ x ∈ pre, x.track ≠ f.track) : frameOf f.track s = some f := by
  refine List.find?_eq_some_iff_append.mpr ⟨beq_self_eq_true _, pre, post, frames, fun x mem => ?_⟩
  simpa using apart x mem

/-- A track's frames out of the list. -/
def framesWithout (tr : Track) (fs : List Frame) : List Frame :=
  fs.filter fun f => f.track != tr

theorem framesWithout_split {pre post : List Frame} (apart : ∀ x ∈ pre ++ post, x.track ≠ f.track) :
    framesWithout f.track (pre ++ f :: post) = pre ++ post := by
  have kept (xs : List Frame) (sub : ∀ x ∈ xs, x ∈ pre ++ post) : framesWithout f.track xs = xs :=
    List.filter_eq_self.mpr fun x mem => bne_iff_ne.mpr (apart x (sub x mem))
  have out : framesWithout f.track (f :: post) = framesWithout f.track post :=
    List.filter_cons_of_neg (by simp)
  show framesWithout f.track (pre ++ f :: post) = _
  rw [framesWithout, List.filter_append]
  show framesWithout f.track pre ++ framesWithout f.track (f :: post) = _
  rw [out, kept pre fun x => List.mem_append_left _, kept post fun x => List.mem_append_right _]

theorem framesWithout_of_none (gone : frameOf tr s = none) : framesWithout tr s.tks.frames = s.tks.frames := by
  refine List.filter_eq_self.mpr fun x mem => ?_
  have away := List.find?_eq_none.mp gone x mem
  simpa using away

theorem framesWithout_change {g : Frame → Frame} (hg : ∀ x, (g x).track = x.track) (fs : List Frame) :
    framesWithout tr (fs.map fun x => if x.track = tr then g x else x) = framesWithout tr fs := by
  induction fs with
  | nil => rfl
  | cons x fs ih =>
    unfold framesWithout at ih ⊢
    rw [List.map_cons, List.filter_cons, List.filter_cons, ih]
    by_cases here : x.track = tr
    · simp [here, hg]
    · simp [here]

/-- A job's end leaves the frames of the other tracks. -/
theorem endFrame_framesWithout (j : Job) (s : State) :
    framesWithout j.track (endFrame j s).tks.frames = framesWithout j.track s.tks.frames := by
  unfold endFrame
  split
  · split
    · show framesWithout j.track (framesWithout j.track s.tks.frames) = _
      simp [framesWithout]
    · exact framesWithout_change (failSectors_track _) _
  · rfl

/-- Retiring from a source that names a track frees its slot. -/
theorem retire_tks {src : ClaimFrom} (named : src = .take tr ∨ src = .evict tr) :
    (retire src s).tks = { s.tks with frames := framesWithout tr s.tks.frames } := by
  have leave (v : State) : (match frameOf tr v with
      | some f => releaseFrame tr (dropImage f v)
      | none => v).tks = { v.tks with frames := framesWithout tr v.tks.frames } := by
    cases frame : frameOf tr v with
    | none => rw [framesWithout_of_none frame]
    | some f =>
      show ((dropImage f v).updTks _).tks = _
      rw [State.updTks_tks, (dropImage_changes f).tks (by decide)]
      rfl
  rcases named with rfl | rfl
  · exact leave s
  · rw [retire_evict]
    refine (leave _).trans ?_
    cases job : jobOf tr s with
    | none => rw [jobEvicted_of_none job]
    | some j =>
      obtain ⟨tks, -⟩ := endJob_parts (.cause .evicted) false false j s
      have track := jobOf_track job
      rw [jobEvicted_of_job job, tks]
      subst track
      have hold : (endFrame j s).tks.exportHold = s.tks.exportHold := by
        unfold endFrame
        split
        · split <;> rfl
        · rfl
      rw [endFrame_framesWithout]
      exact congrArg (Tks.mk _) hold

/-- A frame taken without ending a job. -/
theorem retire_take_retired (frame : frameOf f.track s = some f) :
    ChangesOnly [.tks, .rct, .evq] s (retire (.take f.track) s) ∧ ImageRetired f s (retire (.take f.track) s) := by
  rw [retire_take frame]
  exact ⟨((dropImage_changes f).mono (by decide)).andThen (releaseFrame_changes _) (by decide),
    (dropImage_retired f s).congr rfl rfl rfl rfl rfl⟩

theorem failRecord_isRecovered (r : SectorRec) : (failRecord r).isRecovered = r.isRecovered := by
  cases r <;> rfl

theorem failSectors_recovered (is : List Nat) (f : Frame) :
    (failSectors is f).sectors.countP SectorRec.isRecovered = f.sectors.countP SectorRec.isRecovered := by
  have one (rs : List SectorRec) (i : Nat) :
      (rs.modify i failRecord).countP SectorRec.isRecovered = rs.countP SectorRec.isRecovered := by
    induction rs generalizing i with
    | nil => simp
    | cons r rs ih =>
      cases i with
      | zero => simp [List.countP_cons, failRecord_isRecovered]
      | succ i => simp [List.countP_cons, ih]
  induction is generalizing f with
  | nil => rfl
  | cons i is ih => exact (ih (f.updSector i failRecord)).trans (one _ _)

/-- A frame taken from a job that the claim ends (R114). -/
theorem retire_evict_retired (frame : frameOf f.track s = some f) (job : jobOf f.track s = some j)
    (holds : j.holdsFrame = true) (fill : j.fill = false) {w : State}
    (hw : w = endJob (.cause .evicted) false false j s) :
    ImageRetired f w (retire (.evict f.track) s) ∧ (retire (.evict f.track) s).cps = w.cps ∧
      (retire (.evict f.track) s).jbq.jobs = s.jbq.jobs.filter fun x => x.track != f.track := by
  have track := jobOf_track job
  obtain ⟨tks, -⟩ := endJob_parts (.cause .evicted) false false j s
  have framed : frameOf f.track w = some (failSectors j.openSet f) := by
    rw [hw, frameOf_congr _ (congrArg Tks.frames tks)]
    unfold endFrame
    rw [if_pos holds, if_neg (by simp [releasesFrame, fill]), track, frameOf_updFrame _ _ (failSectors_track _),
      frame]
    rfl
  have evicted : retire (.evict f.track) s = releaseFrame f.track (dropImage (failSectors j.openSet f) w) := by
    rw [retire_evict, jobEvicted_of_job job, ← hw, framed]
  have dropped := dropImage_changes (s := w) (failSectors j.openSet f)
  rw [evicted]
  refine ⟨?_, dropped.cps (by decide), ?_⟩
  · exact (dropImage_retired (failSectors j.openSet f) w).congr (failSectors_track _ _).symm
      (failSectors_at _ _ 0).1.symm (failSectors_recovered _ _).symm rfl rfl
  · show (dropImage (failSectors j.openSet f) w).jbq.jobs = _
    rw [dropped.jbq (by decide), hw, ← track]
    have closing := closeEntry_changes (s := endCopies j (endFrame j s)) j.track (fallsWith j)
      (endReason (.cause .evicted) j) (copyCount s j.track) false false
    have same : (closeEntry j.track (fallsWith j) (endReason (.cause .evicted) j) (copyCount s j.track) false false
        (endCopies j (endFrame j s))).jbq = s.jbq :=
      (closing.jbq (by decide)).trans ((endFrame_changes j).jbq (by decide))
    show List.filter _ (closeEntry _ _ _ _ _ _ _).jbq.jobs = _
    rw [same]

/-! ### Claims (R114, R125, R126) -/

theorem claim_tks (src : ClaimFrom) (tr : Track) (s : State) : (claim src tr s).tks =
    { (retire src s).tks with frames := (retire src s).tks.frames ++ [emptyFrame s tr] } := rfl

theorem claim_after (src : ClaimFrom) (tr : Track) (s : State) : ChangesOnly [.tks] (retire src s) (claim src tr s) :=
  updTks_changes _

theorem claim_of_room (tr : Track) (s : State) : ChangesOnly [.tks] s (claim .free tr s) ∧
    (claim .free tr s).tks = { s.tks with frames := s.tks.frames ++ [emptyFrame s tr] } :=
  ⟨claim_after .free tr s, rfl⟩

/-- A claim from the frame `f`, which stands in its place. -/
theorem claim_of_named {src : ClaimFrom} {pre post : List Frame} (named : src = .take f.track ∨ src = .evict f.track)
    (frames : s.tks.frames = pre ++ f :: post) (apart : ∀ x ∈ pre ++ post, x.track ≠ f.track) (tr : Track) :
    (claim src tr s).tks = { s.tks with frames := pre ++ post ++ [emptyFrame s tr] } := by
  rw [claim_tks, retire_tks named, frames, framesWithout_split apart]

/-- A frame taken by a claim that ends no job. -/
theorem claim_take_retired (frame : frameOf f.track s = some f) (tr : Track) :
    ChangesOnly [.tks, .rct, .evq] s (claim (.take f.track) tr s) ∧ ImageRetired f s (claim (.take f.track) tr s) := by
  obtain ⟨only, retired⟩ := retire_take_retired frame
  have after := claim_after (.take f.track) tr s
  exact ⟨only.andThen after (by decide), retired.congr rfl rfl rfl (after.rct (by decide)) (after.evq (by decide))⟩

theorem plainSource_of_full (full : 8 ≤ s.tks.frames.length) : plainSource s = (offered s 2).map ClaimFrom.take :=
  if_neg (Nat.not_lt_of_le full)

/-- A claim from a free slot, or from the least recently used unpinned frame, reaches the slots, the table and the queue
alone. -/
theorem claim_plain_changes {src : ClaimFrom} (source : plainSource s = some src) (tr : Track) :
    ChangesOnly [.tks, .rct, .evq] s (claim src tr s) := by
  by_cases room : s.tks.frames.length < 8
  · cases (plainSource_of_room room).symm.trans source
    exact (claim_of_room tr s).1.mono (by decide)
  · rw [plainSource_of_full (Nat.le_of_not_lt room)] at source
    obtain ⟨tr', lru, rfl⟩ := Option.map_eq_some_iff.mp source
    obtain ⟨f, frame⟩ := Option.isSome_iff_exists.mp (lruWhere_cases lru).1
    cases frameOf_track frame
    exact (claim_take_retired frame tr).1

theorem claim_slotTaken {src : ClaimFrom} (source : plainSource s = some src) (tr : Track) :
    SlotTaken tr s (claim src tr s) := by
  refine ⟨fun room => ?_, fun pre f post full frames free first apart => ?_⟩
  · cases (plainSource_of_room room).symm.trans source
    exact ⟨rfl, rfl, rfl⟩
  · have lru : offered s 2 = some f.track := offered_first frames (.inl ⟨rfl, free⟩) fun x mem here => by
      rcases here with ⟨-, k⟩ | ⟨k, -⟩ | ⟨k, -⟩ | ⟨k, -⟩
      · exact first x mem k
      all_goals cases k
    rw [plainSource_of_full full, lru] at source
    cases source
    have frame := frameOf_split frames fun x mem => apart x (List.mem_append_left _ mem)
    exact ⟨claim_of_named (.inl rfl) frames apart tr, (claim_take_retired frame tr).2⟩

/-- SlotTaken reads of the later state its frames, the table and the queue. -/
theorem SlotTaken.congr (h : SlotTaken tr s t) (tks : u.tks = t.tks) (rct : u.rct = t.rct) (evq : u.evq = t.evq) :
    SlotTaken tr s u := by
  unfold SlotTaken ImageRetired FirstQueued at *
  rwa [tks, rct, evq]

theorem plainSource_isSome : (plainSource s).isSome ↔ SlotOffered s := by
  by_cases room : s.tks.frames.length < 8
  · rw [plainSource_of_room room]
    exact ⟨fun _ => .inl room, fun _ => rfl⟩
  · rw [plainSource_of_full (Nat.le_of_not_lt room), Option.isSome_map, offered, lruWhere, Option.isSome_map,
      List.find?_isSome]
    refine ⟨fun ⟨f, mem, k⟩ => .inr ⟨f, mem, unpinned_iff.mp k⟩, fun k => ?_⟩
    obtain ⟨f, mem, k⟩ := k.resolve_left room
    exact ⟨f, mem, unpinned_iff.mpr k⟩

end Sys2Proof.Machine

end


section
/-! PROOF. Candidates: which job, fetch or prefetch is the first candidate in the order of R25 (R25, R125, R126). -/

namespace Sys2Proof.Machine

variable {s : State} {j : Job} {tr : Track} {c : Candidate} {p : Job → Bool}

/-! ### The demand fetch (R25, order 1) -/

theorem candidate_of_hold {src : ClaimFrom} (seeking : s.mcp.state = .seeking) (gap : frameOf s.mcp.track s = none)
    (source : demandSource s = some src) : candidate s = some (.fetch .demandFetch s.mcp.track src) := by
  unfold candidate demandCandidate
  rw [if_pos ⟨seeking, by rw [gap]; rfl⟩, source]
  rfl

theorem demandCandidate_of_no_hold (h : s.mcp.state ≠ .seeking ∨ (frameOf s.mcp.track s).isSome) :
    demandCandidate s = none := by
  refine if_neg fun ⟨seeking, gap⟩ => ?_
  rcases h with away | framed
  · exact away seeking
  · rw [Option.isNone_iff_eq_none.mp gap] at framed
    cases framed

/-! ### Jobs -/

theorem jobCandidate_of_holds (queued : j.state = .queued) (holds : j.holdsFrame = true) :
    jobCandidate s j = some (.job j none) := by
  unfold jobCandidate
  rw [if_neg (not_not_intro queued), if_pos holds]

/-- A job without a frame is a candidate with the source of its claim. -/
theorem jobCandidate_of_frameless (queued : j.state = .queued) (free : j.holdsFrame = false)
    (gap : frameOf j.track s = none) : jobCandidate s j = (stationSource s).map fun src => .job j (some src) := by
  unfold jobCandidate
  rw [if_neg (not_not_intro queued), if_neg (by rw [free]; decide), if_neg (by rw [gap]; decide)]

theorem stationSource_of_below (below : stationFramesHeld s < 6) : stationSource s = plainSource s :=
  if_pos below

theorem jobCandidate_of_claim (eligible : Eligible s j) (free : j.holdsFrame = false) :
    ∃ src, plainSource s = some src ∧ jobCandidate s j = some (.job j (some src)) := by
  obtain ⟨queued, holds | ⟨gap, below, slot⟩⟩ := eligible
  · rw [free] at holds; cases holds
  · obtain ⟨src, source⟩ := Option.isSome_iff_exists.mp (plainSource_isSome.mpr slot)
    refine ⟨src, source, ?_⟩
    rw [jobCandidate_of_frameless queued free gap, stationSource_of_below below, source]
    rfl

/-- A job is a candidate only if it is eligible. -/
theorem eligible_of_jobCandidate (h : jobCandidate s j = some c) : Eligible s j := by
  by_cases queued : j.state = .queued
  · refine ⟨queued, ?_⟩
    cases holds : j.holdsFrame with
    | true => exact .inl rfl
    | false =>
      right
      cases gap : frameOf j.track s with
      | some f => simp [jobCandidate, queued, holds, gap] at h
      | none =>
        rw [jobCandidate_of_frameless queued holds gap] at h
        by_cases below : stationFramesHeld s < 6
        · rw [stationSource_of_below below] at h
          obtain ⟨src, source, -⟩ := Option.map_eq_some_iff.mp h
          exact ⟨rfl, below, plainSource_isSome.mp (by rw [source]; rfl)⟩
        · rw [show stationSource s = none from if_neg below] at h
          cases h
  · simp [jobCandidate, queued] at h

theorem jobCandidate_of_ineligible (h : ¬ Eligible s j) : jobCandidate s j = none := by
  cases k : jobCandidate s j with
  | none => rfl
  | some c => exact (h (eligible_of_jobCandidate k)).elim

theorem firstJob_of_first {pre post : List Job} (jobs : s.jbq.jobs = pre ++ j :: post) (here : p j = true)
    (is : jobCandidate s j = some c) (first : ∀ x ∈ pre, p x = true → ¬ Eligible s x) : firstJob s p = some c := by
  have before : (pre.filter p).findSome? (jobCandidate s) = none := by
    refine List.findSome?_eq_none_iff.mpr fun x mem => ?_
    obtain ⟨mem, k⟩ := List.mem_filter.mp mem
    exact jobCandidate_of_ineligible (first x mem k)
  rw [firstJob, jobs, List.filter_append, List.filter_cons_of_pos here, List.findSome?_append, before,
    List.findSome?_cons_of_isSome (by rw [is]; rfl), is]
  rfl

theorem firstJob_of_no_eligible (h : ∀ x ∈ s.jbq.jobs, p x = true → ¬ Eligible s x) : firstJob s p = none := by
  refine List.findSome?_eq_none_iff.mpr fun x mem => ?_
  obtain ⟨mem, k⟩ := List.mem_filter.mp mem
  exact jobCandidate_of_ineligible (h x mem k)

/-! ### The prefetch (R25, order 5) -/

theorem prefetchTrack_eq_some_iff : prefetchTrack s = some tr ↔ tr.cyl = s.mcp.track.cyl ∧ tr.head < s.geom.heads ∧
    frameOf tr s = none ∧ ∀ h, h < tr.head → (frameOf ⟨tr.cyl, h⟩ s).isSome := by
  obtain ⟨cyl, head⟩ := tr
  unfold prefetchTrack
  rw [List.find?_map, Option.map_eq_some_iff]
  constructor
  · rintro ⟨h, found, same⟩
    cases same
    obtain ⟨gap, mem, lower⟩ := List.find?_range_eq_some.mp found
    refine ⟨rfl, List.mem_range.mp mem, Option.isNone_iff_eq_none.mp gap, fun i below => ?_⟩
    simpa using lower i below
  · rintro ⟨rfl, inside, gap, lower⟩
    refine ⟨head, List.find?_range_eq_some.mpr ⟨Option.isNone_iff_eq_none.mpr gap, List.mem_range.mpr inside,
      fun i below => ?_⟩, rfl⟩
    simpa using lower i below

theorem prefetchCandidate_of_for (h : PrefetchFor s tr) :
    ∃ src, plainSource s = some src ∧ prefetchCandidate s = some (.fetch .prefetch tr src) := by
  obtain ⟨on, cyl, inside, gap, lower, slot⟩ := h
  obtain ⟨src, source⟩ := Option.isSome_iff_exists.mp (plainSource_isSome.mpr slot)
  refine ⟨src, source, ?_⟩
  rw [prefetchCandidate, if_pos on, prefetchTrack_eq_some_iff.mpr ⟨cyl, inside, gap, lower⟩, Option.bind_some, source]
  rfl

theorem prefetchCandidate_of_no_for (h : ∀ tr, ¬ PrefetchFor s tr) : prefetchCandidate s = none := by
  unfold prefetchCandidate
  split
  · rename_i on
    cases track : prefetchTrack s with
    | none => rfl
    | some tr =>
      obtain ⟨cyl, inside, gap, lower⟩ := prefetchTrack_eq_some_iff.mp track
      cases source : plainSource s with
      | none => rfl
      | some src =>
        have slot : SlotOffered s := plainSource_isSome.mp (by rw [source]; rfl)
        exact (h tr ⟨on, cyl, inside, gap, lower, slot⟩).elim
  · rfl

/-! ### Orders (R25) -/

/-- What order `k` of R25 asks of a job beside being eligible. -/
def ofOrder (s : State) (k : Nat) (j : Job) : Bool :=
  match k with
  | 2 => j.track == s.mcp.track
  | 3 => j.origin == .station
  | 4 => j.origin == .machine
  | _ => j.origin == .prefetch

theorem candidate_eq (s : State) : candidate s = (demandCandidate s).orElse fun _ =>
    (firstJob s (ofOrder s 2)).orElse fun _ => (firstJob s (ofOrder s 3)).orElse fun _ =>
      (firstJob s (ofOrder s 4)).orElse fun _ => (prefetchCandidate s).orElse fun _ => firstJob s (ofOrder s 6) := rfl

theorem jobOrder_range (s : State) (j : Job) :
    jobOrder s j = 2 ∨ jobOrder s j = 3 ∨ jobOrder s j = 4 ∨ jobOrder s j = 6 := by
  unfold jobOrder
  split
  · simp
  · cases j.origin <;> simp

theorem ofOrder_jobOrder (s : State) (j : Job) : ofOrder s (jobOrder s j) j = true := by
  unfold jobOrder
  split
  · rename_i current
    exact beq_iff_eq.mpr current
  · cases origin : j.origin <;> simp [ofOrder, origin]

/-- A job that an order asks for stands in that order or, on the current track, in an earlier one. -/
theorem jobOrder_le_of_ofOrder {k : Nat} (order : k = 2 ∨ k = 3 ∨ k = 4 ∨ k = 6) (h : ofOrder s k j = true) :
    jobOrder s j ≤ k := by
  unfold jobOrder
  rcases order with rfl | rfl | rfl | rfl <;> replace h := beq_iff_eq.mp h
  · rw [if_pos h]
  all_goals split <;> simp [h]

/-- No job stands in an order before the lowest that an eligible job has. -/
theorem firstJob_of_below {k n : Nat} (order : k = 2 ∨ k = 3 ∨ k = 4 ∨ k = 6) (below : k < n)
    (lowest : ∀ x ∈ s.jbq.jobs, Eligible s x → n ≤ jobOrder s x) : firstJob s (ofOrder s k) = none :=
  firstJob_of_no_eligible fun x mem asks eligible =>
    absurd (lowest x mem eligible) (by have := jobOrder_le_of_ofOrder order asks; omega)

/-- The candidate that is the earliest eligible job of the lowest order. -/
theorem candidate_of_job {pre post : List Job} (demand : demandCandidate s = none)
    (jobs : s.jbq.jobs = pre ++ j :: post) (is : jobCandidate s j = some c)
    (lowest : ∀ x ∈ s.jbq.jobs, Eligible s x → jobOrder s j ≤ jobOrder s x)
    (first : ∀ x ∈ pre, Eligible s x → jobOrder s x ≠ jobOrder s j)
    (late : jobOrder s j = 6 → ∀ tr, ¬ PrefetchFor s tr) : candidate s = some c := by
  have here := ofOrder_jobOrder s j
  have order := jobOrder_range s j
  have found : firstJob s (ofOrder s (jobOrder s j)) = some c := by
    refine firstJob_of_first jobs here is fun x mem asks eligible => first x mem eligible ?_
    have low := lowest x (by rw [jobs]; exact List.mem_append_left _ mem) eligible
    have high := jobOrder_le_of_ofOrder order asks
    omega
  rw [candidate_eq, demand]
  generalize jobOrder s j = n at *
  rcases order with rfl | rfl | rfl | rfl
  · rw [found]; rfl
  · rw [firstJob_of_below (.inl rfl) (by decide) lowest, found]; rfl
  · rw [firstJob_of_below (.inl rfl) (by decide) lowest, firstJob_of_below (.inr (.inl rfl)) (by decide) lowest, found]
    rfl
  · rw [firstJob_of_below (.inl rfl) (by decide) lowest, firstJob_of_below (.inr (.inl rfl)) (by decide) lowest,
      firstJob_of_below (.inr (.inr (.inl rfl))) (by decide) lowest, prefetchCandidate_of_no_for (late rfl), found]
    rfl

/-- The jobs of orders 2 to 4 are before the prefetch, which is before those of order 6. -/
theorem candidate_of_late_jobs (demand : demandCandidate s = none)
    (late : ∀ x ∈ s.jbq.jobs, Eligible s x → jobOrder s x = 6) :
    candidate s = (prefetchCandidate s).orElse fun _ => firstJob s (ofOrder s 6) := by
  have lowest : ∀ x ∈ s.jbq.jobs, Eligible s x → 6 ≤ jobOrder s x := fun x mem eligible => (late x mem eligible).ge
  rw [candidate_eq, demand, firstJob_of_below (.inl rfl) (by decide) lowest,
    firstJob_of_below (.inr (.inl rfl)) (by decide) lowest, firstJob_of_below (.inr (.inr (.inl rfl))) (by decide) lowest]
  rfl

theorem candidate_of_none (demand : demandCandidate s = none) (jobs : ∀ x ∈ s.jbq.jobs, ¬ Eligible s x)
    (prefetch : ∀ tr, ¬ PrefetchFor s tr) : candidate s = none := by
  rw [candidate_of_late_jobs demand fun x mem eligible => (jobs x mem eligible).elim,
    prefetchCandidate_of_no_for prefetch, firstJob_of_no_eligible fun x mem _ => jobs x mem]
  rfl

end Sys2Proof.Machine

end


section
/-! PROOF. What arbitration makes of the first candidate: its grant, its frame and the collections (R25, R26, R95, R96,
R103, R114, R124 to R126). -/

namespace Sys2Proof.Machine

variable {s t : State} {f : Frame} {j : Job} {tr : Track} {src : ClaimFrom} {c : Candidate}

/-- What arbitration makes of the first candidate `c`: what the claim and the collections take, and the grant. -/
theorem arbitrate_grants (idle : s.dsq.state = .idle) (running : spindleOf s.ixm = .running)
    (batch : s.vte.batch = none) (first : candidate s = some c) :
    (arbitrate s).dsq.grant = some (grantFor c s) ∧ ChangesOnly [.dsq] (prepareGrant c s) (arbitrate s) := by
  have given : arbitrate s = takeUpGrant (grantFor c s) (grantGiven c s) :=
    arbitrate_of_candidate idle running batch first
  have grant : (grantGiven c s).dsq.grant = some (grantFor c s) := by rw [grantGiven_dsq]
  have turns : spindleOf (grantGiven c s).ixm = .running := by rw [(grantGiven_changes c s).ixm (by decide), running]
  rw [given]
  exact ⟨(takeUpGrant_running grant turns).2.1,
    (setGrant_changes _).andThen (takeUpGrant_steady_changes grant fun k => nomatch turns.symm.trans k) (by decide)⟩

/-! ### Fetches (R25, orders 1 and 5; R26, R96) -/

/-- A fetch's frame claimed, its tallies at 0. -/
theorem prepareGrant_fetch (kind : GrantKind) (tr : Track) (src : ClaimFrom) (s : State) :
    ChangesOnly [.jbq] (claim src tr s) (prepareGrant (.fetch kind tr src) s) ∧
      (prepareGrant (.fetch kind tr src) s).jbq =
        { (retire src s).jbq with fetch := some ⟨zeroTallies (List.range s.geom.sectors), false⟩ } :=
  ⟨updJbq_changes _, rfl⟩

theorem zeroTallies_zero {is : List Nat} : ∀ x ∈ zeroTallies is, x.captured = 0 ∧ x.badHeaders = 0 := by
  intro x mem
  obtain ⟨i, -, rfl⟩ := List.mem_map.mp mem
  exact ⟨rfl, rfl⟩

/-- The state with a fetch granted: the claim, and beside it the sequencer and the queue alone. -/
theorem arbitrate_fetches {kind : GrantKind} (idle : s.dsq.state = .idle) (running : spindleOf s.ixm = .running)
    (batch : s.vte.batch = none) (first : candidate s = some (.fetch kind tr src)) :
    (arbitrate s).dsq.grant = some (fetchGrant kind tr s.geom.sectors) ∧
      ChangesOnly [.dsq, .jbq] (claim src tr s) (arbitrate s) ∧
      (arbitrate s).jbq = { (retire src s).jbq with fetch := some ⟨zeroTallies (List.range s.geom.sectors), false⟩ } := by
  obtain ⟨grant, only⟩ := arbitrate_grants idle running batch first
  obtain ⟨claimed, jbq⟩ := prepareGrant_fetch kind tr src s
  exact ⟨grant, (claimed.mono (by decide)).andThen only (by decide), (only.jbq (by decide)).trans jbq⟩

/-- The sources of a demand fetch from a frame: sources 2 and 3 end no job, and 4 and 5 the one that holds the frame. -/
theorem demand_claim {pre post : List Frame} {k : Nat} (frames : s.tks.frames = pre ++ f :: post) (here : OfferedBy s f k)
    (apart : ∀ x ∈ pre ++ post, x.track ≠ f.track) (tr : Track) :
    (claim (sourceOf k f.track) tr s).tks = { s.tks with frames := pre ++ post ++ [emptyFrame s tr] } ∧
      (k ≤ 3 → (retire (sourceOf k f.track) s).jbq = s.jbq ∧ ImageRetired f s (claim (sourceOf k f.track) tr s)) ∧
      ∀ j, 4 ≤ k → jobOf f.track s = some j → j.fill = false →
        (retire (sourceOf k f.track) s).jbq.jobs = s.jbq.jobs.filter (fun x => x.track != f.track) ∧
        ∃ w, w = endJob (.cause .evicted) false false j s ∧ ImageRetired f w (claim (sourceOf k f.track) tr s) ∧
          (claim (sourceOf k f.track) tr s).cps = w.cps := by
  have frame : frameOf f.track s = some f := frameOf_split frames fun x mem => apart x (List.mem_append_left _ mem)
  refine ⟨claim_of_named ?_ frames apart tr, fun early => ?_, fun j late job fill => ?_⟩
  · unfold sourceOf
    split
    · exact .inl rfl
    · exact .inr rfl
  · rw [sourceOf, if_pos early]
    exact ⟨retire_jbq_of_plain rfl, (claim_take_retired frame tr).2⟩
  · have holds : j.holdsFrame = true := by
      rcases here with ⟨rfl, -⟩ | ⟨rfl, -⟩ | ⟨-, i, at_, owns, -⟩ | ⟨-, i, at_, owns, -⟩
      · exact absurd late (by decide)
      · exact absurd late (by decide)
      all_goals rw [job] at at_; cases at_; exact owns
    rw [sourceOf, if_neg (Nat.not_le_of_lt late)]
    obtain ⟨retired, cps, jobs⟩ := retire_evict_retired frame job holds fill rfl
    have after := claim_after (.evict f.track) tr s
    exact ⟨jobs, _, rfl, retired.congr rfl rfl rfl (after.rct (by decide)) (after.evq (by decide)),
      (after.cps (by decide)).trans cps⟩

/-! ### Jobs (R26, R95, R103) -/

/-- The job on a track no other job is on, changed in its place. -/
theorem updJob_split {pre post : List Job} (g : Job → Job) (jobs : s.jbq.jobs = pre ++ j :: post)
    (apart : ∀ x ∈ pre ++ post, x.track ≠ j.track) :
    (updJob j.track g s).jbq = { s.jbq with jobs := pre ++ g j :: post } := by
  have kept (xs : List Job) (sub : ∀ x ∈ xs, x ∈ pre ++ post) :
      xs.map (fun x => if x.track = j.track then g x else x) = xs :=
    (List.map_congr_left fun x mem => if_neg (apart x (sub x mem))).trans (List.map_id' xs)
  show ({ s.jbq with jobs := s.jbq.jobs.map fun x => if x.track = j.track then g x else x } : Jbq) = _
  rw [jobs, List.map_append, List.map_cons, if_pos rfl, kept pre fun x => List.mem_append_left _,
    kept post fun x => List.mem_append_right _]

/-- A job as it is once the drive is granted to it. -/
def Job.activated (j : Job) : Job :=
  { j with state := .active, holdsFrame := true }

theorem ladderStep_zero (q : Jbq) : ladderStep q 0 = ⟨0, 0, 1⟩ := rfl

theorem ladderStep_of_record {q : Jbq} {step : Nat} {r : LadderStep} (above : 1 ≤ step)
    (record : q.ladder[step - 1]? = some r) : ladderStep q step = r := by
  rw [ladderStep, if_neg (Nat.ne_of_gt above), List.getD_eq_getElem?_getD, record]
  rfl

/-- The state with a job granted the drive on the frame it holds, or on one claimed from a plain source. -/
theorem arbitrate_passes {pre post : List Job} {source : Option ClaimFrom} (idle : s.dsq.state = .idle)
    (running : spindleOf s.ixm = .running) (batch : s.vte.batch = none)
    (first : candidate s = some (.job j source)) (plain : ∀ src, source = some src → plainSource s = some src)
    (jobs : s.jbq.jobs = pre ++ j :: post) (apart : ∀ x ∈ pre ++ post, x.track ≠ j.track) :
    (arbitrate s).dsq.grant = some (jobGrant s.jbq j) ∧
      (arbitrate s).jbq = { s.jbq with jobs := pre ++ j.activated :: post } ∧
      (source = none → ChangesOnly [.dsq, .jbq] s (arbitrate s)) ∧
      (source.isSome → SlotTaken j.track s (arbitrate s)) := by
  obtain ⟨grant, only⟩ := arbitrate_grants idle running batch first
  have jbq : (prepareGrant (.job j source) s).jbq = { s.jbq with jobs := pre ++ j.activated :: post } := by
    cases source with
    | none => exact updJob_split Job.activated jobs apart
    | some src =>
      have same := (claim_plain_changes (plain src rfl) j.track).jbq (by decide)
      refine (updJob_split (s := claim src j.track s) Job.activated (by rw [same]; exact jobs) apart).trans ?_
      rw [same]
  refine ⟨grant, (only.jbq (by decide)).trans jbq, ?_, ?_⟩
  · rintro rfl
    exact ((updJob_changes (s := s) j.track Job.activated).mono (by decide)).andThen only (by decide)
  · intro claims
    obtain ⟨src, rfl⟩ := Option.isSome_iff_exists.mp claims
    have after : ChangesOnly [.dsq, .jbq] (claim src j.track s) (arbitrate s) :=
      ((updJob_changes (s := claim src j.track s) j.track Job.activated).mono (by decide)).andThen only (by decide)
    exact (claim_slotTaken (plain src rfl) j.track).congr (after.tks (by decide)) (after.rct (by decide))
      (after.evq (by decide))

/-! ### The cases of R25 -/

section
variable (idle : s.dsq.state = .idle) (running : spindleOf s.ixm = .running) (batch : s.vte.batch = none)
include idle running batch

/-- A holding port whose track has no frame is granted a demand fetch (R25, order 1; R124). -/
theorem arbitrate_of_hold (seeking : s.mcp.state = .seeking) (gap : frameOf s.mcp.track s = none)
    (source : demandSource s = some src) :
    (arbitrate s).dsq.grant = some (fetchGrant .demandFetch s.mcp.track s.geom.sectors) ∧
      ChangesOnly [.dsq, .jbq] (claim src s.mcp.track s) (arbitrate s) ∧
      (arbitrate s).jbq = { (retire src s).jbq with fetch := some ⟨zeroTallies (List.range s.geom.sectors), false⟩ } :=
  arbitrate_fetches idle running batch (candidate_of_hold seeking gap source)

/-- The prefetch is granted (R25, order 5; R126). -/
theorem arbitrate_of_prefetch (demand : demandCandidate s = none)
    (late : ∀ x ∈ s.jbq.jobs, Eligible s x → jobOrder s x = 6) (wanted : PrefetchFor s tr) :
    (arbitrate s).dsq.grant = some (fetchGrant .prefetch tr s.geom.sectors) ∧
      (arbitrate s).jbq = { s.jbq with fetch := some ⟨zeroTallies (List.range s.geom.sectors), false⟩ } ∧
      SlotTaken tr s (arbitrate s) := by
  obtain ⟨src, source, is⟩ := prefetchCandidate_of_for wanted
  have first : candidate s = some (.fetch .prefetch tr src) := by
    rw [candidate_of_late_jobs demand late, is]
    rfl
  obtain ⟨grant, only, jbq⟩ := arbitrate_fetches idle running batch first
  have same : (retire src s).jbq = s.jbq := (claim_plain_changes source tr).jbq (by decide)
  refine ⟨grant, by rw [jbq, same], ?_⟩
  exact (claim_slotTaken source tr).congr (only.tks (by decide)) (only.rct (by decide)) (only.evq (by decide))

/-- The eligible job of the lowest order, the earliest in the queue, is granted a pass (R25, R95, R103, R125). -/
theorem arbitrate_of_job {pre post : List Job} (demand : demandCandidate s = none)
    (jobs : s.jbq.jobs = pre ++ j :: post) (eligible : Eligible s j) (apart : ∀ x ∈ pre ++ post, x.track ≠ j.track)
    (lowest : ∀ x ∈ s.jbq.jobs, Eligible s x → jobOrder s j ≤ jobOrder s x)
    (earliest : ∀ x ∈ pre, Eligible s x → jobOrder s x ≠ jobOrder s j)
    (late : jobOrder s j = 6 → ∀ tr, ¬ PrefetchFor s tr) :
    (arbitrate s).dsq.grant = some (jobGrant s.jbq j) ∧
      (arbitrate s).jbq = { s.jbq with jobs := pre ++ j.activated :: post } ∧
      (j.holdsFrame = true → ChangesOnly [.dsq, .jbq] s (arbitrate s)) ∧
      (j.holdsFrame = false → SlotTaken j.track s (arbitrate s)) := by
  cases holds : j.holdsFrame with
  | true =>
    have first := candidate_of_job demand jobs (jobCandidate_of_holds eligible.1 holds) lowest earliest late
    obtain ⟨grant, jbq, only, -⟩ := arbitrate_passes idle running batch first nofun jobs apart
    exact ⟨grant, jbq, fun _ => only rfl, nofun⟩
  | false =>
    obtain ⟨src, source, is⟩ := jobCandidate_of_claim eligible holds
    have first := candidate_of_job demand jobs is lowest earliest late
    have plain : ∀ x, some src = some x → plainSource s = some x := fun x k => source.trans k
    obtain ⟨grant, jbq, -, slot⟩ := arbitrate_passes idle running batch first plain jobs apart
    exact ⟨grant, jbq, nofun, fun _ => slot rfl⟩

end

end Sys2Proof.Machine

open Sys2Proof Sys2Proof.Machine

/-- Settles O47: the first candidate is told from the orders of R25 and the sources of R124, and the grant takes what
its claim and its job or fetch say. -/
theorem arbitrationTakesTheFirstCandidate : Obligations.ArbitrationTakesTheFirstCandidate := by
  refine ⟨fun s => arbitrate_eq_self, ?_⟩
  rintro s _ idle running batch rfl
  refine ⟨fun seeking gap source => ⟨?_, fun room => ?_, fun pre f post k full frames here first lower apart => ?_⟩,
    fun unheld => ?_⟩
  · obtain ⟨src, source⟩ := demandSource_isSome source
    obtain ⟨grant, -, jbq⟩ := arbitrate_of_hold idle running batch seeking gap source
    exact ⟨_, _, grant, rfl, rfl, rfl, rfl, rfl, rfl, rfl, rfl, rfl, congrArg Jbq.fetch jbq, rfl, zeroTallies_zero⟩
  · obtain ⟨-, only, jbq⟩ := arbitrate_of_hold idle running batch seeking gap (demandSource_of_room room)
    have jobs : (arbitrate s).jbq.jobs = s.jbq.jobs := by rw [jbq]; rfl
    obtain ⟨claimed, tks⟩ := claim_of_room s.mcp.track s
    exact ⟨(claimed.mono (by decide)).andThen only (by decide), jobs, (only.tks (by decide)).trans tks⟩
  · have source := demandSource_of_offered full frames here first lower
    obtain ⟨-, only, jbq⟩ := arbitrate_of_hold idle running batch seeking gap source
    obtain ⟨tks, early, late⟩ := demand_claim frames here apart s.mcp.track
    have left : (arbitrate s).jbq.jobs = (retire (sourceOf k f.track) s).jbq.jobs := by rw [jbq]
    have rct := only.rct (by decide)
    have evq := only.evq (by decide)
    refine ⟨(only.tks (by decide)).trans tks, fun k => ?_, fun j k job fill => ?_⟩
    · obtain ⟨same, retired⟩ := early k
      exact ⟨left.trans (congrArg Jbq.jobs same), retired.congr rfl rfl rfl rct evq⟩
    · obtain ⟨jobs, w, ended, retired, cps⟩ := late j k job fill
      exact ⟨left.trans jobs, w, ended, retired.congr rfl rfl rfl rct evq,
        (only.cps (by decide)).trans cps⟩
  · have demand := demandCandidate_of_no_hold unheld
    refine ⟨fun pre j post jobs eligible apart lowest earliest late => ?_, fun tr late wanted => ?_,
      fun jobs prefetch => arbitrate_of_no_candidate (candidate_of_none demand jobs prefetch)⟩
    · obtain ⟨grant, jbq, held, claimed⟩ :=
        arbitrate_of_job idle running batch demand jobs eligible apart lowest earliest late
      refine ⟨⟨_, grant, rfl, rfl, rfl, rfl, rfl, rfl, rfl, rfl, fun zero => ?_, fun r above record => ?_⟩, jbq, held,
        claimed⟩
      · simp only [jobGrant, zero, ladderStep_zero, and_self]
      · simp only [jobGrant, ladderStep_of_record above record, and_self]
    · obtain ⟨grant, jbq, slot⟩ := arbitrate_of_prefetch idle running batch demand late wanted
      exact ⟨⟨_, _, grant, rfl, rfl, rfl, rfl, rfl, rfl, rfl, rfl, rfl, jbq, rfl, zeroTallies_zero⟩, slot⟩

end


section
/-! PROOF. What each operation may do to the Capture Store: all but a sealed copy, SET_VOTE and a power-on add no copy and
leave the copy limit (R61 to R67). -/

namespace Sys2Proof.Machine

variable {s t u : State} {bs : List Block} {g : Grant} {tr : Track}

/-! ### The relation -/

/-- The lists of the store as the bound reads them: each sector's copies, without the fresh mark. -/
def heldCopies (c : Cps) : List (SectorAddr × List SealedCopy) :=
  c.lists.map fun l => (l.addr, l.copies)

/-- From `s` to `t` no copy is added: the lists of `t` are some of those of `s`, and the copy limit stands. -/
structure Thins (s t : State) : Prop where
  limit : t.vte.copyLimit = s.vte.copyLimit
  copies : (heldCopies t.cps).Sublist (heldCopies s.cps)

theorem Thins.refl (s : State) : Thins s s :=
  ⟨rfl, .refl _⟩

theorem Thins.trans (h : Thins s t) (k : Thins t u) : Thins s u :=
  ⟨k.limit.trans h.limit, k.copies.trans h.copies⟩

theorem Thins.ite {p : Prop} [Decidable p] (h : Thins s t) (k : Thins s u) : Thins s (if p then t else u) := by
  split <;> assumption

theorem Thins.of_same (limit : t.vte.copyLimit = s.vte.copyLimit) (cps : t.cps = s.cps) : Thins s t :=
  ⟨limit, by rw [cps]⟩

/-- An operation that reaches neither the store nor the Vote Engine adds no copy. -/
theorem ChangesOnly.thins (h : ChangesOnly bs s t) (cps : .cps ∉ bs := by decide) (vte : .vte ∉ bs := by decide) :
    Thins s t :=
  .of_same (by rw [h.vte vte]) (h.cps cps)

theorem heldCopies_filter (p : CopyList → Bool) (c : Cps) :
    (heldCopies ⟨c.lists.filter p⟩).Sublist (heldCopies c) :=
  List.filter_sublist.map _

/-- A store without some of its lists. -/
theorem filter_thins (p : CopyList → Bool) (limit : t.vte.copyLimit = s.vte.copyLimit)
    (cps : t.cps = ⟨s.cps.lists.filter p⟩) : Thins s t :=
  ⟨limit, by rw [cps]; exact heldCopies_filter p _⟩

/-- A store with a fresh mark cleared. -/
theorem clearFresh_thins {a : SectorAddr} (limit : t.vte.copyLimit = s.vte.copyLimit) (cps : t.cps = clearFresh a s.cps) :
    Thins s t := by
  have same : heldCopies (clearFresh a s.cps) = heldCopies s.cps := by
    simp only [heldCopies, clearFresh, setCopies, List.map_map]
    refine List.map_congr_left fun l _ => ?_
    by_cases here : l.addr = a <;> simp [here]
  exact ⟨limit, by rw [cps, same]⟩

/-- The bound passes from a state to one without some of its copies. -/
theorem CopiesBounded.thins (h : CopiesBounded s) (k : Thins s t) : CopiesBounded t := by
  obtain ⟨least, slots, nodup, each⟩ := h
  have addrs (c : Cps) : c.lists.map CopyList.addr = (heldCopies c).map Prod.fst := by simp [heldCopies]
  have sizes (c : Cps) : slotsInUse c = ((heldCopies c).map fun x => x.2.length).sum := by
    simp [slotsInUse, heldCopies, Function.comp_def]
  refine ⟨k.limit ▸ least, ?_, ?_, fun l mem => ?_⟩
  · rw [sizes] at slots ⊢
    exact (k.copies.map _).sum_le_sum (fun _ _ => Nat.zero_le _) |>.trans slots
  · rw [addrs] at nodup ⊢
    exact nodup.sublist (k.copies.map _)
  · obtain ⟨l', mem', same⟩ := List.mem_map.mp (k.copies.subset (List.mem_map_of_mem mem))
    have copies : l'.copies = l.copies := congrArg Prod.snd same
    rw [k.limit, ← copies]
    exact each l' mem'

/-! ### The ends of jobs and fetches (R66, R96 to R98, R108) -/

theorem endJob_thins (k : JobEnd) (p q : Bool) (j : Job) : Thins s (endJob k p q j s) :=
  filter_thins _ (by rw [(endJob_changes k p q j).vte]) (endJob_parts k p q j s).2.1

theorem endWalk_thins (j : Job) : Thins s (endWalk j s) :=
  .ite (updJob_changes _ _).thins (endJob_thins _ _ _ _)

theorem endRecovered_thins (j : Job) : Thins s (endRecovered j s) :=
  (Thins.ite (offer_changes _ _ _).thins (.refl _)).trans (endJob_thins _ _ _ _)

theorem advanceJob_thins (tr : Track) (s : State) : Thins s (advanceJob tr s) := by
  rcases advanceJob_cases tr s with ⟨e, -⟩ | ⟨j, -, e | ⟨j', -, -, -, e | ⟨-, e⟩⟩⟩ <;> rw [e]
  · exact .refl s
  · exact endRecovered_thins j
  · exact (updJob_changes _ _).thins.trans (endWalk_thins j')
  · exact (updJob_changes _ _).thins

theorem finishJobPass_thins (tr : Track) (s : State) : Thins s (finishJobPass tr s) := by
  rcases finishJobPass_cases tr s with ⟨e, -⟩ | ⟨u, recorded, e⟩ <;> rw [e]
  · exact .refl s
  · exact recorded.thins.trans (advanceJob_thins tr u)

/-- A fetch that makes a job leaves the copies to it (R96). -/
theorem createFetchedJob_beyond_copies (k : GrantKind) (tr : Track) (os : List Nat) (s : State) :
    ChangesOnly [.jbq, .rct, .evq] s (createFetchedJob k tr os s) := by
  have joined : ChangesOnly [.jbq, .rct, .evq] s (addJob (fetchedJob k tr os (fetchTallies s)) s) :=
    (updJbq_changes _).mono (by decide)
  unfold createFetchedJob
  dsimp only
  split
  · exact joined.andThen (updEntry_changes _ _) (by decide)
  · exact joined.andThen (createEntry_changes _ _ _ _ _ _) (by decide)

theorem serveFill_thins (k : GrantKind) (tr : Track) (os : List Nat) (s : State) : Thins s (serveFill k tr os s) := by
  obtain ⟨u, recorded, e⟩ := serveFill_eq k tr os s
  rw [e]
  exact ((updJob_changes _ _).thins.trans recorded.thins).trans (finishJobPass_thins tr u)

theorem freeTrack_thins (tr : Track) (s : State) : Thins s (s.updCps (freeTrack tr)) :=
  filter_thins _ rfl rfl

theorem failFetch_thins (k : GrantKind) (tr : Track) (os : List Nat) (s : State) : Thins s (failFetch k tr os s) := by
  have failed : Thins s (updFrame tr (failSectors os) s) := (updFrame_changes _ _).thins
  unfold failFetch
  dsimp only
  refine .trans (.trans ?_ (offer_changes _ _ _).thins) (freeTrack_thins _ _)
  split
  · exact failed.trans (updEntry_changes _ _).thins
  · exact failed.trans (createEntry_changes _ _ _ _ _ _).thins

theorem endFetch_thins (k : GrantKind) (tr : Track) (s : State) : Thins s (endFetch k tr s) := by
  have created (v : State) (os : List Nat) : Thins v (createFetchedJob k tr os v) :=
    (createFetchedJob_beyond_copies k tr os v).thins
  unfold endFetch
  refine .trans ?_ (updJbq_changes _).thins
  refine .ite (serveFill_thins _ _ _ _) (.ite (freeTrack_thins _ _) (.ite (created _ _) ?_))
  split
  · exact (endJob_thins _ _ _ _).trans (created _ _)
  · exact failFetch_thins _ _ _ _

/-! ### Votes and claims (R65, R80, R114) -/

theorem deliverMember_thins (b : Batch) (m : Member) (s : State) : Thins s (deliverMember b s m) := by
  have limit : (deliverMember b s m).vte.copyLimit = s.vte.copyLimit := by rw [(deliverMember_changes b m).vte]
  have copies := (deliverMember_parts b m s).2.1
  rw [copiesDelivered] at copies
  cases outcome : voteOutcome b.minMargin m.copies with
  | voted w n => exact filter_thins _ limit (by rw [copies, outcome]; rfl)
  | weak => exact clearFresh_thins limit (by rw [copies, outcome]; rfl)
  | failedCheck => exact clearFresh_thins limit (by rw [copies, outcome]; rfl)

theorem deliverBatch_thins (b : Batch) (s : State) : Thins s (deliverBatch b s) := by
  unfold deliverBatch
  generalize b.members = ms
  induction ms generalizing s with
  | nil => exact .refl s
  | cons m ms ih =>
    rw [List.foldl_cons]
    exact (deliverMember_thins b m s).trans (ih (deliverMember b s m))

theorem retire_thins (src : ClaimFrom) (s : State) : Thins s (retire src s) := by
  have left (tr : Track) (f : Frame) (v : State) : Thins v (releaseFrame tr (dropImage f v)) :=
    (dropImage_changes f).thins.trans (releaseFrame_changes tr).thins
  have evicted (tr : Track) : Thins s (jobEvicted tr s) := by
    unfold jobEvicted
    split
    · exact endJob_thins _ _ _ _
    · exact .refl s
  cases src with
  | free => exact .refl s
  | take tr =>
    unfold retire
    dsimp only
    split
    · exact left _ _ _
    · exact .refl s
  | evict tr =>
    rw [retire_evict]
    split
    · exact (evicted tr).trans (left _ _ _)
    · exact evicted tr

theorem prepareGrant_thins (c : Candidate) (s : State) : Thins s (prepareGrant c s) := by
  have claimed (src : ClaimFrom) (tr : Track) : Thins s (claim src tr s) :=
    (retire_thins src s).trans (updTks_changes _).thins
  unfold prepareGrant
  split
  · exact (claimed _ _).trans (updJbq_changes _).thins
  · dsimp only
    split
    · exact (claimed _ _).trans (updJob_changes _ _).thins
    · exact (updJob_changes _ _).thins

/-! ### The Drive Sequencer (R25 to R38) -/

theorem endUnpassed_thins (g : Grant) (s : State) : Thins s (endUnpassed g s) := by
  have free : Thins s (setGrant none s) := (setGrant_changes none).thins
  exact .ite (free.trans (updJob_changes _ _).thins) (.ite (free.trans (endFetch_thins _ _ _))
    ((free.trans (releaseFrame_changes _).thins).trans (updJbq_changes _).thins))

theorem abortPass_thins (g : Grant) (s : State) : Thins s (abortPass g s) := by
  have free : Thins s (setGrant none (endPassContext s)) := (updRdc_changes _).thins.trans (setGrant_changes none).thins
  exact .ite (free.trans (updJob_changes _ _).thins) (free.trans (endFetch_thins _ _ _))

theorem abandonWork_thins (s : State) : Thins s (abandonWork s) := by
  unfold abandonWork
  refine .trans ?_ clearOperation_changes.thins
  split
  · split
    · exact endUnpassed_thins _ _
    · exact abortPass_thins _ _
    · exact .refl s
  · exact .refl s

theorem completeBatch_thins (b : Batch) (s : State) : Thins s (completeBatch b s) := by
  have ended (v : State) : Thins v (v.updVte fun x => { x with batch := none }) := .of_same rfl rfl
  have freed := (((deliverBatch_thins b s).trans (ended _)).trans (finishJobPass_thins b.track _)).trans
    (setGrant_changes none).thins
  exact .ite (freed.trans enterIdle_changes.thins) freed

theorem countPass_thins (g : Grant) (s : State) : Thins s (countPass g s) := by
  by_cases kind : g.kind = .jobPass
  · have counted : countPass g s = if (formBatch g (passTallied g (endPassContext s))).members.isEmpty
        then completeBatch (formBatch g (passTallied g (endPassContext s))) (jobPassEnded g (endPassContext s))
        else jobPassEnded g (endPassContext s) := if_pos kind
    have ended : Thins s (jobPassEnded g (endPassContext s)) := .of_same rfl rfl
    rw [counted]
    exact .ite (ended.trans (completeBatch_thins _ _)) ended
  · rw [countPass_fetch kind]
    exact (((updRdc_changes _).thins.trans (setGrant_changes none).thins).trans (endFetch_thins _ _ _)).trans
      enterIdle_changes.thins

theorem endSettle_thins (s : State) : Thins s (endSettle s) := by
  have ended : Thins s (clearOperation s) := clearOperation_changes.thins
  unfold endSettle
  split
  · exact .ite ((ended.trans (endUnpassed_thins _ _)).trans enterIdle_changes.thins)
      (ended.trans (setDsqState_changes _).thins)
  · exact ended.trans enterIdle_changes.thins

theorem beginSettle_thins (g : Grant) (s : State) : Thins s (beginSettle g s) :=
  .ite ((updDsq_changes _).thins.trans (endSettle_thins _)) (updDsq_changes _).thins

theorem takeUpGrant_thins (g : Grant) (s : State) : Thins s (takeUpGrant g s) := by
  unfold takeUpGrant
  split
  · exact beginRecalibrate_changes.thins
  · exact .ite (updDsq_changes _).thins (.ite (beginSettle_thins _ _)
      (clearOperation_changes.thins.trans (setDsqState_changes _).thins))

theorem arbitrate_thins (s : State) : Thins s (arbitrate s) := by
  rcases arbitrate_cases s with e | ⟨c, -, -, -, -, e⟩ <;> rw [e]
  · exact .refl s
  · exact ((prepareGrant_thins c s).trans (setGrant_changes _).thins).trans (takeUpGrant_thins _ _)

theorem raiseFence_thins (cause : FenceCause) (before s : State) : Thins s (raiseFence cause before s) := by
  cases fence : s.dsq.fence with
  | some x => rw [raiseFence_of_fenced (by rw [fence]; rfl)]; exact .refl s
  | none =>
    rw [raiseFence_of_free fence]
    exact ((abandonWork_thins s).trans (updDsq_changes _).thins).trans (offerLatching_changes _ _ _).thins

theorem seekFault_thins (s : State) : Thins s (seekFault s) := by
  by_cases reached : s.dsq.set.fenceLimit ≤ s.dsq.faults + 1
  · rw [seekFault_of_limit reached]
    exact (updDsq_changes _).thins.trans (raiseFence_thins _ _ _)
  · rw [seekFault_of_below (Nat.lt_of_not_le reached)]
    exact (faultRetried_changes s).thins

theorem followSpindle_thins (old : Spindle) (s : State) : Thins s (followSpindle old s) := by
  by_cases same : old = spindleOf s.ixm
  · rw [same, followSpindle_same rfl]
    exact .refl s
  rcases spindle_cases s.ixm with down | unstable | running
  · rw [followSpindle_of_down (Ne.symm same) down]
    rcases followDown_cases s with ⟨-, e⟩ | ⟨-, e⟩ | ⟨-, e⟩ | ⟨-, e⟩ <;> rw [e]
    · exact (setDsqState_changes _).thins
    · exact ((abandonWork_thins s).trans (updDsq_changes _).thins).trans (setDsqState_changes _).thins
    · exact (abandonWork_thins s).trans (setDsqState_changes _).thins
    · exact .refl s
  · rw [followSpindle_unstable (Ne.symm same) unstable]
    by_cases reading : s.dsq.state = .reading
    · rw [followUnstable_of_reading reading]
      exact (abandonWork_thins s).trans (setDsqState_changes _).thins
    · rw [followUnstable_of_not_reading reading]
      exact .refl s
  · rw [followSpindle_of_running (Ne.symm same) running]
    rcases followRunning_cases s with e | ⟨-, e⟩ <;> rw [e]
    · exact .refl s
    · exact beginRecalibrate_changes.thins

theorem takeMark_thins (r : Timer) (s : State) : Thins s (takeMark r s) := by
  rcases takeMark_cases r s with e | ⟨g, -, -, ⟨-, e⟩ | ⟨-, e⟩⟩ <;> rw [e]
  · exact .refl s
  · exact countPass_thins g s
  · exact .of_same rfl rfl

theorem takeLateExpiry_thins (s : State) : Thins s (takeLateExpiry s) := by
  rcases takeLateExpiry_cases s with e | ⟨g, -, -, -, e⟩ <;> rw [e]
  · exact .refl s
  · exact countPass_thins g s

theorem completeSeek_thins (s : State) : Thins s (completeSeek s) := by
  have arrived := (seekArrived_changes s).thins
  cases grant : s.dsq.grant with
  | none => rw [completeSeek_of_free grant]; exact arrived.trans enterIdle_changes.thins
  | some g =>
    by_cases unstable : spindleOf s.ixm = .unstable
    · rw [completeSeek_of_unstable grant unstable]
      exact (arrived.trans (endUnpassed_thins g _)).trans enterIdle_changes.thins
    · rw [completeSeek_of_steady grant unstable]
      exact arrived.trans (beginSettle_thins g _)

theorem resumeGrant_thins (g : Grant) (s : State) : Thins s (resumeGrant g s) := by
  have ended : Thins s (enterIdle (endUnpassed g s)) := (endUnpassed_thins g s).trans enterIdle_changes.thins
  unfold resumeGrant
  split
  · exact countPass_thins g s
  · exact ended
  · exact .ite ended (takeUpGrant_thins g s)

theorem completeRecalibrate_thins (s : State) : Thins s (completeRecalibrate s) := by
  have arrived := (recalibrateArrived_changes s).thins
  cases grant : s.dsq.grant with
  | none => rw [completeRecalibrate_of_free grant]; exact arrived.trans enterIdle_changes.thins
  | some g =>
    by_cases phase : g.phase = .approach
    · rw [completeRecalibrate_of_approach grant phase]; exact arrived.trans (resumeGrant_thins g _)
    · rw [completeRecalibrate_of_past grant phase]; exact arrived.trans enterIdle_changes.thins

/-! ### The ends of events, and answers -/

theorem afterJobs_thins (s : State) : Thins s (afterJobs s) :=
  testHold_changes.thins.trans (arbitrate_thins _)

theorem afterEvent_thins (s : State) : Thins s (afterEvent s) :=
  followReady_changes.thins.trans (afterJobs_thins _)

theorem fence_after_thins (cause : FenceCause) (before s : State) : Thins s (afterEvent (raiseFence cause before s)) :=
  (raiseFence_thins cause before s).trans (afterEvent_thins _)

theorem seekFault_after_thins (s : State) : Thins s (afterEvent (seekFault s)) :=
  (seekFault_thins s).trans (afterEvent_thins _)

theorem watchSelect_thins (s : State) : Thins s (watchSelect s) :=
  .ite (fence_after_thins _ _ _) (.refl s)

theorem answer_thins (r : ResultCode) (code : Byte) (p : List Byte) (s : State) : Thins s (answer r code p s) :=
  (answer_changes r code p).thins

theorem refuse_thins (r : ResultCode) (code : Byte) (s : State) : Thins s (refuse r code s) :=
  answer_thins _ _ _ _

theorem takeRequest_thins {code : Byte} {act : List Byte → State → State} (h : ∀ p, Thins s (act p s)) :
    Thins s (takeRequest code act s) :=
  takeRequest_keeps (P := Thins s) (.refl s) (refuse_thins _ _ _) h

end Sys2Proof.Machine
end


section
/-! PROOF. The copies of a sector: the lightest of them, a copy placed, and lists trimmed (R61 to R64, R67). -/

namespace Sys2Proof.Machine

variable {s : State} {a : SectorAddr} {cs pre post : List SealedCopy} {c x : SealedCopy} {limit : Nat} {k : Cps}

/-! ### The lightest copy, the earliest of equals (R64, R67) -/

/-- The copy between `pre` and `post` is the lightest of all, the earliest of equals. -/
structure Lightest (pre : List SealedCopy) (x : SealedCopy) (post : List SealedCopy) : Prop where
  before : ∀ y ∈ pre, x.weight < y.weight
  after : ∀ y ∈ post, x.weight ≤ y.weight

theorem exists_lightest (h : cs ≠ []) : ∃ pre x post, cs = pre ++ x :: post ∧ Lightest pre x post := by
  induction cs with
  | nil => exact absurd rfl h
  | cons c cs ih =>
    by_cases last : cs = []
    · subst last
      exact ⟨[], c, [], rfl, nofun, nofun⟩
    · obtain ⟨pre, x, post, rfl, least⟩ := ih last
      by_cases lighter : c.weight ≤ x.weight
      · refine ⟨[], c, _, rfl, nofun, fun y mem => ?_⟩
        rcases List.mem_append.mp mem with early | late
        · exact lighter.trans (least.before y early).le
        · rcases List.mem_cons.mp late with rfl | late
          · exact lighter
          · exact lighter.trans (least.after y late)
      · refine ⟨c :: pre, x, post, rfl, fun y mem => ?_, least.after⟩
        rcases List.mem_cons.mp mem with rfl | early
        · exact Nat.lt_of_not_le lighter
        · exact least.before y early

theorem Lightest.min (h : Lightest pre x post) : ((pre ++ x :: post).map SealedCopy.weight).min? = some x.weight := by
  rw [List.min?_eq_some_iff]
  refine ⟨List.mem_map_of_mem (List.mem_append_right _ List.mem_cons_self), fun w mem => ?_⟩
  obtain ⟨y, there, rfl⟩ := List.mem_map.mp mem
  rcases List.mem_append.mp there with early | late
  · exact (h.before y early).le
  · rcases List.mem_cons.mp late with rfl | late
    · exact Nat.le_refl _
    · exact h.after y late

theorem Lightest.dropLightest (h : Lightest pre x post) : dropLightest (pre ++ x :: post) = pre ++ post := by
  unfold Machine.dropLightest
  rw [h.min]
  dsimp only
  rw [List.eraseP_append_right _ fun y early => by simpa using (h.before y early).ne', List.eraseP_cons_of_pos (by simp)]

theorem Lightest.heavier_iff (h : Lightest pre x post) (c : SealedCopy) :
    heavierThanLightest c (pre ++ x :: post) = true ↔ x.weight < c.weight := by
  unfold heavierThanLightest
  rw [h.min]
  exact decide_eq_true_iff

theorem length_dropLightest (cs : List SealedCopy) : (dropLightest cs).length = cs.length - 1 := by
  by_cases empty : cs = []
  · subst empty; rfl
  · obtain ⟨pre, x, post, rfl, least⟩ := exists_lightest empty
    rw [least.dropLightest]
    simp only [List.length_append, List.length_cons]
    omega

theorem length_trimBy (n : Nat) (cs : List SealedCopy) : (trimBy n cs).length = cs.length - n := by
  induction n generalizing cs with
  | zero => rfl
  | succ n ih =>
    rw [trimBy, ih, length_dropLightest]
    omega

/-! ### How a copy is placed (R63, R64) -/

theorem placingOf_of_room (below : (copiesOf c.addr k).length < limit) (room : slotsInUse k < 96) :
    placingOf limit c k = .stored := by
  rw [placingOf, if_pos below, if_pos (show slotsInUse k < Config.captureSlots from room)]

theorem placingOf_of_no_slot (below : (copiesOf c.addr k).length < limit) (full : 96 ≤ slotsInUse k) :
    placingOf limit c k = .noSlot := by
  rw [placingOf, if_pos below, if_neg (Nat.not_lt_of_le (show Config.captureSlots ≤ slotsInUse k from full))]

theorem placingOf_of_heavier (reached : limit ≤ (copiesOf c.addr k).length)
    (heavier : heavierThanLightest c (copiesOf c.addr k) = true) : placingOf limit c k = .replaced := by
  rw [placingOf, if_neg (Nat.not_lt_of_le reached), if_pos heavier]

theorem placingOf_of_lighter (reached : limit ≤ (copiesOf c.addr k).length)
    (lighter : heavierThanLightest c (copiesOf c.addr k) ≠ true) : placingOf limit c k = .tooLight := by
  rw [placingOf, if_neg (Nat.not_lt_of_le reached), if_neg lighter]

/-- All that can become of a copy offered. -/
theorem placeCopy_cases (limit : Nat) (c : SealedCopy) (k : Cps) :
    placeCopy limit c k = k ∨
    (copiesOf c.addr k).length < limit ∧ slotsInUse k < 96 ∧ placeCopy limit c k = appendCopy c k ∨
    limit ≤ (copiesOf c.addr k).length ∧ placeCopy limit c k = replaceLightest c k := by
  unfold placeCopy
  rcases Nat.lt_or_ge (copiesOf c.addr k).length limit with below | reached
  · rcases Nat.lt_or_ge (slotsInUse k) 96 with room | full
    · rw [placingOf_of_room below room]; exact .inr (.inl ⟨below, room, rfl⟩)
    · rw [placingOf_of_no_slot below full]; exact .inl rfl
  · by_cases heavier : heavierThanLightest c (copiesOf c.addr k) = true
    · rw [placingOf_of_heavier reached heavier]; exact .inr (.inr ⟨reached, rfl⟩)
    · rw [placingOf_of_lighter reached heavier]; exact .inl rfl

/-! ### The slots in use (R61) -/

theorem copiesOf_of_list {l : CopyList} (list : copyListOf a k = some l) : copiesOf a k = l.copies := by
  simp [copiesOf, list]

theorem copiesOf_of_no_list (list : copyListOf a k = none) : copiesOf a k = [] := by
  simp [copiesOf, list]

/-- Where each sector has one list, a change of a sector's list changes the slots in use by what it changes that list. -/
theorem slotsInUse_setCopies {l : CopyList} (nodup : (k.lists.map CopyList.addr).Nodup) (list : copyListOf a k = some l)
    (f : CopyList → CopyList) : slotsInUse (setCopies a f k) + l.copies.length = slotsInUse k + (f l).copies.length := by
  obtain ⟨ls⟩ := k
  simp only [slotsInUse, setCopies, copyListOf] at *
  induction ls with
  | nil => cases list
  | cons y ls ih =>
    obtain ⟨fresh, nodup⟩ := List.nodup_cons.mp nodup
    by_cases here : y.addr = a
    · have found : y = l := by simpa [here] using list
      have others : ls.map (fun l => if l.addr = a then f l else l) = ls := by
        refine (List.map_congr_left fun z mem => if_neg fun same => ?_).trans (List.map_id _)
        exact fresh (here.trans same.symm ▸ List.mem_map_of_mem mem)
      subst found
      simp only [List.map_cons, if_pos here, others, List.sum_cons]
      omega
    · have later := ih nodup (by simpa [here] using list)
      simp only [List.map_cons, if_neg here, List.sum_cons]
      omega

/-- The store within its slots and a copy limit (R61). -/
structure StoreBounded (limit : Nat) (k : Cps) : Prop where
  slots : slotsInUse k ≤ 96
  nodup : (k.lists.map CopyList.addr).Nodup
  each : ∀ l ∈ k.lists, 1 ≤ l.copies.length ∧ l.copies.length ≤ limit

theorem copiesBounded_iff (s : State) : CopiesBounded s ↔ 3 ≤ s.vte.copyLimit ∧ StoreBounded s.vte.copyLimit s.cps :=
  ⟨fun ⟨least, slots, nodup, each⟩ => ⟨least, slots, nodup, each⟩,
    fun ⟨least, slots, nodup, each⟩ => ⟨least, slots, nodup, each⟩⟩

/-- A sector's list changed to another within the limit. -/
theorem StoreBounded.setCopies {l : CopyList} (h : StoreBounded limit k) (list : copyListOf a k = some l)
    {f : CopyList → CopyList} (addr : ∀ l, (f l).addr = l.addr)
    (slots : slotsInUse k + (f l).copies.length ≤ 96 + l.copies.length)
    (size : 1 ≤ (f l).copies.length ∧ (f l).copies.length ≤ limit) : StoreBounded limit (setCopies a f k) := by
  have changed := slotsInUse_setCopies h.nodup list f
  refine ⟨by omega, ?_, fun y mem => ?_⟩
  · show ((k.lists.map fun l => if l.addr = a then f l else l).map CopyList.addr).Nodup
    rw [keys_change CopyList.addr _ _ _ addr]
    exact h.nodup
  · obtain ⟨z, there, rfl⟩ := List.mem_map.mp mem
    by_cases here : z.addr = a
    · have found := find_key_of_mem CopyList.addr h.nodup there
      rw [here] at found
      cases found.symm.trans list
      rw [if_pos here]
      exact size
    · rw [if_neg here]
      exact h.each z there

theorem StoreBounded.appendCopy (h : StoreBounded limit k) (least : 1 ≤ limit)
    (below : (copiesOf c.addr k).length < limit) (room : slotsInUse k < 96) : StoreBounded limit (appendCopy c k) := by
  unfold Machine.appendCopy
  cases list : copyListOf c.addr k with
  | some l =>
    rw [copiesOf_of_list list] at below
    simp only [Option.isSome_some, if_true]
    refine h.setCopies list (fun _ => rfl) ?_ ?_
    · simp only [List.length_append, List.length_singleton]; omega
    · simp only [List.length_append, List.length_singleton]; omega
  | none =>
    simp only [Option.isSome_none, Bool.false_eq_true, if_false]
    refine ⟨?_, ?_, fun l mem => ?_⟩
    · have slots : slotsInUse ⟨k.lists ++ [⟨c.addr, [c], true⟩]⟩ = slotsInUse k + 1 := by simp [slotsInUse]
      omega
    · rw [List.map_append, List.nodup_append]
      refine ⟨h.nodup, List.nodup_singleton _, ?_⟩
      rintro _ mem _ (_ | ⟨_, ⟨⟩⟩) rfl
      obtain ⟨l, there, same⟩ := List.mem_map.mp mem
      exact absurd (beq_iff_eq.mpr same) (List.find?_eq_none.mp list l there)
    · rcases List.mem_append.mp mem with old | new
      · exact h.each l old
      · rw [List.mem_singleton.mp new]
        exact ⟨Nat.le_refl 1, least⟩

theorem StoreBounded.replaceLightest (h : StoreBounded limit k) (least : 1 ≤ limit)
    (reached : limit ≤ (copiesOf c.addr k).length) : StoreBounded limit (replaceLightest c k) := by
  cases list : copyListOf c.addr k with
  | none => rw [copiesOf_of_no_list list, List.length_nil] at reached; omega
  | some l =>
    obtain ⟨held, most⟩ := h.each l (List.mem_of_find?_eq_some list)
    have slots := h.slots
    have same : (dropLightest l.copies ++ [c]).length = l.copies.length := by
      rw [List.length_append, length_dropLightest, List.length_singleton]; omega
    exact h.setCopies list (fun _ => rfl) (by simp only [same]; omega) (by simp only [same]; omega)

theorem StoreBounded.placeCopy (h : StoreBounded limit k) (least : 1 ≤ limit) (c : SealedCopy) :
    StoreBounded limit (placeCopy limit c k) := by
  rcases placeCopy_cases limit c k with e | ⟨below, room, e⟩ | ⟨reached, e⟩ <;> rw [e]
  · exact h
  · exact h.appendCopy least below room
  · exact h.replaceLightest least reached

/-- Lists trimmed to a limit stand within it (R67). -/
theorem StoreBounded.trimLists (h : StoreBounded limit k) {n : Nat} (least : 1 ≤ n) : StoreBounded n (trimLists n k) := by
  have trimmed (l : CopyList) : (trimBy (l.copies.length - n) l.copies).length = min n l.copies.length := by
    rw [length_trimBy]; omega
  refine ⟨?_, ?_, fun l mem => ?_⟩
  · refine le_trans ?_ h.slots
    simp only [slotsInUse, Machine.trimLists, List.map_map]
    refine List.sum_le_sum fun l _ => ?_
    simp only [Function.comp_apply, trimmed]
    exact Nat.min_le_right _ _
  · simp only [Machine.trimLists, List.map_map, Function.comp_def]
    exact h.nodup
  · obtain ⟨y, there, rfl⟩ := List.mem_map.mp mem
    have held := (h.each y there).1
    simp only [trimmed]
    omega

end Sys2Proof.Machine
end


section
/-! PROOF. The Capture Store stays within its slots and the copy limit: every command thins it, but for a copy sealed,
SET_VOTE and a power-on (R61, R63, R64, R67, R69, R87). -/

namespace Sys2Proof.Machine

variable {s t : State} {bs : List Block}

/-! ### Rotation, headers and sealed copies -/

theorem qualifiedIndex_thins (s : State) : Thins s (qualifiedIndex s) := by
  have followed : Thins s (followSpindle (spindleOf s.ixm) (indexMonitored s)) :=
    (indexMonitored_changes s).thins.trans (followSpindle_thins _ _)
  exact .trans (.ite (followed.trans (takeMark_thins _ _)) followed) (afterEvent_thins _)

theorem takeHeader_thins (p : PassContext) (mark : Timer) (h : HeaderRead) (s : State) :
    Thins s (takeHeader p mark h s) :=
  .ite (.refl s) (.ite (.ite (tallyPass_changes _ _ _).thins (.refl s))
    (.ite (seekFault_after_thins s) (.ite (updRdc_changes _).thins (.refl s))))

/-- A check-good copy frees its sector's copies (R65). -/
theorem deliverGood_cps (c : SealedCopy) (s : State) : (deliverGood c s).cps = freeSector c.addr s.cps := by
  unfold deliverGood
  dsimp only
  split <;> split <;> rfl

/-- A check-bad copy is placed under the copy limit (R62 to R64). -/
theorem deliverBad_cps (c : SealedCopy) (s : State) : (deliverBad c s).cps = placeCopy s.vte.copyLimit c s.cps := by
  unfold deliverBad
  dsimp only
  split
  · rfl
  · rfl
  · exact (markStarved_changes _).cps
  · rfl

theorem CopiesBounded.deliverGood (h : CopiesBounded s) (c : SealedCopy) : CopiesBounded (deliverGood c s) :=
  h.thins (filter_thins _ (by rw [(deliverGood_changes c).vte]) (deliverGood_cps c s))

theorem CopiesBounded.deliverBad (h : CopiesBounded s) (c : SealedCopy) : CopiesBounded (deliverBad c s) := by
  obtain ⟨least, store⟩ := (copiesBounded_iff s).mp h
  rw [copiesBounded_iff, (deliverBad_stands c s).vte, deliverBad_cps]
  exact ⟨least, store.placeCopy (by omega) c⟩

theorem CopiesBounded.deliverCopy (h : CopiesBounded s) (c : SealedCopy) : CopiesBounded (deliverCopy c s) := by
  have counted : CopiesBounded (tallyPass c.addr.track c.addr.sector Tally.countCopy
      (s.updRdc fun r => { r with lastDeviation := c.deviation, assembly := none })) :=
    h.thins ((updRdc_changes _).thins.trans (tallyPass_changes _ _ _).thins)
  unfold Machine.deliverCopy
  refine CopiesBounded.thins ?_ testHold_changes.thins
  split
  · exact counted.deliverGood c
  · exact counted.deliverBad c

/-! ### Requests -/

theorem takeQueueTrack_thins (p : List Byte) (s : State) : Thins s (takeQueueTrack p s) := by
  unfold takeQueueTrack
  refine .ite ?_ (refuse_thins _ _ s)
  split
  · exact .ite (answer_thins _ _ _ s) (.ite (refuse_thins _ _ s)
      ((((updJob_changes _ _).thins.trans (updEntry_changes _ _).thins).trans (afterJobs_thins _)).trans
        (answer_thins _ _ _ _)))
  · refine .ite (refuse_thins _ _ s) ?_
    split
    · exact .ite (refuse_thins _ _ s) (.ite ((offer_changes _ _ _).thins.trans (answer_thins _ _ _ _))
        (((createKeptJob_changes _ _ _).thins.trans (afterJobs_thins _)).trans (answer_thins _ _ _ _)))
    · exact ((createFramelessJob_changes _ _).thins.trans (afterJobs_thins _)).trans (answer_thins _ _ _ _)

theorem takeRetryTrack_thins (p : List Byte) (s : State) : Thins s (takeRetryTrack p s) := by
  unfold takeRetryTrack
  refine .ite ?_ (refuse_thins _ _ s)
  split
  · exact .ite (.ite (refuse_thins _ _ s)
      (((createKeptJob_changes _ _ _).thins.trans (afterJobs_thins _)).trans (answer_thins _ _ _ _))) (refuse_thins _ _ s)
  · exact refuse_thins _ _ s
  · exact refuse_thins _ _ s

/-- A batch abandoned leaves the copies (R84). -/
theorem cancelGrant_copies (tr : Track) (s : State) :
    (cancelGrant tr s).cps = s.cps ∧ (cancelGrant tr s).vte.copyLimit = s.vte.copyLimit := by
  refine ⟨(cancelGrant_changes tr).cps, ?_⟩
  by_cases held : ∃ g, s.dsq.grant = some g ∧ g.kind = .jobPass ∧ g.track = tr
  · obtain ⟨g, grant, kind, track⟩ := held
    rw [(cancelGrant_of_held grant kind track).2.2]
    split <;> rfl
  · rw [cancelGrant_of_other fun g grant k => held ⟨g, grant, k⟩]

theorem takeCancelJob_thins (p : List Byte) (s : State) : Thins s (takeCancelJob p s) := by
  have ended (tr : Track) : Thins s (cancelGrant tr s) :=
    .of_same (cancelGrant_copies tr s).2 (cancelGrant_copies tr s).1
  unfold takeCancelJob
  refine .ite ?_ (refuse_thins _ _ s)
  split
  · exact (((ended _).trans (endJob_thins _ _ _ _)).trans (afterJobs_thins _)).trans (answer_thins _ _ _ _)
  · exact refuse_thins _ _ s

theorem takeSetGeometry_thins (p : List Byte) (s : State) : Thins s (takeSetGeometry p s) := by
  have stored : Thins s (storeGeometry (geometryOf p) s) :=
    (((updGeom_changes _).thins.trans (updDsq_changes _).thins).trans portNewGeometry_changes.thins).trans
      (arbitrate_thins _)
  exact .ite (.ite (stored.trans (answer_thins _ _ _ _)) (refuse_thins _ _ s)) (refuse_thins _ _ s)

theorem takeSetRotation_thins (p : List Byte) (s : State) : Thins s (takeSetRotation p s) :=
  .ite ((((updIxm_changes _).thins.trans (followSpindle_thins _ _)).trans (afterEvent_thins _)).trans
    (answer_thins _ _ _ _)) (refuse_thins _ _ s)

theorem takeClearFence_thins (s : State) : Thins s (takeClearFence s) := by
  unfold takeClearFence
  refine .ite (refuse_thins _ _ s) ?_
  split
  · have cleared (c : FenceCause) : Thins s (clearedFence c s) := (clearedFence_changes c).thins
    refine .trans (.ite ?_ (cleared _)) (answer_thins _ _ _ _)
    exact (((cleared _).trans beginRecalibrate_changes.thins).trans (afterEvent_thins _)).trans (watchSelect_thins _)
  · exact answer_thins _ _ _ s

theorem takeRestDrive_thins (p : List Byte) (s : State) : Thins s (takeRestDrive p s) := by
  have rests (n : Nat) : Thins s (begunRest n s) := (abandonWork_thins s).trans (updDsq_changes _).thins
  exact .ite (refuse_thins _ _ s) ((Thins.ite ((rests _).trans beginRecalibrate_changes.thins) (rests _)).trans
    (afterEvent_thins _) |>.trans (answer_thins _ _ _ _))

theorem takeBypassOn_thins (s : State) : Thins s (takeBypassOn s) := by
  have closed : Thins s (bypassOn s) :=
    ((abandonWork_thins s).trans (updDsq_changes _).thins).trans (updMcp_changes _).thins
  exact .trans (.ite (.refl s) closed) (answer_thins _ _ _ _)

theorem takeBypassOff_thins (s : State) : Thins s (takeBypassOff s) := by
  have opened : Thins s (relayOpened s) := (updDsq_changes _).thins
  have drive : Thins s (reattachDrive s) := .ite (opened.trans (setDsqState_changes _).thins)
    (.ite (opened.trans (raiseFence_thins _ _ _)) (.ite (opened.trans (raiseFence_thins _ _ _))
      (opened.trans beginRecalibrate_changes.thins)))
  have port (v : State) : Thins v (reattachPort v) :=
    .ite ((updMcp_changes _).thins.trans beginHold_changes.thins) (updMcp_changes _).thins
  exact .trans (.ite ((drive.trans (port _)).trans (arbitrate_thins _)) (.refl s)) (answer_thins _ _ _ _)

/-! ### Every command -/

/-- The command answers a state with no copy added. -/
def ExecThins (c : Instr) (s : State) : Prop :=
  ∃ t, exec c s = .next t ∧ Thins s t

theorem CompletesWithin.execThins {c : Instr} (h : CompletesWithin bs c s) (cps : .cps ∉ bs := by decide)
    (vte : .vte ∉ bs := by decide) : ExecThins c s :=
  h.imp fun _ k => ⟨k.1, k.2.thins cps vte⟩

/-- The commands that may add a copy or move the copy limit. -/
def fillsStore : Instr → Bool
  | .powerOnReset | .copySeal _ _ _ | .setVote => true
  | _ => false

theorem exec_thins (c : Instr) (s : State) (h : fillsStore c = false) : ExecThins c s := by
  cases c with
  | indexQualified n => exact ⟨_, rfl, .ite (qualifiedIndex_thins s) (.refl s)⟩
  | startupWindowExpiry =>
    exact ⟨_, rfl, .ite (((badEvent_changes _).thins.trans (followSpindle_thins _ _)).trans (afterEvent_thins _)) (.refl s)⟩
  | openWindowExpiry =>
    exact ⟨_, rfl, .ite ((((badEvent_changes _).thins.trans (followSpindle_thins _ _)).trans (takeLateExpiry_thins _)).trans
      (afterEvent_thins _)) (.refl s)⟩
  | resyncLimitExpiry =>
    exact ⟨_, rfl, .ite ((((updIxm_changes _).thins.trans (offer_changes _ _ _).thins).trans
      (followSpindle_thins _ _)).trans (afterEvent_thins _)) (.refl s)⟩
  | seekComplete current =>
    refine ⟨_, rfl, .ite ?_ (.refl s)⟩
    split
    · exact (completeSeek_thins s).trans (afterEvent_thins _)
    · exact (completeRecalibrate_thins s).trans (afterEvent_thins _)
    · exact .refl s
  | seekError =>
    refine ⟨_, rfl, ?_⟩
    split
    · exact seekFault_after_thins s
    · exact seekFault_after_thins s
    · exact seekFault_after_thins s
    · exact .refl s
  | seekTimeoutExpiry => exact ⟨_, rfl, .ite (seekFault_after_thins s) (.refl s)⟩
  | recalibrateTimeoutExpiry => exact ⟨_, rfl, .ite (fence_after_thins _ _ _) (.refl s)⟩
  | settleWaitEnd => exact ⟨_, rfl, .ite ((endSettle_thins s).trans (afterEvent_thins _)) (.refl s)⟩
  | restEnd => exact ⟨_, rfl, .ite (beginRecalibrate_changes.thins.trans (afterEvent_thins _)) (.refl s)⟩
  | driveFaultAsserted line =>
    exact ⟨_, rfl, .ite ((updPins_changes _).thins.trans (fence_after_thins _ _ _)) (updPins_changes _).thins⟩
  | contentionSeen held => exact ⟨_, rfl, (updPins_changes _).thins.trans (watchSelect_thins _)⟩
  | header mark cyl hd sector check outside =>
    refine ⟨_, rfl, ?_⟩
    split
    · exact takeHeader_thins _ _ _ s
    · exact .refl s
  | batchCompletion =>
    refine ⟨_, rfl, ?_⟩
    split
    · exact (completeBatch_thins _ s).trans (afterEvent_thins _)
    · exact .refl s
  | cooldownExpiry cyl hd =>
    refine ⟨_, rfl, ?_⟩
    split
    · exact .ite ((updJob_changes _ _).thins.trans (arbitrate_thins _)) (.refl s)
    · exact .refl s
  | holdExpiry => exact ⟨_, rfl, .ite ((updMcp_changes _).thins.trans (arbitrate_thins _)) (.refl s)⟩
  | seek cyl =>
    have moved (tr : Track) : Thins s (beginHold (setTrack tr s)) :=
      (setTrack_changes _).thins.trans beginHold_changes.thins
    exact ⟨_, rfl, .ite (.ite ((moved _).trans (arbitrate_thins _)) (updMcp_changes _).thins) (.refl s)⟩
  | head hd => exact ⟨_, rfl, .ite ((selectHead_changes _).thins.trans (arbitrate_thins _)) (.refl s)⟩
  | recalibrate =>
    exact ⟨_, rfl, .ite (((setTrack_changes _).thins.trans beginHold_changes.thins).trans (arbitrate_thins _)) (.refl s)⟩
  | markExported =>
    exact ⟨_, rfl, takeRequest_thins fun p => .ite ((((updEntry_changes _ _).thins.trans (updFrame_changes _ _).thins).trans
      (arbitrate_thins _)).trans (answer_thins _ _ _ _)) (refuse_thins _ _ s)⟩
  | queueTrack => exact ⟨_, rfl, takeRequest_thins fun p => takeQueueTrack_thins p s⟩
  | retryTrack => exact ⟨_, rfl, takeRequest_thins fun p => takeRetryTrack_thins p s⟩
  | cancelJob => exact ⟨_, rfl, takeRequest_thins fun p => takeCancelJob_thins p s⟩
  | setGeometry => exact ⟨_, rfl, takeRequest_thins fun p => takeSetGeometry_thins p s⟩
  | setRotation => exact ⟨_, rfl, takeRequest_thins fun p => takeSetRotation_thins p s⟩
  | setDrive =>
    exact ⟨_, rfl, takeRequest_thins fun _ => ((updDsq_changes _).thins.trans (arbitrate_thins _)).trans
      (answer_thins _ _ _ _)⟩
  | setPort =>
    exact ⟨_, rfl, takeRequest_thins fun _ => ((((updEvq_changes _).thins.trans (updMcp_changes _).thins).trans
      (updTks_changes _).thins).trans (arbitrate_thins _)).trans (answer_thins _ _ _ _)⟩
  | clearFence => exact ⟨_, rfl, takeRequest_thins fun _ => takeClearFence_thins s⟩
  | restDrive => exact ⟨_, rfl, takeRequest_thins fun p => takeRestDrive_thins p s⟩
  | bypassOn => exact ⟨_, rfl, takeRequest_thins fun _ => .ite (takeBypassOn_thins s) (.refl s)⟩
  | bypassOff => exact ⟨_, rfl, takeRequest_thins fun _ => .ite (.refl s) (takeBypassOff_thins s)⟩
  | softReset =>
    have emptied : Thins s (resetBlocks s) := ⟨rfl, List.nil_sublist _⟩
    exact ⟨_, rfl, takeRequest_thins fun _ => (emptied.trans (offer_changes _ _ _).thins).trans (answer_thins _ _ _ _)⟩
  | closedWindowExpiry => exact closedWindowExpiry_within.execThins
  | quietExpiry => exact quietExpiry_within.execThins
  | emulatedIndex => exact emulatedIndex_within.execThins
  | sectorPulse => exact sectorPulse_within.execThins
  | read => exact read_within.execThins
  | write => exact write_within.execThins
  | writeDataComplete d => exact (writeDataComplete_within d).execThins
  | faultClear => exact faultClear_within.execThins
  | unitSelect active => exact (unitSelect_within active).execThins
  | transferStart => exact transferStart_within.execThins
  | requestCodeByte code => exact (requestCodeByte_within code).execThins
  | frameComplete l p c => exact (frameComplete_within l p c).execThins
  | selectRise => exact selectRise_within.execThins
  | fetchFirstByte => exact fetchFirstByte_within.execThins
  | responseReleased => exact responseReleased_within.execThins
  | unknownRequest => exact unknownRequest_within.execThins
  | frameError => exact frameError_within.execThins
  | attentionPulseEnd => exact attentionPulseEnd_within.execThins
  | attentionGapEnd => exact attentionGapEnd_within.execThins
  | status => exact status_within.execThins
  | getEvents => exact getEvents_within.execThins
  | getSnapshot => exact getSnapshot_within.execThins
  | getStats => exact getStats_within.execThins
  | clearStats => exact clearStats_within.execThins
  | listEntries => exact listEntries_within.execThins
  | getEntry => exact getEntry_within.execThins
  | readSector => exact readSector_within.execThins
  | listFrames => exact listFrames_within.execThins
  | listJobs => exact listJobs_within.execThins
  | listOverlay => exact listOverlay_within.execThins
  | readOverlay => exact readOverlay_within.execThins
  | dropOverlay => exact dropOverlay_within.execThins
  | getSettings => exact getSettings_within.execThins
  | setRead => exact setRead_within.execThins
  | setLadderStep => exact setLadderStep_within.execThins
  | setLadderShape => exact setLadderShape_within.execThins
  | _ => simp [fillsStore] at h

/-- K is never stored below 3, and lists above it are trimmed (R67, R85). -/
theorem CopiesBounded.storeVote (h : CopiesBounded s) (p : List Byte) (n : Nat) :
    CopiesBounded (storeVote (copyLimitOf p) n s) := by
  have least : 3 ≤ copyLimitOf p := (clampNat_bounds (by omega) _).1
  exact (copiesBounded_iff _).mpr ⟨least, ((copiesBounded_iff s).mp h).2.trimLists (Nat.le_trans (by decide) least)⟩

theorem exec_copiesBounded {c : Instr} (h : CopiesBounded s) (e : exec c s = .next t) : CopiesBounded t := by
  by_cases fills : fillsStore c = false
  · obtain ⟨u, reached, thins⟩ := exec_thins c s fills
    cases e.symm.trans reached
    exact h.thins thins
  cases c with
  | powerOnReset =>
    have start : CopiesBounded (powerOn s) := copiesBounded_reset.thins (.of_same rfl rfl)
    cases e
    exact start.thins (.ite (raiseFence_thins _ _ _) (.ite (raiseFence_thins _ _ _) (.refl _)))
  | copySeal data check outside =>
    cases e
    split
    · exact h.deliverCopy _
    · exact h
  | setVote =>
    cases e
    exact takeRequest_keeps (P := CopiesBounded) h (h.thins (refuse_thins _ _ s))
      fun p => (h.storeVote p (minMarginOf p)).thins (answer_thins _ _ _ _)
  | _ => exact absurd rfl fills

end Sys2Proof.Machine

open Sys2Proof Sys2Proof.Machine

/-- Settles O7: a command adds no copy, places a sealed one within the slots and the limit, or trims the lists to the
limit it stores; and time that passes reaches neither the store nor the limit. -/
theorem stepKeepsCopiesBounded : Obligations.StepKeepsCopiesBounded := fun _ _ =>
  step_keeps (fun _ _ h => h) (fun _ _ _ => exec_copiesBounded) fun s h _ => h.thins (passTime_changes s).thins

end


section
/-! PROOF. SET_READ, SET_VOTE with the lists it trims, SET_LADDER_STEP and SET_LADDER_SHAPE (R59, R67, R85, R90, R91). -/

namespace Sys2Proof.Machine

variable {s : State} {p : List Byte} {cs : List SealedCopy} {kept : List Nat}

/-! ### What a trimming leaves (R67) -/

/-- The places `kept` of a sector's copies are those that a trimming leaves: any other holds a lighter copy, or an equal
one of an earlier place. -/
structure TrimKeeps (cs : List SealedCopy) (kept : List Nat) : Prop where
  ordered : kept.Pairwise (· < ·)
  within : ∀ k ∈ kept, k < cs.length
  heavier : ∀ x y cx cy, x ∈ kept → y ∉ kept → cs[x]? = some cx → cs[y]? = some cy →
    cy.weight < cx.weight ∨ (cy.weight = cx.weight ∧ y < x)

/-- The copies at the places given. -/
def copiesAt (cs : List SealedCopy) (kept : List Nat) : List SealedCopy :=
  kept.filterMap fun k => cs[k]?

theorem copiesAt_range (cs : List SealedCopy) : copiesAt cs (List.range cs.length) = cs := by
  unfold copiesAt
  induction cs with
  | nil => rfl
  | cons c cs ih => simp [List.range_succ_eq_map, List.filterMap_map, ih]

theorem TrimKeeps.all (cs : List SealedCopy) : TrimKeeps cs (List.range cs.length) :=
  ⟨List.pairwise_lt_range, fun _ => List.mem_range.mp,
    fun _ _ _ _ _ out _ there => absurd (List.mem_range.mpr (List.getElem?_eq_some_iff.mp there).1) out⟩

theorem TrimKeeps.length (h : TrimKeeps cs kept) : (copiesAt cs kept).length = kept.length :=
  List.filterMap_length_eq_length.mpr fun k mem => by simpa using h.within k mem

/-- Dropping the lightest of the copies kept gives up its place alone. -/
theorem TrimKeeps.drop (h : TrimKeeps cs kept) :
    ∃ kept', TrimKeeps cs kept' ∧ dropLightest (copiesAt cs kept) = copiesAt cs kept' := by
  by_cases empty : copiesAt cs kept = []
  · exact ⟨kept, h, by rw [empty]; rfl⟩
  obtain ⟨pre, c, post, split, least⟩ := exists_lightest empty
  obtain ⟨ks, rest, rfl, early, late⟩ := List.filterMap_eq_append_iff.mp split
  obtain ⟨gap, k, ls, rfl, none, here, after⟩ := List.filterMap_eq_cons_iff.mp late
  obtain rfl : gap = [] := List.eq_nil_iff_forall_not_mem.mpr fun x mem => by
    have held := h.within x (by simp [mem])
    have gone := none x mem
    rw [List.getElem?_eq_getElem held] at gone
    cases gone
  have before : ∀ y ∈ ks, ∀ cy, cs[y]? = some cy → c.weight < cy.weight := fun y mem cy there =>
    least.before cy (early ▸ List.mem_filterMap.mpr ⟨y, mem, there⟩)
  have behind : ∀ y ∈ ls, k < y ∧ ∀ cy, cs[y]? = some cy → c.weight ≤ cy.weight := fun y mem =>
    ⟨List.rel_of_pairwise_cons (List.pairwise_append.mp h.ordered).2.1 mem,
      fun cy there => least.after cy (after ▸ List.mem_filterMap.mpr ⟨y, mem, there⟩)⟩
  have sub : (ks ++ ls).Sublist (ks ++ ([] ++ k :: ls)) := (List.sublist_cons_self k ls).append_left ks
  refine ⟨ks ++ ls, ⟨h.ordered.sublist sub, fun x mem => h.within x (sub.subset mem), fun x y cx cy xin yout hx hy => ?_⟩, ?_⟩
  · by_cases same : y = k
    · subst same
      cases here.symm.trans hy
      rcases List.mem_append.mp xin with front | back
      · exact .inl (before x front cx hx)
      · obtain ⟨later, weight⟩ := behind x back
        exact (weight cx hx).lt_or_eq.imp id fun e => ⟨e, later⟩
    · refine h.heavier x y cx cy (sub.subset xin) (fun mem => yout ?_) hx hy
      simpa [same] using mem
  · rw [split, least.dropLightest, ← early, ← after]
    exact List.filterMap_append.symm

theorem trimBy_succ (n : Nat) (cs : List SealedCopy) : trimBy (n + 1) cs = dropLightest (trimBy n cs) := by
  induction n generalizing cs with
  | zero => rfl
  | succ n ih => exact ih (dropLightest cs)

theorem trimBy_keeps (n : Nat) (cs : List SealedCopy) : ∃ kept, TrimKeeps cs kept ∧ trimBy n cs = copiesAt cs kept := by
  induction n with
  | zero => exact ⟨_, .all cs, (copiesAt_range cs).symm⟩
  | succ n ih =>
    obtain ⟨kept, keeps, e⟩ := ih
    obtain ⟨kept', keeps', e'⟩ := keeps.drop
    exact ⟨kept', keeps', by rw [trimBy_succ, e, e']⟩

theorem copyListOf_trimLists (limit : Nat) (a : SectorAddr) (c : Cps) : copyListOf a (trimLists limit c) =
    (copyListOf a c).map fun l => { l with copies := trimBy (l.copies.length - limit) l.copies } :=
  List.find?_map

theorem isFresh_trimLists (limit : Nat) (a : SectorAddr) (c : Cps) : isFresh a (trimLists limit c) = isFresh a c := by
  rw [isFresh, copyListOf_trimLists, isFresh]
  cases copyListOf a c <;> rfl

theorem copiesOf_trimLists (limit : Nat) (a : SectorAddr) (c : Cps) :
    copiesOf a (trimLists limit c) = trimBy ((copiesOf a c).length - limit) (copiesOf a c) := by
  rw [copiesOf, copyListOf_trimLists, copiesOf]
  cases copyListOf a c with
  | none => simp [trimBy]
  | some l => rfl

/-- A trimming leaves a sector the limit's number of copies, and drops the lightest, the earliest of equals first. -/
theorem copiesOf_trimLists_keeps (limit : Nat) (a : SectorAddr) (c : Cps) : ∃ kept, TrimKeeps (copiesOf a c) kept ∧
    kept.length = min limit (copiesOf a c).length ∧ copiesOf a (trimLists limit c) = copiesAt (copiesOf a c) kept := by
  obtain ⟨kept, keeps, e⟩ := trimBy_keeps ((copiesOf a c).length - limit) (copiesOf a c)
  have size := length_trimBy ((copiesOf a c).length - limit) (copiesOf a c)
  rw [e, keeps.length] at size
  exact ⟨kept, keeps, by omega, by rw [copiesOf_trimLists, e]⟩

/-! ### The settings stored and echoed (R177, R210) -/

theorem headerOffsetOf_eq (p : List Byte) : headerOffsetOf p = min 2000 (pairAt p 0) := by
  rw [headerOffsetOf, clampNat_eq 0 2000 _ (by omega), Nat.zero_max]

theorem slipLimitOf_eq (p : List Byte) : slipLimitOf p = max 10 (min 2000 (pairAt p 2)) :=
  clampNat_eq 10 2000 _ (by omega)

theorem copyLimitOf_eq (p : List Byte) : copyLimitOf p = max 3 (min 5 (byteAt p 0)) :=
  clampNat_eq 3 5 _ (by omega)

theorem minMarginOf_eq (p : List Byte) : minMarginOf p = min 40 (byteAt p 1) := by
  rw [minMarginOf, clampNat_eq 0 40 _ (by omega), Nat.zero_max]

theorem ladderRecordOf_eq (p : List Byte) : ladderRecordOf p = ⟨max (-3) (min 3 (p.getD 1 0).toInt),
    max (-4) (min 4 (p.getD 2 0).toInt), max 1 (min 4 (byteAt p 3))⟩ := by
  rw [ladderRecordOf, clampInt_eq (-3) 3 _ (by omega), clampInt_eq (-4) 4 _ (by omega), clampNat_eq 1 4 _ (by omega)]
  rfl

theorem ladderLengthOf_eq (p : List Byte) : ladderLengthOf p = max 1 (min 12 (byteAt p 0)) :=
  clampNat_eq 1 12 _ (by omega)

theorem repeatsOf_eq (p : List Byte) : repeatsOf p = min 3 (byteAt p 1) := by
  rw [repeatsOf, clampNat_eq 0 3 _ (by omega), Nat.zero_max]

theorem cooldownOf_eq (p : List Byte) : cooldownOf p = min 60000 (pairAt p 2) := by
  rw [cooldownOf, clampNat_eq 0 60000 _ (by omega), Nat.zero_max]

theorem readBytes_fields {n l : Nat} (hn : n ≤ 65535) (hl : l ≤ 65535) :
    (readBytes n l).length = 4 ∧ pairAt (readBytes n l) 0 = n ∧ pairAt (readBytes n l) 2 = l := by
  simp only [readBytes, u16, List.cons_append, List.nil_append, pairAt, byteAt, List.getD_cons_zero,
    List.getD_cons_succ, BitVec.toNat_ofNat, List.length_cons, List.length_nil, true_and]
  omega

theorem shapeBytes_fields {n r c : Nat} (hn : n ≤ 255) (hr : r ≤ 255) (hc : c ≤ 65535) :
    (shapeBytes n r c).length = 4 ∧ byteAt (shapeBytes n r c) 0 = n ∧ byteAt (shapeBytes n r c) 1 = r ∧
      pairAt (shapeBytes n r c) 2 = c := by
  simp only [shapeBytes, u16, u8, List.cons_append, List.nil_append, pairAt, byteAt, List.getD_cons_zero,
    List.getD_cons_succ, BitVec.toNat_ofNat, List.length_cons, List.length_nil, true_and]
  omega

/-! ### The four requests -/

theorem exec_setRead (taking : Taking 0x42 p s) : ∃ t b, exec .setRead s = .next t ∧ ChangesOnly [.rdc, .stl] s t ∧
    Answered .ok 0x42 b s t ∧
    t.rdc = { s.rdc with headerOffset := min 2000 (pairAt p 0), slipLimit := max 10 (min 2000 (pairAt p 2)) } ∧
    b.length = 4 ∧ pairAt b 0 = t.rdc.headerOffset ∧ pairAt b 2 = t.rdc.slipLimit := by
  have stored : ChangesOnly [.rdc] s
      (s.updRdc fun r => { r with headerOffset := headerOffsetOf p, slipLimit := slipLimitOf p }) := updRdc_changes _
  refine ⟨_, _, congrArg Host.Outcome.next (takeRequest_of_taking takeSetRead taking),
    (answer_within stored).mono (by decide), answer_answers stored (by decide), ?_, readBytes_fields ?_ ?_⟩
  · rw [← headerOffsetOf_eq, ← slipLimitOf_eq]; rfl
  · rw [headerOffsetOf_eq]; omega
  · rw [slipLimitOf_eq]; omega

theorem exec_setVote (taking : Taking 0x43 p s) : ∃ t, exec .setVote s = .next t ∧ ChangesOnly [.vte, .cps, .stl] s t ∧
    t.vte = { s.vte with copyLimit := max 3 (min 5 (byteAt p 0)), minMargin := min 40 (byteAt p 1) } ∧
    Answered .ok 0x43 [BitVec.ofNat 8 t.vte.copyLimit, BitVec.ofNat 8 t.vte.minMargin] s t ∧
    t.cps = trimLists t.vte.copyLimit s.cps := by
  have stored : ChangesOnly [.vte, .cps] s (storeVote (copyLimitOf p) (minMarginOf p) s) :=
    ((updVte_changes _).mono (by decide)).andThen (updCps_changes _) (by decide)
  refine ⟨_, congrArg Host.Outcome.next (takeRequest_of_taking takeSetVote taking),
    (answer_within stored).mono (by decide), ?_, answer_answers stored (by decide), rfl⟩
  rw [← copyLimitOf_eq, ← minMarginOf_eq]
  rfl

theorem exec_setLadderStep_outside (taking : Taking 0x44 p s) (outside : byteAt p 0 = 0 ∨ 12 < byteAt p 0) :
    ∃ t, exec .setLadderStep s = .next t ∧ ChangesOnly [.stl] s t ∧ Answered .range 0x44 [] s t := by
  have act : takeSetLadderStep p s = refuse .range 0x44 s := if_neg (by omega)
  exact ⟨_, congrArg Host.Outcome.next ((takeRequest_of_taking takeSetLadderStep taking).trans act),
    refuse_changes _ _, answer_answered _ _ _⟩

theorem exec_setLadderStep_inside (taking : Taking 0x44 p s) (least : 1 ≤ byteAt p 0) (most : byteAt p 0 ≤ 12)
    (length : s.jbq.ladder.length = 12) : ∃ t, exec .setLadderStep s = .next t ∧ ChangesOnly [.jbq, .stl] s t ∧
      Answered .ok 0x44 (u8 (byteAt p 0) ++ ladderBytes (ladderRecordOf p)) s t ∧
      t.jbq = { s.jbq with ladder := t.jbq.ladder } ∧ t.jbq.ladder.length = 12 ∧
      ∀ i, t.jbq.ladder[i]? = if i + 1 = byteAt p 0 then some (ladderRecordOf p) else s.jbq.ladder[i]? := by
  have act : takeSetLadderStep p s = answer .ok 0x44 (u8 (byteAt p 0) ++ ladderBytes (ladderRecordOf p))
      (s.updJbq fun q => { q with ladder := q.ladder.set (byteAt p 0 - 1) (ladderRecordOf p) }) := if_pos ⟨least, most⟩
  have stored : ChangesOnly [.jbq] s
      (s.updJbq fun q => { q with ladder := q.ladder.set (byteAt p 0 - 1) (ladderRecordOf p) }) := updJbq_changes _
  refine ⟨_, congrArg Host.Outcome.next ((takeRequest_of_taking takeSetLadderStep taking).trans act),
    (answer_within stored).mono (by decide), answer_answers stored (by decide), rfl, List.length_set.trans length,
    fun i => ?_⟩
  show (s.jbq.ladder.set (byteAt p 0 - 1) (ladderRecordOf p))[i]? = _
  rw [List.getElem?_set, if_pos (show byteAt p 0 - 1 < s.jbq.ladder.length by omega)]
  exact if_congr (by omega) rfl rfl

theorem exec_setLadderShape (taking : Taking 0x45 p s) : ∃ t b, exec .setLadderShape s = .next t ∧
    ChangesOnly [.jbq, .stl] s t ∧ Answered .ok 0x45 b s t ∧
    t.jbq = { s.jbq with
      length := max 1 (min 12 (byteAt p 0)), repeats := min 3 (byteAt p 1), cooldown := min 60000 (pairAt p 2) } ∧
    b.length = 4 ∧ byteAt b 0 = t.jbq.length ∧ byteAt b 1 = t.jbq.repeats ∧ pairAt b 2 = t.jbq.cooldown := by
  have stored : ChangesOnly [.jbq] s (s.updJbq fun q =>
      { q with length := ladderLengthOf p, repeats := repeatsOf p, cooldown := cooldownOf p }) := updJbq_changes _
  refine ⟨_, _, congrArg Host.Outcome.next (takeRequest_of_taking takeSetLadderShape taking),
    (answer_within stored).mono (by decide), answer_answers stored (by decide), ?_, shapeBytes_fields ?_ ?_ ?_⟩
  · rw [← ladderLengthOf_eq, ← repeatsOf_eq, ← cooldownOf_eq]; rfl
  · rw [ladderLengthOf_eq]; omega
  · rw [repeatsOf_eq]; omega
  · rw [cooldownOf_eq]; omega

end Sys2Proof.Machine

open Sys2Proof Sys2Proof.Machine

/-- Settles O32: each request stores its clamped values and echoes them; each list that SET_VOTE trims keeps the places
that dropping its lightest copy, the earliest of equals, leaves time after time. -/
theorem readVoteAndLadderSettingsStore : Obligations.ReadVoteAndLadderSettingsStore := by
  refine ⟨fun s p => exec_setRead, fun s p taking => ?_, fun s p taking => ⟨exec_setLadderStep_outside taking, ?_⟩,
    fun s p => exec_setLadderShape⟩
  · obtain ⟨t, act, only, vote, answered, store⟩ := exec_setVote taking
    refine ⟨t, act, only, vote, answered, ?_⟩
    rintro a _ rfl
    obtain ⟨kept, keeps, size, copies⟩ := copiesOf_trimLists_keeps t.vte.copyLimit a s.cps
    rw [store]
    exact ⟨isFresh_trimLists _ _ _, kept, keeps.ordered, keeps.within, size, copies, keeps.heavier⟩
  · intro least most length
    obtain ⟨t, act, only, answered, ladder⟩ := exec_setLadderStep_inside taking least most length
    exact ⟨t, _, act, only, ladderRecordOf_eq p, answered, ladder⟩

end


section
/-! PROOF. A job's end, part by part: its frame, the copies of its track, its entry with the closing event, the peak of
passes and the queue (R66, R107 to R110, R119, R138). -/

namespace Sys2Proof.Machine

variable {s u : State} {bs : List Block} {j : Job} {k : JobEnd} {force quiet : Bool} {e : Entry} {tr : Track}

/-! ### Events where the queue, the clock and the attention mode stand -/

theorem offer_evq_congr {kind : EventKind} {at_ : Option Track} {n : Nat} (evq : u.evq = s.evq) (mcp : u.mcp = s.mcp)
    (clock : u.clock = s.clock) : (offer kind at_ n u).evq = (offer kind at_ n s).evq := by
  simp only [offer, State.updEvq_evq, evq, mcp, clock]

theorem offer_congr {kind : EventKind} {at_ : Option Track} {n : Nat} (only : ChangesOnly bs s u)
    (evq : .evq ∉ bs := by decide) (mcp : .mcp ∉ bs := by decide) (clock : .clock ∉ bs := by decide) :
    (offer kind at_ n u).evq = (offer kind at_ n s).evq :=
  offer_evq_congr (only.evq evq) (only.mcp mcp) (only.clock clock)

/-! ### The frame (R108, R119) -/

/-- The records of the sectors listed are FAILED, and the others stand. -/
theorem failSectors_record (is : List Nat) (f : Frame) (i : Nat) :
    (failSectors is f).sectors[i]? = if i ∈ is then (f.sectors[i]?).map failRecord else f.sectors[i]? := by
  induction is generalizing f with
  | nil => rfl
  | cons x is ih =>
    have first : (f.updSector x failRecord).sectors[i]? =
        if x = i then (f.sectors[i]?).map failRecord else f.sectors[i]? := by
      show (f.sectors.modify x failRecord)[i]? = _
      split
      · subst x; exact List.getElem?_modify_eq _ _ _
      · exact List.getElem?_modify_ne _ _ ‹_›
    refine (ih (f.updSector x failRecord)).trans ?_
    rw [first]
    by_cases here : x = i <;> by_cases later : i ∈ is
    · simp [here, later, Function.comp_def, failRecord_idem]
    · simp [here, later]
    · simp [later, here, Ne.symm here]
    · simp [later, here, Ne.symm here]

/-- What the end of a job makes of the frame it owns: its open sectors are FAILED, or, where its fill sealed nothing, it
is released (R108, R119). -/
def FrameHandedOn (j : Job) (f : Frame) (s u : State) : Prop :=
  (j.fill = true → f.allEmpty = true →
    u.tks = { s.tks with frames := s.tks.frames.filter fun x => x.track != j.track }) ∧
  (j.fill = false ∨ f.allEmpty = false → ∃ f', frameOf j.track u = some f' ∧ f'.exportPending = f.exportPending ∧
    ∀ i, f'.sectors[i]? = if i ∈ j.openSet then (f.sectors[i]?).map failRecord else f.sectors[i]?)

theorem releasesFrame_eq {f : Frame} (frame : frameOf j.track s = some f) :
    releasesFrame j s = (j.fill && f.allEmpty) := by
  rw [releasesFrame, frame]
  rfl

theorem endFrame_of_frameless (frameless : j.holdsFrame = false) : endFrame j s = s :=
  if_neg (by simp [frameless])

theorem endFrame_of_released (holds : j.holdsFrame = true) (released : releasesFrame j s = true) :
    endFrame j s = releaseFrame j.track s := by
  rw [endFrame, if_pos holds, if_pos released]

theorem endFrame_of_kept (holds : j.holdsFrame = true) (kept : releasesFrame j s = false) :
    endFrame j s = updFrame j.track (failSectors j.openSet) s := by
  rw [endFrame, if_pos holds, if_neg (by simp [kept])]

/-- The sectors listed fail in the frame of their track. -/
theorem updFrame_failSectors {f : Frame} (frame : frameOf tr s = some f) (is : List Nat) :
    ∃ f', frameOf tr (updFrame tr (failSectors is) s) = some f' ∧ f'.exportPending = f.exportPending ∧
      ∀ i, f'.sectors[i]? = if i ∈ is then (f.sectors[i]?).map failRecord else f.sectors[i]? := by
  refine ⟨failSectors is f, ?_, (failSectors_keeps is f).2, failSectors_record is f⟩
  rw [frameOf_updFrame _ _ (failSectors_track _), frame]
  rfl

theorem endFrame_handsOn {f : Frame} (holds : j.holdsFrame = true) (frame : frameOf j.track s = some f) :
    FrameHandedOn j f s (endFrame j s) := by
  have released := releasesFrame_eq frame
  refine ⟨fun fill empty => ?_, fun kept => ?_⟩
  · rw [endFrame_of_released holds (by rw [released, fill, empty]; rfl)]
    rfl
  · have stays : releasesFrame j s = false := by
      rw [released]
      rcases kept with off | some <;> simp [*]
    rw [endFrame_of_kept holds stays]
    exact updFrame_failSectors frame _

/-! ### The entry (R107, R138) -/

theorem closeEntry_of_closed {falls : OutcomeRec → Bool} {reason : Nat → FailReason} {held : Nat → Nat}
    (closed : ∀ e, entryOf tr s = some e → e.state ≠ .opened) : closeEntry tr falls reason held force quiet s = s := by
  unfold closeEntry
  cases entry : entryOf tr s with
  | none => rfl
  | some e => exact if_neg (closed e entry)

theorem closeEntry_of_opened {falls : OutcomeRec → Bool} {reason : Nat → FailReason} {held : Nat → Nat}
    (entry : entryOf tr s = some e) (opened : e.state = .opened) : closeEntry tr falls reason held force quiet s =
      if quiet then updEntry tr (Entry.close falls reason held force) s
      else closingEvent (e.close falls reason held force) (updEntry tr (Entry.close falls reason held force) s) := by
  rw [closeEntry, entry]
  exact if_pos opened

/-- An entry closes PARTIAL where it is forced or an outcome is FAILED, and RECOVERED otherwise. -/
theorem close_state (falls : OutcomeRec → Bool) (reason : Nat → FailReason) (held : Nat → Nat) (e : Entry) :
    (e.close falls reason held force).state = if force = true ∨
      (∃ o ∈ (e.close falls reason held force).outcomes, o.result.isFailed = true) then .incomplete else .recovered := by
  show (if force || _ then EntryState.incomplete else EntryState.recovered) = _
  refine if_congr ?_ rfl rfl
  rw [Bool.or_eq_true, List.any_eq_true]
  rfl

/-- The reason that a walk's end gives a sector with a tally (R107). -/
theorem endReason_of_walk {i : Nat} {y : Tally} (tally : j.tallies.find? (fun z => z.sector == i) = some y) :
    endReason .walk j i = tallyReason y := by
  rw [endReason, tally]
  rfl

theorem close_outcomes (held : Nat → Nat) (count : ∀ i, held i = (copiesOf ⟨j.track, i⟩ s.cps).length) :
    List.Forall₂ (EndedOutcome k j s) e.outcomes
      (e.close (fallsWith j) (endReason k j) held force).outcomes := by
  show List.Forall₂ _ _ (e.outcomes.map _)
  rw [List.forall₂_map_right_iff, List.forall₂_same]
  refine fun o _ => ⟨fun stands => if_neg fun falls => stands ((fallsWith_iff j o).mp falls), fun falls => ?_⟩
  refine ⟨endReason k j o.sector, ?_, ?_, ?_⟩
  · rw [if_pos ((fallsWith_iff j o).mpr falls), count]
  · rintro x rfl; rfl
  · rintro y rfl tally; exact endReason_of_walk tally

/-- What the end of a job makes of its OPEN entry: it closes with a reason for each sector still open and the copies it
held, RECOVERED with TRACK_RECOVERED or PARTIAL with TRACK_PARTIAL, offered to the queue unless `quiet` (R107, R138). -/
def EntryHandedOn (k : JobEnd) (force quiet : Bool) (j : Job) (e : Entry) (s u : State) : Prop :=
  ∃ e' os, entryOf j.track u = some e' ∧ e' = { e with state := e'.state, outcomes := os } ∧ e'.state ≠ .opened ∧
    List.Forall₂ (EndedOutcome k j s) e.outcomes os ∧
    (e'.state = .incomplete ↔ force = true ∨ ∃ o ∈ os, o.result.isFailed = true) ∧
    (quiet = true → u.evq = s.evq) ∧
    (quiet = false → e'.state = .recovered → u.evq = (offer .trackRecovered (some j.track) os.length s).evq) ∧
    (quiet = false → e'.state = .incomplete →
      u.evq = (offer .trackPartial (some j.track) (os.countP fun o => o.result.isFailed) s).evq)

theorem closingEvent_entries (e : Entry) (s : State) : (closingEvent e s).rct = s.rct :=
  (closingEvent_changes e).rct

theorem closingEvent_of_recovered (closed : e.state = .recovered) :
    closingEvent e s = offer .trackRecovered (some e.track) e.outcomes.length s := by
  rw [closingEvent, closed]

theorem closingEvent_of_incomplete (closed : e.state = .incomplete) :
    closingEvent e s = offer .trackPartial (some e.track) (e.outcomes.countP fun o => o.result.isFailed) s := by
  rw [closingEvent, closed]
  rfl

/-- The closing of the entry in a state `v` whose frames and copies alone differ from those of `s`. -/
theorem closeEntry_handsOn {v : State} (only : ChangesOnly [.cps, .tks] s v) (entry : entryOf j.track s = some e)
    (opened : e.state = .opened) : EntryHandedOn k force quiet j e s
      (closeEntry j.track (fallsWith j) (endReason k j) (copyCount s j.track) force quiet v) := by
  have state := close_state (force := force) (fallsWith j) (endReason k j) (copyCount s j.track) e
  have outcomes := close_outcomes (k := k) (e := e) (force := force) (s := s) (copyCount s j.track) fun _ => rfl
  have track : (e.close (fallsWith j) (endReason k j) (copyCount s j.track) force).track = j.track :=
    (entryOf_track entry : e.track = j.track)
  have entry' : entryOf j.track v = some e := by
    rwa [entryOf_congr _ (congrArg Rct.entries only.rct)]
  have closed : entryOf j.track (updEntry j.track
      (Entry.close (fallsWith j) (endReason k j) (copyCount s j.track) force) v) =
        some (e.close (fallsWith j) (endReason k j) (copyCount s j.track) force) := by
    rw [entryOf_updEntry _ (Entry.close (fallsWith j) (endReason k j) (copyCount s j.track) force) fun _ => rfl,
      entry']
    rfl
  have before : ChangesOnly [.cps, .tks, .rct] s (updEntry j.track
      (Entry.close (fallsWith j) (endReason k j) (copyCount s j.track) force) v) :=
    (only.mono (by decide)).andThen (updEntry_changes _ _) (by decide)
  rw [closeEntry_of_opened entry' opened]
  refine ⟨e.close (fallsWith j) (endReason k j) (copyCount s j.track) force, _, ?_, rfl, ?_, outcomes, ?_,
    fun silent => ?_, fun loud recovered => ?_, fun loud incomplete => ?_⟩
  · split
    · exact closed
    · exact (entryOf_congr _ (congrArg Rct.entries (closingEvent_entries _ _))).trans closed
  · rw [state]
    split <;> decide
  · rw [state]
    exact ite_eq_left_iff.trans ⟨fun h => by_contra fun none => absurd (h none) (by decide), fun h none => absurd h none⟩
  · rw [if_pos silent]
    exact before.evq
  · rw [if_neg (by simp [loud]), closingEvent_of_recovered recovered, track]
    exact offer_congr before
  · rw [if_neg (by simp [loud]), closingEvent_of_incomplete incomplete, track]
    exact offer_congr before

/-! ### The job's end (R108) -/

/-- The state in which a job's end closes the entry: its frame and its copies are done with. -/
theorem endCopies_endFrame_changes (j : Job) (s : State) : ChangesOnly [.cps, .tks] s (endCopies j (endFrame j s)) :=
  ((endFrame_changes j).mono (by decide)).andThen (endCopies_changes j) (by decide)

theorem endJob_jbq (k : JobEnd) (force quiet : Bool) (j : Job) (s : State) :
    (endJob k force quiet j s).jbq = { s.jbq with jobs := s.jbq.jobs.filter fun x => x.track != j.track } := by
  have closing : ChangesOnly [.cps, .tks, .rct, .evq] s (closeEntry j.track (fallsWith j) (endReason k j)
      (copyCount s j.track) force quiet (endCopies j (endFrame j s))) :=
    ((endCopies_endFrame_changes j s).mono (by decide)).andThen (closeEntry_changes _ _ _ _ _ _) (by decide)
  rw [← closing.jbq]
  rfl

theorem endJob_cps (k : JobEnd) (force quiet : Bool) (j : Job) (s : State) :
    (endJob k force quiet j s).cps = freeTrack j.track s.cps :=
  (endJob_parts k force quiet j s).2.1

theorem endJob_tks (k : JobEnd) (force quiet : Bool) (j : Job) (s : State) :
    (endJob k force quiet j s).tks = (endFrame j s).tks :=
  (endJob_parts k force quiet j s).1

theorem closeEntry_peak (tr : Track) (falls : OutcomeRec → Bool) (reason : Nat → FailReason) (held : Nat → Nat)
    (s : State) : (closeEntry tr falls reason held force quiet s).rct.peakPasses = s.rct.peakPasses := by
  unfold closeEntry
  split
  · split
    · dsimp only
      split
      · rfl
      · rw [closingEvent_entries]; rfl
    · rfl
  · rfl

theorem endJob_peak (k : JobEnd) (force quiet : Bool) (j : Job) (s : State) :
    (endJob k force quiet j s).rct.peakPasses = max s.rct.peakPasses j.counter := by
  show max (closeEntry j.track _ _ _ force quiet (endCopies j (endFrame j s))).rct.peakPasses j.counter = _
  rw [closeEntry_peak, (endCopies_endFrame_changes j s).rct]

theorem endJob_frame {f : Frame} (holds : j.holdsFrame = true) (frame : frameOf j.track s = some f) :
    FrameHandedOn j f s (endJob k force quiet j s) := by
  have same := endJob_tks k force quiet j s
  obtain ⟨released, kept⟩ := endFrame_handsOn holds frame
  rw [FrameHandedOn, same, frameOf_congr _ (congrArg Tks.frames same)]
  exact ⟨released, kept⟩

theorem endJob_of_closed (closed : ∀ e, entryOf j.track s = some e → e.state ≠ .opened) :
    (endJob k force quiet j s).rct.entries = s.rct.entries ∧ (endJob k force quiet j s).evq = s.evq := by
  have only := endCopies_endFrame_changes j s
  have none : closeEntry j.track (fallsWith j) (endReason k j) (copyCount s j.track) force quiet
      (endCopies j (endFrame j s)) = endCopies j (endFrame j s) :=
    closeEntry_of_closed (by rwa [entryOf_congr _ (congrArg Rct.entries only.rct)])
  constructor
  · show (closeEntry _ _ _ _ _ _ _).rct.entries = _
    rw [none, only.rct]
  · show (closeEntry _ _ _ _ _ _ _).evq = _
    rw [none, only.evq]

theorem endJob_entry (entry : entryOf j.track s = some e) (opened : e.state = .opened) :
    EntryHandedOn k force quiet j e s (endJob k force quiet j s) := by
  have closing := closeEntry_handsOn (k := k) (force := force) (quiet := quiet)
    (endCopies_endFrame_changes j s) entry opened
  exact closing

end Sys2Proof.Machine
end


section
/-! PROOF. The ends of jobs, of fetches and of fills, and new entries (R66, R96 to R98, R107 to R110, R133 to R138). -/

namespace Sys2Proof.Machine

variable {s u : State} {bs : List Block} {j : Job} {f : Frame} {e : Entry} {tr : Track} {kind : GrantKind}
variable {origin : Origin} {st : EntryState} {n : Nat} {starved : Bool} {os : List OutcomeRec} {open_ : List Nat}

/-! ### New entries (R133, R134) -/

theorem entriesWithRoom_of_room (sequence : s.rct.nextSequence ≤ 4294967295) (room : s.rct.entries.length < 512) :
    entriesWithRoom s.rct = some s.rct.entries := by
  exact (if_neg (Nat.not_lt.mpr sequence)).trans (if_pos room)

theorem removable_iff (e : Entry) : e.removable = true ↔ e.exported = true ∧ e.state ≠ .opened := by
  simp [Entry.removable]

/-- In a full table the first closed and exported entry gives its place. -/
theorem entriesWithRoom_of_removable {pre post : List Entry} {x : Entry} (sequence : s.rct.nextSequence ≤ 4294967295)
    (full : 512 ≤ s.rct.entries.length) (split : s.rct.entries = pre ++ x :: post) (removable : x.removable = true)
    (first : ∀ y ∈ pre, ¬ y.removable = true) : entriesWithRoom s.rct = some (pre ++ post) := by
  have held : s.rct.entries.any Entry.removable = true := by
    rw [split]; exact List.any_eq_true.mpr ⟨x, by simp, removable⟩
  have erased : s.rct.entries.eraseP Entry.removable = pre ++ post := by
    rw [split, List.eraseP_append_right _ first, List.eraseP_cons_of_pos removable]
  exact (if_neg (Nat.not_lt.mpr sequence)).trans
    ((if_neg (Nat.not_lt.mpr full)).trans ((if_pos held).trans (congrArg some erased)))

theorem entriesWithRoom_of_full (spent : 4294967295 < s.rct.nextSequence ∨
    512 ≤ s.rct.entries.length ∧ ∀ y ∈ s.rct.entries, ¬ y.removable = true) : entriesWithRoom s.rct = none := by
  rw [entriesWithRoom]
  rcases spent with sequence | ⟨full, none⟩
  · exact if_pos sequence
  · split
    · rfl
    · refine (if_neg (Nat.not_lt.mpr full)).trans (if_neg fun held => ?_)
      obtain ⟨y, mem, removable⟩ := List.any_eq_true.mp held
      exact none y mem removable

theorem createEntry_of_entries {es : List Entry} (room : entriesWithRoom s.rct = some es) :
    createEntry tr origin st n starved os s = s.updRct fun r =>
      { r with entries := es ++ [newEntry s tr origin st n starved os], nextSequence := r.nextSequence + 1 } := by
  rw [createEntry, room]
  rfl

theorem createEntry_of_full (full : entriesWithRoom s.rct = none) :
    createEntry tr origin st n starved os s = offer .tableFull (some tr) os.length s := by
  rw [createEntry, full]

/-- What becomes of a new entry depends on the table and the events' clock and mode alone. -/
theorem createEntry_congr (only : ChangesOnly bs s u) (rct : .rct ∉ bs := by decide) (evq : .evq ∉ bs := by decide)
    (mcp : .mcp ∉ bs := by decide) (clock : .clock ∉ bs := by decide) :
    (createEntry tr origin st n starved os u).rct = (createEntry tr origin st n starved os s).rct ∧
    (createEntry tr origin st n starved os u).evq = (createEntry tr origin st n starved os s).evq := by
  have table := only.rct rct
  cases room : entriesWithRoom s.rct with
  | none =>
    rw [createEntry_of_full room, createEntry_of_full (table ▸ room)]
    exact ⟨table, offer_congr only evq mcp clock⟩
  | some es =>
    rw [createEntry_of_entries room, createEntry_of_entries (table ▸ room)]
    refine ⟨?_, only.evq evq⟩
    simp only [State.updRct_rct, newEntry, table]

/-! ### The end of a fill (R133, R136) -/

theorem isPending_iff (r : OutcomeResult) : r.isPending = true ↔ r = .pending := by
  cases r <;> simp [OutcomeResult.isPending]

/-- A refill that left every sector GOOD, with the statement's way to tell a PENDING outcome. -/
theorem refillGood_eq (e : Entry) : e.refillGood = { e with
    outcomes := e.outcomes.map fun o => if o.result = .pending then ⟨o.sector, .retryGood 0 0 1⟩ else o
    successStep := some 0
    exported := e.exported && e.outcomes.all fun o => o.result != .pending } := by
  have told (o : OutcomeRec) : (!o.result.isPending) = (o.result != .pending) := by
    rw [Bool.eq_iff_iff]; simp [← isPending_iff]
  simp only [Entry.refillGood, isPending_iff, List.not_any_eq_all_not, told]

theorem finishJobPass_of_fill (job : jobOf tr s = some j) (fill : j.fill = true) :
    finishJobPass tr s = advanceJob tr (recordRefill j s) := by
  rw [finishJobPass, job]
  exact congrArg (advanceJob tr) (if_pos fill)

theorem finishJobPass_of_pass (job : jobOf tr s = some j) (pass : j.fill = false) :
    finishJobPass tr s = advanceJob tr s := by
  rw [finishJobPass, job]
  exact congrArg (advanceJob tr) (if_neg (by simp [pass]))

theorem recordRefill_of_entry (entry : entryOf j.track s = some e) : recordRefill j s = s.updRct fun r =>
    { r with entries := r.entries.map fun e => if e.track = j.track then
      if j.tallies = [] then e.refillGood else e.refillOpen j.openSet else e } := by
  rw [recordRefill, entry]
  by_cases clean : j.tallies = []
  · simp only [clean, List.isEmpty_nil, if_true]; rfl
  · simp only [clean, List.isEmpty_eq_false_iff.mpr clean]; rfl

theorem recordRefill_of_no_entry (none : entryOf j.track s = none) : recordRefill j s =
    if j.tallies = [] then s else createEntry j.track j.origin .opened 1 j.starved (pendingOutcomes j.openSet) s := by
  rw [recordRefill, none]
  exact if_congr List.isEmpty_iff rfl rfl

/-! ### The end of a fetch (R96 to R98) -/

/-- The sectors of a frame that are not GOOD. -/
def notGood (f : Frame) : List Nat :=
  sectorsWhere (fun r => !r.isGood) f

theorem endFetch_of_frame (frame : frameOf tr s = some f) : endFetch kind tr s = dropFetchTallies (
    if (jobOf tr s).isSome then serveFill kind tr (notGood f) s
    else if (notGood f).isEmpty then s.updCps (freeTrack tr)
    else if s.jbq.jobs.length < Config.jobSlots then createFetchedJob kind tr (notGood f) s
    else
      match removablePrefetch s with
      | some j => createFetchedJob kind tr (notGood f) (endJob (.cause .cancelled) true false j s)
      | none => failFetch kind tr (notGood f) s) := by
  unfold endFetch
  rw [frame]
  rfl

theorem endFetch_serves (frame : frameOf tr s = some f) (job : jobOf tr s = some j) :
    endFetch kind tr s = dropFetchTallies (serveFill kind tr (notGood f) s) := by
  rw [endFetch_of_frame frame, job]
  rfl

theorem endFetch_of_clean (frame : frameOf tr s = some f) (free : jobOf tr s = none) (clean : notGood f = []) :
    endFetch kind tr s = dropFetchTallies (s.updCps (freeTrack tr)) := by
  rw [endFetch_of_frame frame, free, clean]
  rfl

theorem endFetch_of_open (frame : frameOf tr s = some f) (free : jobOf tr s = none) (left : notGood f ≠ []) :
    endFetch kind tr s = dropFetchTallies (
      if s.jbq.jobs.length < Config.jobSlots then createFetchedJob kind tr (notGood f) s
      else
        match removablePrefetch s with
        | some j => createFetchedJob kind tr (notGood f) (endJob (.cause .cancelled) true false j s)
        | none => failFetch kind tr (notGood f) s) := by
  rw [endFetch_of_frame frame, free, if_neg (by simp), if_neg (by simpa using left)]

theorem endFetch_creates (frame : frameOf tr s = some f) (free : jobOf tr s = none) (left : notGood f ≠ [])
    (room : s.jbq.jobs.length < 16) : endFetch kind tr s = dropFetchTallies (createFetchedJob kind tr (notGood f) s) := by
  rw [endFetch_of_open frame free left]
  exact congrArg dropFetchTallies (if_pos room)

theorem endFetch_removes {x : Job} (frame : frameOf tr s = some f) (free : jobOf tr s = none) (left : notGood f ≠ [])
    (full : 16 ≤ s.jbq.jobs.length) (removed : removablePrefetch s = some x) : endFetch kind tr s =
      dropFetchTallies (createFetchedJob kind tr (notGood f) (endJob (.cause .cancelled) true false x s)) := by
  rw [endFetch_of_open frame free left, removed]
  exact congrArg dropFetchTallies (if_neg (Nat.not_lt.mpr full))

theorem endFetch_fails (frame : frameOf tr s = some f) (free : jobOf tr s = none) (left : notGood f ≠ [])
    (full : 16 ≤ s.jbq.jobs.length) (none : removablePrefetch s = none) :
    endFetch kind tr s = dropFetchTallies (failFetch kind tr (notGood f) s) := by
  rw [endFetch_of_open frame free left, none]
  exact congrArg dropFetchTallies (if_neg (Nat.not_lt.mpr full))

/-! ### The job removed for room (R98) -/

theorem removablePrefetch_of_split {pre post : List Job} {x : Job} (split : s.jbq.jobs = pre ++ x :: post)
    (prefetch : x.origin = .prefetch) (idle : x.state ≠ .active)
    (last : ∀ y ∈ post, ¬ (y.origin = .prefetch ∧ y.state ≠ .active)) : removablePrefetch s = some x := by
  have passed : post.reverse.find? (fun y => y.origin == .prefetch && y.state != .active) = none := by
    rw [List.find?_eq_none]
    exact fun y mem told => last y (List.mem_reverse.mp mem) (by simpa using told)
  rw [removablePrefetch, split]
  simp [passed, prefetch, idle]

theorem removablePrefetch_of_none (none : ∀ y ∈ s.jbq.jobs, ¬ (y.origin = .prefetch ∧ y.state ≠ .active)) :
    removablePrefetch s = Option.none :=
  List.find?_eq_none.mpr fun y mem told => none y (List.mem_reverse.mp mem) (by simpa using told)

/-- The removed job alone had its track, and its end makes room for one. -/
theorem jobs_removed {pre post : List Job} {x : Job} (split : s.jbq.jobs = pre ++ x :: post)
    (alone : ∀ y ∈ pre ++ post, y.track ≠ x.track) :
    (s.jbq.jobs.filter fun y => y.track != x.track) = pre ++ post := by
  have keeps : (pre ++ post).filter (fun y => y.track != x.track) = pre ++ post :=
    List.filter_eq_self.mpr fun y mem => by simpa using alone y mem
  rw [split, List.filter_append, List.filter_cons_of_neg (by simp), ← List.filter_append, keeps]

/-- The end of a job on another track leaves a frame as it is. -/
theorem endJob_frameOf_ne {k : JobEnd} {force quiet : Bool} (other : tr ≠ j.track) :
    frameOf tr (endJob k force quiet j s) = frameOf tr s := by
  rw [frameOf_congr _ (congrArg Tks.frames (endJob_tks k force quiet j s)), endFrame]
  split
  · split
    · exact frameOf_releaseFrame_ne other
    · exact frameOf_updFrame_ne _ (failSectors_track _) other
  · rfl

theorem endFetch_makes_room {pre post : List Job} {x : Job} (frame : frameOf tr s = some f) (free : jobOf tr s = none)
    (left : notGood f ≠ []) (full : s.jbq.jobs.length = 16) (split : s.jbq.jobs = pre ++ x :: post)
    (prefetch : x.origin = .prefetch) (idle : x.state ≠ .active)
    (last : ∀ y ∈ post, ¬ (y.origin = .prefetch ∧ y.state ≠ .active)) (alone : ∀ y ∈ pre ++ post, y.track ≠ x.track) :
    endFetch kind tr s = endFetch kind tr (endJob (.cause .cancelled) true false x s) := by
  have other : tr ≠ x.track := by
    rintro rfl
    exact List.find?_eq_none.mp free x (by simp [split]) (by simp)
  have jobs : (endJob (.cause .cancelled) true false x s).jbq.jobs = pre ++ post :=
    (congrArg Jbq.jobs (endJob_jbq _ _ _ _ _)).trans (jobs_removed split alone)
  have frame' : frameOf tr (endJob (.cause .cancelled) true false x s) = some f := by
    exact (endJob_frameOf_ne other).trans frame
  have free' : jobOf tr (endJob (.cause .cancelled) true false x s) = none := by
    refine List.find?_eq_none.mpr fun y mem => List.find?_eq_none.mp free y ?_
    rw [jobs] at mem
    rw [split]
    simp only [List.mem_append, List.mem_cons] at mem ⊢
    tauto
  have length : pre.length + post.length = 15 := by
    have := full
    rw [split, List.length_append, List.length_cons] at this
    omega
  rw [endFetch_removes frame free left (Nat.le_of_eq full.symm) (removablePrefetch_of_split split prefetch idle last),
    endFetch_creates frame' free' left (by rw [jobs, List.length_append, length]; decide)]

/-! ### The job a fetch makes (R96, R133, R135) -/

theorem fetchTallies_of_fetch {ft : FetchTallies} (fetch : s.jbq.fetch = some ft) : fetchTallies s = ft := by
  rw [fetchTallies, fetch]
  rfl

theorem createFetchedJob_of_entry (entry : entryOf tr s = some e) : createFetchedJob kind tr open_ s =
    updEntry tr (reopenFetched (fetchOrigin kind) (fetchTallies s).starved (pendingOutcomes open_))
      (addJob (fetchedJob kind tr open_ (fetchTallies s)) s) := by
  rw [createFetchedJob, entry]

theorem createFetchedJob_of_no_entry (none : entryOf tr s = none) : createFetchedJob kind tr open_ s =
    createEntry tr (fetchOrigin kind) .opened 1 (fetchTallies s).starved (pendingOutcomes open_)
      (addJob (fetchedJob kind tr open_ (fetchTallies s)) s) := by
  rw [createFetchedJob, none]

theorem createFetchedJob_jbq : (createFetchedJob kind tr open_ s).jbq =
    { s.jbq with jobs := s.jbq.jobs ++ [fetchedJob kind tr open_ (fetchTallies s)] } := by
  cases entry : entryOf tr s with
  | some e => rw [createFetchedJob_of_entry entry]; rfl
  | none => rw [createFetchedJob_of_no_entry entry, (createEntry_changes _ _ _ _ _ _).jbq]; rfl

theorem addJob_changes (j : Job) : ChangesOnly [.jbq] s (addJob j s) :=
  updJbq_changes _

/-! ### The fetch that can make no job (R98) -/

theorem failFetch_of_entry (entry : entryOf tr s = some e) : failFetch kind tr open_ s =
    (offer .queueFull (some tr) open_.length (updEntry tr
      (fun e => { reopenFetched (fetchOrigin kind) (fetchTallies s).starved (queueFullOutcomes (copyCount s tr) open_) e
        with state := .incomplete })
      (updFrame tr (failSectors open_) s))).updCps (freeTrack tr) := by
  rw [failFetch, entry]

theorem failFetch_of_no_entry (none : entryOf tr s = none) : failFetch kind tr open_ s =
    (offer .queueFull (some tr) open_.length (createEntry tr (fetchOrigin kind) .incomplete 1 (fetchTallies s).starved
      (queueFullOutcomes (copyCount s tr) open_) (updFrame tr (failSectors open_) s))).updCps (freeTrack tr) := by
  rw [failFetch, none]

/-- What a fetch that can make no job does before the event and the freeing of its copies. -/
theorem failFetch_split : ∃ v, ChangesOnly [.rct, .evq] (updFrame tr (failSectors open_) s) v ∧
    failFetch kind tr open_ s = (offer .queueFull (some tr) open_.length v).updCps (freeTrack tr) := by
  cases entry : entryOf tr s with
  | some e => exact ⟨_, (updEntry_changes _ _).mono (by decide), failFetch_of_entry entry⟩
  | none => exact ⟨_, createEntry_changes _ _ _ _ _ _, failFetch_of_no_entry entry⟩

theorem lastOffered_offer (k : EventKind) (tr : Option Track) (n : Nat) (s : State) :
    LastOffered k tr n (offer k tr n s) := by
  intro heard
  obtain ⟨counter, -, ⟨-, records, -⟩ | ⟨-, full⟩⟩ := offer_cases k tr n s
  · exact ⟨_, by rw [records, List.getLast?_concat], rfl, rfl, rfl, counter.symm⟩
  · rw [full] at heard
    cases heard

/-! ### The fetch that serves as a fill (R97) -/

/-- The entry of a track a fetch has served as the fill of, before its pass ends (R97, R136, R137). -/
def Entry.served (limited : Bool) (origin : Origin) (starved : Bool) (e : Entry) : Entry :=
  if e.state = .opened then { e with
    origin := if limited then origin else e.origin, passes := bump 65535 e.passes, starved := e.starved || starved }
  else e

theorem updEntry_updEntry (f g : Entry → Entry) (hf : ∀ e, (f e).track = e.track) (s : State) :
    updEntry tr g (updEntry tr f s) = updEntry tr (fun e => g (f e)) s := by
  have fused : ∀ e : Entry, (if (if e.track = tr then f e else e).track = tr then g (if e.track = tr then f e else e)
      else (if e.track = tr then f e else e)) = if e.track = tr then g (f e) else e := by
    intro e
    by_cases here : e.track = tr <;> simp [here, hf]
  simp only [updEntry, State.updRct, List.map_map, Function.comp_def, fused]

theorem Entry.countPass_track (e : Entry) : e.countPass.track = e.track := by
  unfold Entry.countPass
  split <;> rfl

theorem Entry.setOrigin_track (o : Origin) (e : Entry) : (e.setOrigin o).track = e.track := by
  unfold Entry.setOrigin
  split <;> rfl

theorem served_of_fed (limited : Bool) (o : Origin) (e : Entry) :
    (e.setOrigin (if limited then o else e.origin)).countPass = e.served limited o false := by
  by_cases opened : e.state = .opened <;> simp [Entry.setOrigin, Entry.countPass, Entry.served, opened]

theorem served_of_starved (limited : Bool) (o : Origin) (e : Entry) :
    (e.setOrigin (if limited then o else e.origin)).countPass.setStarved = e.served limited o true := by
  by_cases opened : e.state = .opened <;>
    simp [Entry.setStarved, Entry.setOrigin, Entry.countPass, Entry.served, opened]

/-- The fill's origin, pass and starved mark pass to the entry as one change. -/
theorem updEntry_served (limited : Bool) (o : Origin) (starved : Bool) (s : State) :
    (if starved = true then
      updEntry tr Entry.setStarved (updEntry tr (fun e => (e.setOrigin (if limited then o else e.origin)).countPass) s)
    else updEntry tr (fun e => (e.setOrigin (if limited then o else e.origin)).countPass) s) =
      updEntry tr (Entry.served limited o starved) s := by
  cases starved with
  | false => exact congrArg (fun g => updEntry tr g s) (funext fun e => served_of_fed limited o e)
  | true =>
    refine (updEntry_updEntry _ _ (fun e => ?_) s).trans
      (congrArg (fun g => updEntry tr g s) (funext fun e => served_of_starved limited o e))
    exact (Entry.countPass_track _).trans (Entry.setOrigin_track _ _)

theorem serveFill_served : serveFill kind tr open_ s = finishJobPass tr (updEntry tr
    (Entry.served (decide (Config.stationFrames ≤ stationFramesHeld s)) (fetchOrigin kind) (fetchTallies s).starved)
    (updJob tr (fillServed kind open_ s) s)) :=
  congrArg (finishJobPass tr) (updEntry_served _ _ _ _)

/-! ### The parts of the statement -/

theorem entryOf_updEntry_of_some {f : Entry → Entry} (hf : ∀ e, (f e).track = e.track) (entry : entryOf tr s = some e) :
    entryOf tr (updEntry tr f s) = some (f e) := by
  rw [entryOf_updEntry _ _ hf, entry]
  rfl

theorem endJob_handsOn (k : JobEnd) (force quiet : Bool) (j : Job) (s : State) :
    ChangesOnly [.cps, .jbq, .tks, .rct, .evq] s (endJob k force quiet j s) ∧
    (endJob k force quiet j s).jbq = { s.jbq with jobs := s.jbq.jobs.filter fun x => x.track != j.track } ∧
    (∀ i, copiesOf ⟨j.track, i⟩ (endJob k force quiet j s).cps = []) ∧
    (∀ a, a.track ≠ j.track → copiesOf a (endJob k force quiet j s).cps = copiesOf a s.cps) ∧
    (endJob k force quiet j s).rct.peakPasses = max s.rct.peakPasses j.counter ∧
    (j.holdsFrame = false → (endJob k force quiet j s).tks = s.tks) ∧
    (∀ f, j.holdsFrame = true → frameOf j.track s = some f → FrameHandedOn j f s (endJob k force quiet j s)) ∧
    ((∀ e, entryOf j.track s = some e → e.state ≠ .opened) →
      (endJob k force quiet j s).rct.entries = s.rct.entries ∧ (endJob k force quiet j s).evq = s.evq) ∧
    ∀ e, entryOf j.track s = some e → e.state = .opened →
      EntryHandedOn k force quiet j e s (endJob k force quiet j s) := by
  refine ⟨endJob_changes k force quiet j, endJob_jbq k force quiet j s, fun i => ?_, fun a other => ?_,
    endJob_peak k force quiet j s, fun frameless => ?_, fun f => endJob_frame, endJob_of_closed, fun e => endJob_entry⟩
  · rw [endJob_cps]
    exact copiesOf_freeTrack _ _ _
  · rw [endJob_cps]
    exact copiesOf_freeTrack_ne _ other
  · rw [endJob_tks, endFrame_of_frameless frameless]

theorem fetchOrigin_of (origins : kind = .demandFetch ∧ origin = .machine ∨ kind = .prefetch ∧ origin = .prefetch) :
    fetchOrigin kind = origin := by
  rcases origins with ⟨rfl, rfl⟩ | ⟨rfl, rfl⟩ <;> rfl

/-- A fetch with sectors not GOOD makes a job and opens the entry (R96, R133, R135). -/
theorem createFetchedJob_handsOn {ft : FetchTallies} (fetch : s.jbq.fetch = some ft) (origins : fetchOrigin kind = origin)
    (u_eq : u = dropFetchTallies (createFetchedJob kind tr open_ s)) :
    ChangesOnly [.jbq, .rct, .evq] s u ∧
    u.jbq = { s.jbq with
      fetch := none
      jobs := s.jbq.jobs ++ [⟨tr, origin, .queued, true,
        open_.map fun i => (ft.tallies.find? fun y => y.sector == i).getD ⟨i, 0, 0, none⟩,
        1, 1, false, 0, 0, 1, none, ft.starved⟩] } ∧
    (∀ e, entryOf tr s = some e → u.evq = s.evq ∧ entryOf tr u = some { e with
      state := .opened, origin := origin, runs := min 255 (e.runs + 1), passes := min 65535 (e.passes + 1)
      exported := false, starved := e.starved || ft.starved, outcomes := open_.map fun i => ⟨i, .pending⟩ }) ∧
    (entryOf tr s = none → ∃ x, x = createEntry tr origin .opened 1 ft.starved (open_.map fun i => ⟨i, .pending⟩) s ∧
      u.rct = x.rct ∧ u.evq = x.evq) := by
  subst u_eq
  have tallies := fetchTallies_of_fetch fetch
  refine ⟨(createFetchedJob_beyond_copies kind tr open_ s).andThen (updJbq_changes _) (by decide), ?_,
    fun e entry => ?_, fun none => ⟨_, rfl, ?_⟩⟩
  · show { (createFetchedJob kind tr open_ s).jbq with fetch := none } = _
    rw [createFetchedJob_jbq, tallies, ← origins]
    rfl
  · rw [createFetchedJob_of_entry entry, tallies, origins]
    refine ⟨rfl, ?_⟩
    exact entryOf_updEntry_of_some (f := reopenFetched origin ft.starved (pendingOutcomes open_)) (fun _ => rfl) entry
  · rw [createFetchedJob_of_no_entry none, tallies, origins]
    exact createEntry_congr (addJob_changes (s := s) _)

/-- A fetch that can make no job fails its sectors, records PARTIAL and offers QUEUE_FULL last (R98, R119, R133). -/
theorem failFetch_handsOn {ft : FetchTallies} (fetch : s.jbq.fetch = some ft) (origins : fetchOrigin kind = origin)
    (frame : frameOf tr s = some f) (u_eq : u = dropFetchTallies (failFetch kind tr open_ s)) :
    ChangesOnly [.cps, .jbq, .tks, .rct, .evq] s u ∧ u.jbq = { s.jbq with fetch := none } ∧
    (∀ i, copiesOf ⟨tr, i⟩ u.cps = []) ∧
    (∃ f', frameOf tr u = some f' ∧ f'.exportPending = f.exportPending ∧
      ∀ i, f'.sectors[i]? = if i ∈ open_ then (f.sectors[i]?).map failRecord else f.sectors[i]?) ∧
    LastOffered .queueFull (some tr) open_.length u ∧
    ∀ os, os = open_.map (fun i => (⟨i, .failed (copiesOf ⟨tr, i⟩ s.cps).length .queueFull⟩ : OutcomeRec)) →
      (∀ e, entryOf tr s = some e → u.evq = (offer .queueFull (some tr) open_.length s).evq ∧
        entryOf tr u = some { e with
          state := .incomplete, origin := origin, runs := min 255 (e.runs + 1), passes := min 65535 (e.passes + 1)
          exported := false, starved := e.starved || ft.starved, outcomes := os }) ∧
      (entryOf tr s = none → ∃ x, x = createEntry tr origin .incomplete 1 ft.starved os s ∧
        u.rct = x.rct ∧ u.evq = (offer .queueFull (some tr) open_.length x).evq) := by
  subst u_eq
  have tallies := fetchTallies_of_fetch fetch
  have framed : ChangesOnly [.tks] s (updFrame tr (failSectors open_) s) := updFrame_changes _ _
  obtain ⟨v, recorded, split⟩ := failFetch_split (s := s) (tr := tr) (open_ := open_) (kind := kind)
  have offered := (recorded.andThen (offer_changes .queueFull (some tr) open_.length) (by decide))
  have freed : (dropFetchTallies (failFetch kind tr open_ s)).cps = freeTrack tr s.cps := by
    rw [split]
    exact congrArg (freeTrack tr) (offered.cps.trans framed.cps)
  refine ⟨(failFetch_changes kind tr open_).andThen (updJbq_changes _) (by decide), ?_, fun i => ?_, ?_, ?_, ?_⟩
  · rw [split]
    exact congrArg (fun q : Jbq => { q with fetch := none }) (offered.jbq.trans framed.jbq)
  · rw [freed]
    exact copiesOf_freeTrack _ _ _
  · obtain ⟨f', after, rest⟩ := updFrame_failSectors frame open_
    rw [split]
    exact ⟨f', (frameOf_congr _ (congrArg Tks.frames offered.tks)).trans after, rest⟩
  · rw [split]
    exact lastOffered_offer _ _ _ v
  · rintro os rfl
    refine ⟨fun e entry => ?_, fun none => ⟨_, rfl, ?_⟩⟩
    · rw [failFetch_of_entry entry, tallies, origins]
      refine ⟨rfl, ?_⟩
      exact entryOf_updEntry_of_some (s := s) (f := fun e =>
        { reopenFetched origin ft.starved (queueFullOutcomes (copyCount s tr) open_) e with state := .incomplete })
        (fun _ => rfl) entry
    · rw [failFetch_of_no_entry none, tallies, origins]
      obtain ⟨rct, evq⟩ := createEntry_congr (tr := tr) (origin := origin) (st := .incomplete) (n := 1)
        (starved := ft.starved) (os := queueFullOutcomes (copyCount s tr) open_) framed
      have made (v : State) : ChangesOnly [.rct, .evq] v (createEntry tr origin .incomplete 1 ft.starved
          (queueFullOutcomes (copyCount s tr) open_) v) := createEntry_changes _ _ _ _ _ _
      have mcp := (made (updFrame tr (failSectors open_) s)).mcp.trans framed.mcp
      have clock := (made (updFrame tr (failSectors open_) s)).clock.trans framed.clock
      exact ⟨rct, offer_evq_congr evq (mcp.trans (made s).mcp.symm) (clock.trans (made s).clock.symm)⟩

/-- A fetch serves as the fill of the job its track has (R97, R136, R137). -/
theorem serveFill_handsOn {ft : FetchTallies} (fetch : s.jbq.fetch = some ft) (origins : fetchOrigin kind = origin)
    (u_eq : u = dropFetchTallies (serveFill kind tr open_ s)) : ∃ w, ChangesOnly [.jbq, .rct] s w ∧
      u = { finishJobPass tr w with jbq := { (finishJobPass tr w).jbq with fetch := none } } ∧
      w.jbq = { s.jbq with jobs := s.jbq.jobs.map fun x => if x.track = tr then { x with
        origin := if 6 ≤ stationFramesHeld s then origin else x.origin, holdsFrame := true, counter := 1
        tallies := open_.map fun i => (ft.tallies.find? fun y => y.sector == i).getD ⟨i, 0, 0, none⟩
        starved := x.starved || ft.starved } else x } ∧
      w.rct = { s.rct with entries := s.rct.entries.map fun e => if e.track = tr ∧ e.state = .opened then { e with
        origin := if 6 ≤ stationFramesHeld s then origin else e.origin, passes := min 65535 (e.passes + 1)
        starved := e.starved || ft.starved } else e } := by
  subst u_eq
  refine ⟨_, ((updJob_changes tr (fillServed kind open_ s)).mono (by decide)).andThen
    (updEntry_changes tr (Entry.served (decide (Config.stationFrames ≤ stationFramesHeld s)) (fetchOrigin kind)
      (fetchTallies s).starved)) (by decide), by rw [serveFill_served]; rfl, ?_, ?_⟩ <;>
    rw [fetchTallies_of_fetch fetch, origins]
  · have job : fillServed kind open_ s = fun x : Job => { x with
        origin := if 6 ≤ stationFramesHeld s then origin else x.origin, holdsFrame := true, counter := 1
        tallies := open_.map fun i => (ft.tallies.find? fun y => y.sector == i).getD ⟨i, 0, 0, none⟩
        starved := x.starved || ft.starved } := by
      funext x
      simp only [fillServed, fetchTallies_of_fetch fetch, origins, decide_eq_true_eq]
      rfl
    rw [job]
    rfl
  · have served (x : Entry) : (if x.track = tr then
          x.served (decide (Config.stationFrames ≤ stationFramesHeld s)) origin ft.starved else x) =
        if x.track = tr ∧ x.state = .opened then { x with
          origin := if 6 ≤ stationFramesHeld s then origin else x.origin, passes := min 65535 (x.passes + 1)
          starved := x.starved || ft.starved } else x := by
      simp only [Entry.served, ite_and, decide_eq_true_eq]
      rfl
    exact congrArg (fun es => { s.rct with entries := es }) (List.map_congr_left fun x _ => served x)

/-- The end of a job's pass takes the end of its fill first (R105, R133, R136). -/
theorem finishJobPass_handsOn (job : jobOf tr s = some j) (u_eq : u = finishJobPass tr s) :
    (j.fill = false → u = advanceJob tr s) ∧
    (j.fill = true → ∃ w, u = advanceJob tr w ∧ ChangesOnly [.rct, .evq] s w ∧
      (∀ e, entryOf tr s = some e → w.evq = s.evq ∧
        w.rct = { s.rct with entries := s.rct.entries.map fun e => if e.track = tr then
          if j.tallies = [] then { e with
            outcomes := e.outcomes.map fun o => if o.result = .pending then ⟨o.sector, .retryGood 0 0 1⟩ else o
            successStep := some 0
            exported := e.exported && e.outcomes.all fun o => o.result != .pending }
          else { e with outcomes := j.openSet.map fun i => ⟨i, .pending⟩ }
          else e }) ∧
      (entryOf tr s = none →
        (j.tallies = [] → w = s) ∧
        (j.tallies ≠ [] →
          w = createEntry tr j.origin .opened 1 j.starved (j.openSet.map fun i => ⟨i, .pending⟩) s))) := by
  subst u_eq
  obtain rfl := jobOf_track job
  refine ⟨finishJobPass_of_pass job, fun fill => ⟨_, finishJobPass_of_fill job fill, recordRefill_changes j,
    fun e entry => ?_, fun none => ?_⟩⟩
  · simp only [recordRefill_of_entry entry, State.updRct_rct, State.updRct_evq, refillGood_eq, true_and]
    rfl
  · rw [recordRefill_of_no_entry none]
    exact ⟨fun clean => if_pos clean, fun left => if_neg left⟩

/-- A new entry joins the table, or TABLE_FULL is offered (R133, R134). -/
theorem createEntry_handsOn (u_eq : u = createEntry tr origin st n starved os s) :
    (s.rct.nextSequence ≤ 4294967295 → s.rct.entries.length < 512 → u.evq = s.evq ∧
      u.rct = { s.rct with
        entries := s.rct.entries ++ [newEntry s tr origin st n starved os], nextSequence := s.rct.nextSequence + 1 }) ∧
    (∀ pre x post, s.rct.nextSequence ≤ 4294967295 → 512 ≤ s.rct.entries.length → s.rct.entries = pre ++ x :: post →
      x.exported = true → x.state ≠ .opened → (∀ y ∈ pre, ¬ (y.exported = true ∧ y.state ≠ .opened)) → u.evq = s.evq ∧
      u.rct = { s.rct with
        entries := pre ++ post ++ [newEntry s tr origin st n starved os], nextSequence := s.rct.nextSequence + 1 }) ∧
    (4294967295 < s.rct.nextSequence ∨
        512 ≤ s.rct.entries.length ∧ (∀ y ∈ s.rct.entries, ¬ (y.exported = true ∧ y.state ≠ .opened)) →
      u = offer .tableFull (some tr) os.length s) := by
  subst u_eq
  refine ⟨fun sequence room => ?_, fun pre x post sequence full split exported closed first => ?_, fun spent => ?_⟩
  · rw [createEntry_of_entries (entriesWithRoom_of_room sequence room)]
    exact ⟨rfl, rfl⟩
  · rw [createEntry_of_entries (entriesWithRoom_of_removable sequence full split
      ((removable_iff x).mpr ⟨exported, closed⟩) fun y mem gone => first y mem ((removable_iff y).mp gone))]
    exact ⟨rfl, rfl⟩
  · exact createEntry_of_full (entriesWithRoom_of_full (spent.imp_right fun ⟨full, held⟩ =>
      ⟨full, fun y mem gone => held y mem ((removable_iff y).mp gone)⟩))

end Sys2Proof.Machine

open Sys2Proof Sys2Proof.Machine

/-- Settles O54: the job's end part by part, the end of a fetch by its cases, the fill's end, and the new entry. -/
theorem jobEndHandsOn : Obligations.JobEndHandsOn := by
  refine ⟨?_, ?_, ?_, fun s u tr origin st n starved os => createEntry_handsOn⟩
  · rintro s u j k force quiet rfl -
    exact endJob_handsOn k force quiet j s
  · rintro s u tr kind f open_ ft origin rfl origins frame fetch rfl
    have origin_eq := fetchOrigin_of origins
    refine ⟨rfl, fun free clean => ?_, fun free left room => ?_, fun pre x post free left full split prefetch idle last
      alone => endFetch_makes_room frame free left full split prefetch idle last alone, fun free left full none => ?_,
      fun j job => ?_⟩
    · rw [endFetch_of_clean frame free clean]
      exact ⟨((updCps_changes _).mono (by decide)).andThen (updJbq_changes _) (by decide), rfl,
        fun i => copiesOf_freeTrack _ _ _, fun a other => copiesOf_freeTrack_ne _ other⟩
    · exact createFetchedJob_handsOn fetch origin_eq (endFetch_creates frame free left room)
    · exact failFetch_handsOn fetch origin_eq frame
        (endFetch_fails frame free left full (removablePrefetch_of_none none))
    · exact serveFill_handsOn fetch origin_eq (endFetch_serves frame job)
  · rintro s u tr j u_eq job
    exact finishJobPass_handsOn job u_eq

end


section
/-! PROOF. CANCEL_JOB (R66, R84, R107 to R109, R119, R138, R187). -/

namespace Sys2Proof.Machine

variable {s u : State} {j : Job} {f : Frame} {e : Entry} {tr : Track} {p : List Byte}

/-! ### The answer (R109) -/

theorem failedByEnd_of_frameless (frameless : j.holdsFrame = false) : failedByEnd j s = 0 :=
  if_neg (by simp [frameless])

theorem failedByEnd_of_released (frame : frameOf j.track s = some f) (fill : j.fill = true) (empty : f.allEmpty = true) :
    failedByEnd j s = 0 :=
  if_neg (by simp [releasesFrame_eq frame, fill, empty])

theorem failedByEnd_of_kept (holds : j.holdsFrame = true) (frame : frameOf j.track s = some f)
    (kept : j.fill = false ∨ f.allEmpty = false) :
    failedByEnd j s = j.openSet.countP fun i => (f.sectors[i]?).any SectorRec.unresolved := by
  have stays : releasesFrame j s = false := by
    rw [releasesFrame_eq frame]
    rcases kept with off | full <;> simp [*]
  rw [failedByEnd, if_pos (by simp [holds, stays]), frame]

/-! ### The job and its grant -/

theorem takeCancelJob_of_job (job : jobOf (trackOf p) s = some j) (cyl : (trackOf p).cyl < s.geom.cylinders)
    (head : (trackOf p).head < s.geom.heads) :
    takeCancelJob p s = answer .ok 0x22 (u8 (failedByEnd j s)) (cancelJob j s) := by
  rw [takeCancelJob, if_pos (by simp [inGeometry, cyl, head]), job]

theorem takeCancelJob_of_no_job (free : jobOf (trackOf p) s = none) (cyl : (trackOf p).cyl < s.geom.cylinders)
    (head : (trackOf p).head < s.geom.heads) : takeCancelJob p s = refuse .notFound 0x22 s := by
  rw [takeCancelJob, if_pos (by simp [inGeometry, cyl, head]), free]

theorem takeCancelJob_outside (outside : s.geom.cylinders ≤ (trackOf p).cyl ∨ s.geom.heads ≤ (trackOf p).head) :
    takeCancelJob p s = refuse .range 0x22 s := by
  rw [takeCancelJob, if_neg (by simp only [inGeometry, Bool.and_eq_true, decide_eq_true_eq]; omega)]

theorem firstQueued_of_offered {v : State} {kind : EventKind} {at_ : Option Track} {n : Nat} (same : v.evq = s.evq)
    (offered : u.evq = (offer kind at_ n v).evq) : FirstQueued kind at_ n s u := by
  intro room
  rw [offered]
  exact firstQueued_of_offer same (.refl _) room

theorem EndedOutcome.of_same_copies {v : State} {k : JobEnd} {o o' : OutcomeRec} (h : EndedOutcome k j v o o')
    (cps : v.cps = s.cps) : EndedOutcome k j s o o' := by
  rwa [EndedOutcome, cps] at h

/-- The state of a cancelled job before the port's test and arbitration. -/
def cancelled (j : Job) (s : State) : State :=
  endJob (.cause .cancelled) j.fill false j (cancelGrant j.track s)

theorem cancelled_changes (j : Job) (s : State) : ChangesOnly driveBlocks s (cancelled j s) :=
  ((cancelGrant_changes j.track).mono (by decide)).andThen (endJob_changes _ _ _ _) (by decide)

/-- The job's end leaves the sequencer, the channel and the Vote Engine as the end of its grant does. -/
theorem cancelled_drive (j : Job) (s : State) : (cancelled j s).dsq = (cancelGrant j.track s).dsq ∧
    (cancelled j s).rdc = (cancelGrant j.track s).rdc ∧ (cancelled j s).vte = (cancelGrant j.track s).vte :=
  have only := endJob_changes (s := cancelGrant j.track s) (.cause .cancelled) j.fill false j
  ⟨only.2 .dsq (by decide), only.2 .rdc (by decide), only.2 .vte (by decide)⟩

/-- What the end of a cancelled job makes of the frame and the answer (R108, R109, R119). -/
theorem cancelled_frame (holds : j.holdsFrame = true) (frame : frameOf j.track s = some f) :
    (j.fill = true → f.allEmpty = true → failedByEnd j s = 0 ∧
      (cancelled j s).tks = { s.tks with frames := s.tks.frames.filter fun x => x.track != j.track }) ∧
    (j.fill = false ∨ f.allEmpty = false →
      failedByEnd j s = j.openSet.countP (fun i => (f.sectors[i]?).any SectorRec.unresolved) ∧
      ∃ f', frameOf j.track (cancelled j s) = some f' ∧ f'.exportPending = f.exportPending ∧ ∀ i,
        f'.sectors[i]? = if i ∈ j.openSet then (f.sectors[i]?).map failRecord else f.sectors[i]?) := by
  have before : ChangesOnly [.dsq, .rdc, .vte] s (cancelGrant j.track s) := cancelGrant_changes _
  obtain ⟨released, kept⟩ := endJob_frame (k := .cause .cancelled) (force := j.fill) (quiet := false) holds
    ((frameOf_congr _ (congrArg Tks.frames before.tks)).trans frame)
  refine ⟨fun fill empty => ⟨failedByEnd_of_released frame fill empty, ?_⟩,
    fun stays => ⟨failedByEnd_of_kept holds frame stays, kept stays⟩⟩
  rw [cancelled, released fill empty, before.tks]

/-- What the end of a cancelled job makes of its OPEN entry (R107, R138). -/
theorem cancelled_entry (entry : entryOf j.track s = some e) (opened : e.state = .opened) :
    ∃ e' os, entryOf j.track (cancelled j s) = some e' ∧
      e' = { e with state := e'.state, outcomes := os } ∧ e'.state ≠ .opened ∧
      List.Forall₂ (EndedOutcome (.cause .cancelled) j s) e.outcomes os ∧
      (e'.state = .incomplete ↔ j.fill = true ∨ ∃ o ∈ os, o.result.isFailed = true) ∧
      (e'.state = .recovered → FirstQueued .trackRecovered (some j.track) os.length s (cancelled j s)) ∧
      (e'.state = .incomplete →
        FirstQueued .trackPartial (some j.track) (os.countP fun o => o.result.isFailed) s (cancelled j s)) := by
  have before : ChangesOnly [.dsq, .rdc, .vte] s (cancelGrant j.track s) := cancelGrant_changes _
  obtain ⟨e', os, entry', same, closed, outcomes, incomplete, -, recovered, partial_⟩ := endJob_entry
    (k := .cause .cancelled) (force := j.fill) (quiet := false)
    ((entryOf_congr _ (congrArg Rct.entries before.rct)).trans entry) opened
  exact ⟨e', os, entry', same, closed, outcomes.imp fun _ _ h => h.of_same_copies before.cps, incomplete,
    fun told => firstQueued_of_offered before.evq (recovered rfl told),
    fun told => firstQueued_of_offered before.evq (partial_ rfl told)⟩

end Sys2Proof.Machine

open Sys2Proof Sys2Proof.Machine

/-- Settles O36: the job's grant ends, and then the job as every job does, in the state that the grant's end leaves; that
state has the frame, the copies, the entry and the queue as they were. -/
theorem cancelJobEndsTheJob : Obligations.CancelJobEndsTheJob := by
  rintro s p tr taking rfl
  have taken := takeRequest_of_taking takeCancelJob taking
  refine ⟨fun outside => ?_, fun cyl head free => ?_, fun j cyl head job => ?_⟩
  · rw [takeCancelJob_outside outside] at taken
    exact ⟨_, congrArg Host.Outcome.next taken, refuse_changes _ _, answer_answered _ _ _⟩
  · rw [takeCancelJob_of_no_job free cyl head] at taken
    exact ⟨_, congrArg Host.Outcome.next taken, refuse_changes _ _, answer_answered _ _ _⟩
  · rw [takeCancelJob_of_job job cyl head] at taken
    obtain ⟨dsq, rdc, vte⟩ := cancelled_drive j s
    have before : ChangesOnly [.dsq, .rdc, .vte] s (cancelGrant j.track s) := cancelGrant_changes _
    obtain ⟨-, jbq, freed, others, peak, frameless, -, closed, -⟩ :=
      endJob_handsOn (.cause .cancelled) j.fill false j (cancelGrant j.track s)
    rw [before.jbq] at jbq
    rw [before.cps] at others
    rw [before.rct] at peak
    rw [before.tks] at frameless
    rw [entryOf_congr _ (congrArg Rct.entries before.rct), before.rct, before.evq] at closed
    rw [← jobOf_track job]
    refine ⟨_, cancelled j s, cancelJob j s, failedByEnd j s, congrArg Host.Outcome.next taken, cancelled_changes j s, rfl,
      answer_answered _ _ _, answer_changes _ _ _, (endJob_changes _ _ _ _).mcp.trans before.mcp, jbq,
      fun g grant kind track => ?_, fun other => ?_, freed, others,
      fun off => ⟨failedByEnd_of_frameless off, frameless off⟩, fun f => cancelled_frame, peak, closed,
      fun e => cancelled_entry⟩
    · obtain ⟨dsq', rdc', vte'⟩ := cancelGrant_of_held grant kind track
      rw [dsq, rdc, vte, dsq', rdc', vte']
      refine ⟨rfl, rfl, ?_, rfl⟩
      split <;> rfl
    · rw [dsq, rdc, vte, cancelGrant_of_other other]
      exact ⟨rfl, rfl, rfl⟩

end


section
/-! PROOF. The bit window: what a word and a marginal count are read as (R54; log entry 7). -/

namespace Sys2Proof.Machine

variable {shift : Int} {flux cells : List Int}

/-! ### Words from bits -/

/-- The last bit given is the least significant. -/
theorem getLsbD_wordOfBits (bs : List Bool) {i : Nat} (inside : i < 16) :
    (wordOfBits bs).getLsbD i = bs.reverse.getD i false := by
  induction bs using List.reverseRecOn generalizing i with
  | nil => simp [wordOfBits]
  | append_singleton bs b ih =>
    have shifted : wordOfBits (bs ++ [b]) = (wordOfBits bs <<< 1) ||| (if b then 1 else 0) := by
      simp only [wordOfBits, List.foldl_append, List.foldl_cons, List.foldl_nil]
    rw [shifted, BitVec.getLsbD_or, BitVec.getLsbD_shiftLeft, List.reverse_append]
    cases i with
    | zero => cases b <;> simp
    | succ i =>
      have bit : (if b then 1 else 0 : Word).getLsbD (i + 1) = false := by cases b <;> simp
      rw [bit, Nat.add_sub_cancel, ih (by omega)]
      simp [inside]

/-- Sixteen bits are a word's, most significant first. -/
theorem getMsbD_wordOfBits (f : Nat → Bool) {b : Nat} (inside : b < 16) :
    (wordOfBits ((List.range 16).map f)).getMsbD b = f b := by
  rw [BitVec.getMsbD, getLsbD_wordOfBits _ (by omega), List.getD_eq_getElem?_getD, List.getElem?_reverse (by simp; omega)]
  simp [inside, show 16 - 1 - (16 - 1 - b) = b by omega]

/-! ### The cells -/

theorem cellOf_iff (x : Int) (n : Nat) : cellOf shift x = n ↔ 8 * (n : Int) ≤ x - shift ∧ x - shift < 8 * (n : Int) + 8 := by
  show (x - shift) / 8 = n ↔ _
  omega

/-- A cell of a word reads 1 when a transition falls in its window. -/
theorem getMsbD_wordFromCells (k : Nat) {b : Nat} (inside : b < 16) :
    (wordFromCells (cellsWithFlux shift flux) k).getMsbD b = true ↔ ∃ x ∈ flux,
      8 * ((16 * k + b : Nat) : Int) ≤ x - shift ∧ x - shift < 8 * ((16 * k + b : Nat) : Int) + 8 := by
  rw [wordFromCells, getMsbD_wordOfBits _ inside, List.contains_iff_mem, cellsWithFlux, List.mem_map]
  exact exists_congr fun x => and_congr_right fun _ => cellOf_iff x _

/-- The marginal transitions are those in the first and last eighths of the windows. -/
theorem marginalsIn_eq (cells : Nat) : marginalsIn cells shift flux = flux.countP fun x =>
    decide (0 ≤ x - shift ∧ x - shift < 8 * (cells : Int) ∧ ((x - shift) % 8 = 0 ∨ (x - shift) % 8 = 7)) := by
  refine List.countP_congr fun x _ => ?_
  simp only [Bool.and_eq_true, decide_eq_true_eq, isMarginal, Bool.or_eq_true, beq_iff_eq]
  show ((0 ≤ (x - shift) / 8 ∧ (x - shift) / 8 < (cells : Int)) ∧ ((x - shift) % 8 = 0 ∨ (x - shift) % 8 = 8 - 1)) ↔ _
  omega

/-! ### The transitions of a field -/

theorem mem_placedAt {n : Nat} (words : Nat) (xs : List (Fin n)) (x : Int) :
    x ∈ placedAt words xs ↔ ∃ v ∈ xs, x = ((128 * words : Nat) : Int) + (v.val : Int) := by
  simp [placedAt, eq_comm]

end Sys2Proof.Machine
end


section
/-! PROOF. The nearest sector, the tallies of a pass, and HEADER (R50 to R55, R104). -/

namespace Sys2Proof.Machine

variable {s : State} {p : PassContext} {g : Grant} {mark : Timer} {h : HeaderRead} {tr : Track} {i : Nat}

/-! ### The nearest sector (R51) -/

/-- The place of a least value among the first `n`, the first of equals. -/
structure FirstLeast (d : Nat → Nat) (n k : Nat) : Prop where
  least : ∀ x, x < n → d k ≤ d x
  first : ∀ x, x < k → d k < d x

theorem foldl_firstLeast (d : Nat → Nat) (n : Nat) :
    (List.range n).foldl (fun best i => if d i < d best then i else best) 0 < max n 1 ∧
      FirstLeast d n ((List.range n).foldl (fun best i => if d i < d best then i else best) 0) := by
  induction n with
  | zero => exact ⟨by simp, by simp, by simp⟩
  | succ n ih =>
    rw [List.range_succ, List.foldl_append]
    generalize (List.range n).foldl (fun best i => if d i < d best then i else best) 0 = best at ih ⊢
    obtain ⟨inside, least, first⟩ := ih
    show (if d n < d best then n else best) < _ ∧ FirstLeast d (n + 1) (if d n < d best then n else best)
    split
    · have below : ∀ x, x < n → d n < d x := fun x h => Nat.lt_of_lt_of_le ‹_› (least x h)
      refine ⟨by omega, fun x h => ?_, below⟩
      rcases Nat.lt_succ_iff_lt_or_eq.mp h with before | rfl
      · exact Nat.le_of_lt (below x before)
      · exact Nat.le_refl _
    · refine ⟨by omega, fun x h => ?_, first⟩
      rcases Nat.lt_succ_iff_lt_or_eq.mp h with before | rfl
      · exact least x before
      · omega

theorem FirstLeast.unique {d : Nat → Nat} {n k l : Nat} (hk : FirstLeast d n k) (hl : FirstLeast d n l) (k_lt : k < n)
    (l_lt : l < n) : k = l := by
  rcases Nat.lt_trichotomy k l with before | same | after
  · exact absurd (hl.first k before) (Nat.not_lt.mpr (hk.least l l_lt))
  · exact same
  · exact absurd (hk.first l after) (Nat.not_lt.mpr (hl.least k k_lt))

/-- The sector whose expected time is nearest, the lower of two equally near. -/
theorem nearestSector_eq {arrival k : Nat} (inside : k < p.sectors)
    (least : ∀ x, x < p.sectors → timeDistance p arrival k ≤ timeDistance p arrival x)
    (first : ∀ x, x < k → timeDistance p arrival k < timeDistance p arrival x) : nearestSector p arrival = k := by
  obtain ⟨found, nearest⟩ := foldl_firstLeast (timeDistance p arrival) p.sectors
  exact nearest.unique ⟨least, first⟩ (by omega) inside

theorem deviationOf_eq (arrival i : Nat) : deviationOf p arrival i =
    max (-32768) (min 32767 ((arrival : Int) - (p.headerOffset + ((i : Int) * p.average) / p.sectors))) :=
  clampInt_eq _ _ _ (by decide)

/-! ### The tallies of a pass (R51, R58, R104) -/

theorem fetchPass_of_grant (grant : s.dsq.grant = some g) : fetchPass s.dsq = (g.kind != .jobPass) := by
  rw [fetchPass, grant]
  rfl

/-- In a job's pass a tally of the job changes. -/
theorem tallyPass_of_job (grant : s.dsq.grant = some g) (kind : g.kind = .jobPass) (f : Tally → Tally) :
    tallyPass tr i f s = updJob tr (fun j => { j with tallies := updTally i f j.tallies }) s :=
  if_neg (by simp [fetchPass_of_grant grant, kind])

/-- In a fetch's pass a tally of the fetch changes. -/
theorem tallyPass_of_fetch {ft : FetchTallies} (grant : s.dsq.grant = some g) (kind : g.kind ≠ .jobPass)
    (fetch : s.jbq.fetch = some ft) (f : Tally → Tally) : tallyPass tr i f s =
      s.updJbq fun q => { q with fetch := some { ft with tallies := updTally i f ft.tallies } } := by
  rw [tallyPass, if_pos (by simp [fetchPass_of_grant grant, kind])]
  simp only [State.updJbq, fetch, Option.map_some]

/-! ### HEADER (R50 to R53) -/

theorem exec_header_of_pass (pass : s.rdc.pass = some p) (cyl head sector check : List (Fin 128)) (outside : List Int) :
    exec (.header mark cyl head sector check outside) s =
      .next (takeHeader p mark (readHeader s.rdc.shift (headerFlux cyl head sector check outside)) s) := by
  show execHeader mark cyl head sector check outside s = _
  rw [execHeader, pass]

theorem exec_header_outside (pass : s.rdc.pass = none) (cyl head sector check : List (Fin 128)) (outside : List Int) :
    exec (.header mark cyl head sector check outside) s = .next s := by
  show execHeader mark cyl head sector check outside s = _
  rw [execHeader, pass]

/-- The mark came after the opening one. -/
theorem not_beforeOpening (heard : (mark - p.reference).toNat < 2147483648) :
    ¬ beforeOpening mark p.reference = true :=
  fun before => absurd ((beforeOpening_iff _ _).mp before) (by omega)

theorem takeHeader_of_bad (heard : (mark - p.reference).toNat < 2147483648)
    (bad : check16 [h.cylinder, h.head, h.sector] ≠ h.check) :
    takeHeader p mark h s = badHeader p (mark - p.reference).toNat s :=
  (if_neg (not_beforeOpening heard)).trans (if_pos bad)

theorem takeHeader_of_here (heard : (mark - p.reference).toNat < 2147483648)
    (good : check16 [h.cylinder, h.head, h.sector] = h.check) (cyl : h.cylinder.toNat = p.track.cyl)
    (head : h.head.toNat = p.track.head) : takeHeader p mark h s =
      if h.sector.toNat < s.geom.sectors ∧ p.openSet.contains h.sector.toNat then
        beginCopy p (mark - p.reference).toNat h.sector.toNat h.check h.marginal s
      else s :=
  (if_neg (not_beforeOpening heard)).trans
    ((if_neg (not_not.mpr good)).trans (if_neg (not_or.mpr ⟨not_not.mpr cyl, not_not.mpr head⟩)))

theorem beginCopy_rdc (arrival i marginal : Nat) (check : Word) : (beginCopy p arrival i check marginal s).rdc =
    { s.rdc with assembly := some ⟨i, check, arrival,
      max (-32768) (min 32767 ((arrival : Int) - (p.headerOffset + ((i : Int) * p.average) / p.sectors))),
      min 255 marginal⟩ } := by
  simp only [beginCopy, State.updRdc_rdc, deviationOf_eq, addMarginal, Nat.zero_add]

/-- A check-bad header is counted for the nearest sector, if that is open (R51, R104). -/
theorem badHeader_counts {arrival k : Nat} (nearest : nearestSector p arrival = k) :
    ChangesOnly [.jbq] s (badHeader p arrival s) ∧ (k ∉ p.openSet → badHeader p arrival s = s) ∧
    (k ∈ p.openSet → ∀ g, s.dsq.grant = some g →
      (g.kind = .jobPass → (badHeader p arrival s).jbq = { s.jbq with jobs := s.jbq.jobs.map fun j =>
        if j.track = p.track then { j with tallies := j.tallies.map fun x =>
          if x.sector = k then { x with badHeaders := min 255 (x.badHeaders + 1) } else x } else j }) ∧
      (g.kind ≠ .jobPass → ∀ ft, s.jbq.fetch = some ft →
        (badHeader p arrival s).jbq = { s.jbq with fetch := some ⟨ft.tallies.map fun x =>
          if x.sector = k then { x with badHeaders := min 255 (x.badHeaders + 1) } else x, ft.starved⟩ })) := by
  have act : badHeader p arrival s = if p.openSet.contains k then tallyPass p.track k Tally.countBadHeader s else s := by
    rw [← nearest]
    rfl
  rw [act]
  refine ⟨.ite (tallyPass_changes _ _ _) (.refl _ _), fun closed => if_neg (by simpa using closed), fun opened g grant =>
    ⟨fun kind => ?_, fun kind ft fetch => ?_⟩⟩
  · rw [if_pos (by simpa using opened), tallyPass_of_job grant kind]
    rfl
  · rw [if_pos (by simpa using opened), tallyPass_of_fetch grant kind fetch]
    rfl

/-- What the bit window reads of a header. -/
theorem readHeader_window (shift : Int) (flux : List Int) :
    (∀ (k b : Nat) (w : Word),
      [(readHeader shift flux).cylinder, (readHeader shift flux).head, (readHeader shift flux).sector,
        (readHeader shift flux).check][k]? = some w → b < 16 →
      (w.getMsbD b = true ↔ ∃ x ∈ flux, 8 * ((16 * k + b : Nat) : Int) ≤ x - shift ∧
        x - shift < 8 * ((16 * k + b : Nat) : Int) + 8)) ∧
    (readHeader shift flux).marginal = flux.countP fun x => decide (0 ≤ x - shift ∧ x - shift < 512 ∧
      ((x - shift) % 8 = 0 ∨ (x - shift) % 8 = 7)) := by
  refine ⟨fun k b w word inside => ?_, marginalsIn_eq 64⟩
  have read : w = wordFromCells (cellsWithFlux shift flux) k := by
    match k, word with
    | 0, word | 1, word | 2, word | 3, word => exact (Option.some.inj word).symm
  rw [read]
  exact getMsbD_wordFromCells k inside

theorem mem_headerFlux (cyl head sector check : List (Fin 128)) (outside : List Int) (x : Int) :
    x ∈ headerFlux cyl head sector check outside ↔ (∃ v ∈ cyl, x = (v.val : Int)) ∨ (∃ v ∈ head, x = 128 + (v.val : Int)) ∨
      (∃ v ∈ sector, x = 256 + (v.val : Int)) ∨ (∃ v ∈ check, x = 384 + (v.val : Int)) ∨ x ∈ outside := by
  simp [headerFlux, mem_placedAt]

end Sys2Proof.Machine

open Sys2Proof Sys2Proof.Machine

/-- Settles O48: the words and the marginal count from the bit window, and HEADER by the branches of its act. -/
theorem headersBeginCopies : Obligations.HeadersBeginCopies := by
  refine ⟨?_, ?_⟩
  · rintro shift cyl head sector check outside h flux rfl rfl
    exact ⟨mem_headerFlux cyl head sector check outside, readHeader_window shift _⟩
  · intro s mark cyl head sector check outside h h_eq
    refine ⟨fun pass => exec_header_outside pass _ _ _ _ _, fun p arrival pass arrival_eq => ?_⟩
    have act := exec_header_of_pass (mark := mark) pass cyl head sector check outside
    rw [← h_eq] at act
    subst arrival_eq
    refine ⟨fun early => ?_, fun heard good here there => ⟨fun within opened => ?_, fun closed => ?_⟩,
      fun heard bad k inside least first => ?_⟩
    · rw [act, takeHeader_beforeOpening h ((beforeOpening_iff _ _).mpr early)]
    · rw [act, takeHeader_of_here heard good here there, if_pos ⟨within, by simpa using opened⟩]
      exact ⟨_, rfl, updRdc_changes _, beginCopy_rdc _ _ _ _⟩
    · rw [act, takeHeader_of_here heard good here there, if_neg (by simp [closed])]
    · rw [act, takeHeader_of_bad heard bad]
      exact ⟨_, rfl, badHeader_counts (nearestSector_eq inside least first)⟩

end


section
/-! PROOF. COPY_SEAL: what the bit window reads of a data field, the copy counted, and where a check-good copy goes
(R54, R57, R58, R65, R96, R104, R117, R137). -/

namespace Sys2Proof.Machine

variable {s : State} {p : PassContext} {a : Assembly} {g : Grant} {c : SealedCopy} {tr : Track} {i : Nat}

/-! ### The data field (R54, R56) -/

theorem mem_dataFlux (data : List (Fin 32768)) (check : List (Fin 128)) (outside : List Int) (x : Int) :
    x ∈ dataFlux data check outside ↔
      (∃ v ∈ data, x = (v.val : Int)) ∨ (∃ v ∈ check, x = 32768 + (v.val : Int)) ∨ x ∈ outside := by
  simp [dataFlux, mem_placedAt]

theorem readData_word (shift : Int) (flux : List Int) {k : Nat} (inside : k < 257) :
    (if k < 256 then (readData shift flux).data.val.getD k 0 else (readData shift flux).check) =
      wordFromCells (cellsWithFlux shift flux) k := by
  split
  · show ((List.range 256).map (wordFromCells (cellsWithFlux shift flux))).getD k 0 = _
    rw [List.getD_eq_getElem?_getD, List.getElem?_map, List.getElem?_range ‹_›]
    rfl
  · obtain rfl : k = 256 := by omega
    rfl

/-- What the bit window reads of a data field. -/
theorem readData_window (shift : Int) (flux : List Int) :
    (∀ k b, k < 257 → b < 16 →
      ((if k < 256 then (readData shift flux).data.val.getD k 0 else (readData shift flux).check).getMsbD b = true ↔
        ∃ x ∈ flux, 8 * ((16 * k + b : Nat) : Int) ≤ x - shift ∧ x - shift < 8 * ((16 * k + b : Nat) : Int) + 8)) ∧
    dataMarginals shift flux = flux.countP fun x => decide (0 ≤ x - shift ∧ x - shift < 32896 ∧
      ((x - shift) % 8 = 0 ∨ (x - shift) % 8 = 7)) := by
  refine ⟨fun k b word bit => ?_, marginalsIn_eq 4112⟩
  rw [readData_word shift flux word]
  exact getMsbD_wordFromCells k bit

/-! ### Frames and jobs changed -/

theorem frameOf_updFrame_of_some {f : Frame} {h : Frame → Frame} (hh : ∀ x, (h x).track = x.track)
    (frame : frameOf tr s = some f) : frameOf tr (updFrame tr h s) = some (h f) := by
  rw [frameOf_updFrame _ _ hh, frame]
  rfl

theorem updJob_updJob (f h : Job → Job) (hf : ∀ j, (f j).track = j.track) (s : State) :
    updJob tr h (updJob tr f s) = updJob tr (fun j => h (f j)) s := by
  have fused : ∀ j : Job, (if (if j.track = tr then f j else j).track = tr then h (if j.track = tr then f j else j)
      else (if j.track = tr then f j else j)) = if j.track = tr then h (f j) else j := by
    intro j
    by_cases here : j.track = tr <;> simp [here, hf]
  simp only [updJob, State.updJbq, List.map_map, Function.comp_def, fused]

theorem updJob_jbq_congr {u : State} (f : Job → Job) (same : u.jbq = s.jbq) :
    (updJob tr f u).jbq = (updJob tr f s).jbq := by
  simp only [updJob, State.updJbq_jbq, same]

/-! ### The copy counted (R58, R96, R104) -/

/-- A job that counts a copy captured for a sector. -/
def Job.countCopy (i : Nat) (j : Job) : Job :=
  { j with tallies := updTally i Tally.countCopy j.tallies }

/-- The state in which a sealed copy is delivered: the copy has left the channel, and is counted for its sector. -/
def countedCopy (c : SealedCopy) (s : State) : State :=
  tallyPass c.addr.track c.addr.sector Tally.countCopy
    (s.updRdc fun r => { r with lastDeviation := c.deviation, assembly := none })

theorem countedCopy_changes (c : SealedCopy) : ChangesOnly [.rdc, .jbq] s (countedCopy c s) :=
  ((updRdc_changes _).mono (by decide)).andThen (tallyPass_changes _ _ _) (by decide)

theorem countedCopy_rdc (c : SealedCopy) (s : State) :
    (countedCopy c s).rdc = { s.rdc with lastDeviation := c.deviation, assembly := none } :=
  (tallyPass_changes _ _ _).rdc

theorem countedCopy_of_job (grant : s.dsq.grant = some g) (kind : g.kind = .jobPass) :
    (countedCopy c s).jbq = (updJob c.addr.track (Job.countCopy c.addr.sector) s).jbq := by
  have counted : countedCopy c s = _ := tallyPass_of_job (s := s.updRdc _) grant kind _
  rw [counted]
  rfl

theorem countedCopy_of_fetch {ft : FetchTallies} (grant : s.dsq.grant = some g) (kind : g.kind ≠ .jobPass)
    (fetch : s.jbq.fetch = some ft) : (countedCopy c s).jbq =
      { s.jbq with fetch := some { ft with tallies := updTally c.addr.sector Tally.countCopy ft.tallies } } := by
  have counted : countedCopy c s = _ := tallyPass_of_fetch (s := s.updRdc _) grant kind fetch _
  rw [counted]
  rfl

theorem deliverCopy_of_good (good : c.good = true) :
    deliverCopy c s = testHold (deliverGood c (countedCopy c s)) :=
  congrArg testHold (if_pos good)

theorem deliverCopy_of_bad (bad : c.good = false) : deliverCopy c s = testHold (deliverBad c (countedCopy c s)) :=
  congrArg testHold (if_neg (by simp [bad]))

theorem exec_copySeal_of_assembly (pass : s.rdc.pass = some p) (assembly : s.rdc.assembly = some a)
    (data : List (Fin 32768)) (check : List (Fin 128)) (outside : List Int) : exec (.copySeal data check outside) s =
      .next (deliverCopy (sealCopy p a (readData s.rdc.shift (dataFlux data check outside))
        (dataMarginals s.rdc.shift (dataFlux data check outside))) s) := by
  show execCopySeal data check outside s = _
  rw [execCopySeal, pass, assembly]

theorem sealCopy_good (p : PassContext) (a : Assembly) (w : SectorWords) (m : Nat) :
    (sealCopy p a w m).good = true ↔ check16 w.data.val = w.check :=
  beq_iff_eq

/-! ### The good copy (R58, R65, R117, R137) -/

theorem modify_eq_set {α : Type} {l : List α} {x : α} (f : α → α) (at_ : l[i]? = some x) :
    l.modify i f = l.set i (f x) := by
  rw [List.modify_eq_set_getElem?, at_]
  rfl

theorem deliverGood_tks (c : SealedCopy) (s : State) :
    (deliverGood c s).tks = (updFrame c.addr.track (Frame.sealGood (plainPass s.dsq) c.addr.sector c.words) s).tks := by
  unfold deliverGood
  dsimp only
  split <;> split <;> rfl

theorem deliverGood_rct (c : SealedCopy) (s : State) : (deliverGood c s).rct =
    if plainPass s.dsq then s.rct
    else (updEntry c.addr.track (Entry.resolve c.addr.sector
      (.retryGood (copyCount s c.addr.track c.addr.sector) c.step c.passNo) c.step) s).rct := by
  unfold deliverGood
  dsimp only
  split <;> split <;> rfl

theorem deliverGood_jbq (c : SealedCopy) (s : State) : (deliverGood c s).jbq =
    if fetchPass s.dsq then s.jbq else (updJob c.addr.track (Job.close c.addr.sector) s).jbq := by
  unfold deliverGood
  dsimp only
  split <;> split <;> rfl

theorem plainPass_of_grant (grant : s.dsq.grant = some g) : plainPass s.dsq = (g.kind != .jobPass || g.fill) := by
  rw [plainPass, grant]
  rfl

theorem recordGood_of_unresolved (plain : Bool) (w : SectorWords) {r : SectorRec} (open_ : r.unresolved = true) :
    recordGood plain w r = if plain then .good w else .recovered w := by
  cases r with
  | empty => rfl
  | opened => rfl
  | good | recovered | failed => cases open_

theorem sealGood_sectors {f : Frame} {r : SectorRec} (plain : Bool) (w : SectorWords) (record : f.sectors[i]? = some r)
    (open_ : r.unresolved = true) :
    (f.sealGood plain i w).sectors = f.sectors.set i (if plain then .good w else .recovered w) := by
  rw [← recordGood_of_unresolved plain w open_]
  exact modify_eq_set _ record

theorem close_openSet (i : Nat) (j : Job) : (j.close i).openSet = j.openSet.filter fun x => x != i := by
  rw [Job.openSet, Job.openSet, List.filter_map]
  rfl

theorem updTally_sectors (f : Tally → Tally) (hf : ∀ t, (f t).sector = t.sector) (ts : List Tally) :
    (updTally i f ts).map Tally.sector = ts.map Tally.sector := by
  rw [updTally, List.map_map]
  refine List.map_congr_left fun t _ => ?_
  show (if t.sector = i then f t else t).sector = t.sector
  split
  · exact hf t
  · rfl

theorem countCopy_openSet (i : Nat) (j : Job) : (j.countCopy i).openSet = j.openSet :=
  updTally_sectors Tally.countCopy (fun _ => rfl) j.tallies

end Sys2Proof.Machine
end


section
/-! PROOF. COPY_SEAL of a check-good copy (R54, R57, R58, R65, R96, R117, R127, R137). -/

namespace Sys2Proof.Machine

variable {s : State} {p : PassContext} {a : Assembly} {g : Grant} {c : SealedCopy} {tr : Track} {i : Nat}

/-- The state in which a check-good copy has been delivered, before the port's test. -/
def deliveredGood (c : SealedCopy) (s : State) : State :=
  deliverGood c (countedCopy c s)

theorem countedCopy_plain (grant : s.dsq.grant = some g) :
    plainPass (countedCopy c s).dsq = (g.kind != .jobPass || g.fill) :=
  plainPass_of_grant (((congrArg Dsq.grant (countedCopy_changes c).dsq)).trans grant)

theorem countedCopy_fetch (grant : s.dsq.grant = some g) : fetchPass (countedCopy c s).dsq = (g.kind != .jobPass) :=
  fetchPass_of_grant (((congrArg Dsq.grant (countedCopy_changes c).dsq)).trans grant)

theorem deliveredGood_rdc (c : SealedCopy) (s : State) : (deliveredGood c s).rdc = { s.rdc with
    pass := s.rdc.pass.map fun p => { p with openSet := p.openSet.filter (· != c.addr.sector) }
    lastDeviation := c.deviation, assembly := none } := by
  rw [deliveredGood, (deliverGood_drive c _).2, countedCopy_rdc]

/-- The sector's copies are freed, and no others (R65). -/
theorem deliveredGood_cps (c : SealedCopy) (s : State) : (deliveredGood c s).cps = freeSector c.addr s.cps := by
  rw [deliveredGood, deliverGood_cps, (countedCopy_changes c).cps]

/-- The sector's record takes the data (R117). -/
theorem deliveredGood_frame {f : Frame} (grant : s.dsq.grant = some g) (frame : frameOf c.addr.track s = some f) :
    frameOf c.addr.track (deliveredGood c s) =
      some (f.sealGood (g.kind != .jobPass || g.fill) c.addr.sector c.words) := by
  rw [deliveredGood, frameOf_congr _ (congrArg Tks.frames (deliverGood_tks c _)), countedCopy_plain grant]
  exact frameOf_updFrame_of_some (fun _ => rfl)
    ((frameOf_congr _ (congrArg Tks.frames (countedCopy_changes c).tks)).trans frame)

/-- In a job's pass the sector leaves the job's open set (R58). -/
theorem deliveredGood_job (grant : s.dsq.grant = some g) (kind : g.kind = .jobPass) :
    (deliveredGood c s).jbq = (updJob c.addr.track (fun j => (j.countCopy c.addr.sector).close c.addr.sector) s).jbq := by
  rw [deliveredGood, deliverGood_jbq, countedCopy_fetch grant, kind, if_neg (by decide),
    updJob_jbq_congr _ (countedCopy_of_job grant kind)]
  exact congrArg State.jbq (updJob_updJob (Job.countCopy _) _ (fun _ => rfl) s)

/-- In a fetch's pass the fetch counts the copy (R96). -/
theorem deliveredGood_fetch {ft : FetchTallies} (grant : s.dsq.grant = some g) (kind : g.kind ≠ .jobPass)
    (fetch : s.jbq.fetch = some ft) : (deliveredGood c s).jbq =
      { s.jbq with fetch := some { ft with tallies := updTally c.addr.sector Tally.countCopy ft.tallies } } := by
  rw [deliveredGood, deliverGood_jbq, countedCopy_fetch grant, if_pos (by simpa using kind),
    countedCopy_of_fetch grant kind fetch]

/-- In a fetch or a fill the table stands (R136). -/
theorem deliveredGood_plain (grant : s.dsq.grant = some g) (plain : (g.kind != .jobPass || g.fill) = true) :
    (deliveredGood c s).rct = s.rct := by
  rw [deliveredGood, deliverGood_rct, countedCopy_plain grant, if_pos plain, (countedCopy_changes c).rct]

/-- In another pass an OPEN entry records RETRY_GOOD (R137). -/
theorem deliveredGood_entry {e : Entry} (grant : s.dsq.grant = some g) (kind : g.kind = .jobPass)
    (retry : g.fill = false) (entry : entryOf c.addr.track s = some e) (opened : e.state = .opened) :
    entryOf c.addr.track (deliveredGood c s) = some { e with
      outcomes := setOutcome c.addr.sector (.retryGood (copiesOf c.addr s.cps).length c.step c.passNo) e.outcomes
      successStep := some c.step, exported := false } := by
  have same := countedCopy_changes (s := s) c
  have table := deliverGood_rct c (countedCopy c s)
  rw [countedCopy_plain grant, kind, retry] at table
  have count : copyCount (countedCopy c s) c.addr.track c.addr.sector = (copiesOf c.addr s.cps).length := by
    rw [copyCount, same.cps]
  rw [deliveredGood, entryOf_congr _ (congrArg Rct.entries table), count]
  refine (entryOf_updEntry_of_some (Entry.resolve_track _ _ _) ?_).trans (congrArg some (Entry.resolve_of_opened opened _ _ _))
  exact (entryOf_congr _ (congrArg Rct.entries same.rct)).trans entry

/-- The job whose sector a check-good copy resolves has it open no more. -/
theorem deliveredGood_openSet {j : Job} (grant : s.dsq.grant = some g) (kind : g.kind = .jobPass)
    (job : jobOf c.addr.track s = some j) : ∃ j', jobOf c.addr.track (deliveredGood c s) = some j' ∧
      j'.openSet = j.openSet.filter fun i => i != c.addr.sector := by
  refine ⟨_, (jobOf_congr _ (congrArg Jbq.jobs (deliveredGood_job grant kind))).trans
    ((jobOf_updJob _ (fun j => (j.countCopy c.addr.sector).close c.addr.sector) fun _ => rfl).trans
      (congrArg (Option.map _) job)), ?_⟩
  rw [close_openSet, countCopy_openSet]

theorem deliverCopy_changes_good {t : State} (good : c.good = true) (t_eq : t = deliverCopy c s) :
    ChangesOnly [.mcp] (deliveredGood c s) t := by
  rw [t_eq, deliverCopy_of_good good]
  exact testHold_changes

end Sys2Proof.Machine

open Sys2Proof Sys2Proof.Machine

/-- Settles O49: the data field's words and marginal count from the bit window, and the delivery of a check-good copy by
the blocks it reaches; the port's test after it changes none of them. -/
theorem goodCopyResolvesItsSector : Obligations.GoodCopyResolvesItsSector := by
  refine ⟨?_, ?_⟩
  · rintro shift data check outside flux w rfl rfl
    exact ⟨mem_dataFlux data check outside, readData_window shift _⟩
  · intro s data check outside w p a g w_eq pass assembly grant sealed
    have act := exec_copySeal_of_assembly pass assembly data check outside
    rw [← w_eq] at act
    generalize dataMarginals s.rdc.shift (dataFlux data check outside) = m at act
    have good := (sealCopy_good p a w m).mpr sealed
    have after := deliverCopy_changes_good (s := s) good rfl
    refine ⟨_, act, deliverCopy_changes _, ?_⟩
    generalize deliverCopy (sealCopy p a w m) s = t at after
    have frames := frameOf_congr (s := deliveredGood (sealCopy p a w m) s) p.track (congrArg Tks.frames after.tks)
    have jobs := jobOf_congr (s := deliveredGood (sealCopy p a w m) s) p.track (congrArg Jbq.jobs after.jbq)
    have entries := entryOf_congr (s := deliveredGood (sealCopy p a w m) s) p.track (congrArg Rct.entries after.rct)
    rw [frames, jobs, entries, after.rdc, after.cps, after.jbq, after.rct, deliveredGood_rdc, deliveredGood_cps, pass]
    refine ⟨rfl, rfl, copiesOf_freeSector _ _, fun x other => copiesOf_freeSector_ne _ other, ⟨_, rfl, fun mem => ?_, ?_⟩,
      fun f r frame record open_ => ?_, fun kind => ⟨?_, fun j job =>
        deliveredGood_openSet (c := sealCopy p a w m) grant kind job⟩,
      fun kind ft fetch => deliveredGood_fetch grant kind fetch, fun kind retry e entry opened => ?_, fun plain => ?_⟩
    · exact absurd rfl (bne_iff_ne.mp (List.mem_filter.mp mem).2)
    · exact fun i mem other => List.mem_filter.mpr ⟨mem, bne_iff_ne.mpr other⟩
    · have sectors (plain : Bool) := sealGood_sectors plain w record open_
      refine ⟨_, deliveredGood_frame (c := sealCopy p a w m) grant frame, fun plain => ?_, fun kind retry => ?_⟩
      · have reads : (g.kind != .jobPass || g.fill) = true := by simpa using plain
        rw [reads]
        exact ⟨sectors true, Bool.or_false _⟩
      · have reads : (g.kind != .jobPass || g.fill) = false := by simp [kind, retry]
        rw [reads]
        exact ⟨sectors false, Bool.or_true _⟩
    · rw [deliveredGood_job grant kind]
      rfl
    · exact ⟨_, deliveredGood_entry (c := sealCopy p a w m) grant kind retry entry opened, opened, rfl, rfl, rfl⟩
    · exact deliveredGood_plain grant (by simpa using plain)

end


section
/-! PROOF. COPY_SEAL of a check-bad copy (R54, R57, R58, R62 to R64, R68, R96, R104, R116, R137, R141). -/

namespace Sys2Proof.Machine

variable {s : State} {p : PassContext} {a : Assembly} {g : Grant} {c : SealedCopy} {tr : Track} {k : Cps} {limit : Nat}
variable {pre post : List SealedCopy} {x : SealedCopy}

/-! ### The copy's place (R62 to R64) -/

theorem placeCopy_of_stored (stored : placingOf limit c k = .stored) : placeCopy limit c k = appendCopy c k := by
  rw [placeCopy, stored]

theorem placeCopy_of_replaced (replaced : placingOf limit c k = .replaced) :
    placeCopy limit c k = replaceLightest c k := by
  rw [placeCopy, replaced]

theorem placeCopy_of_noSlot (starves : placingOf limit c k = .noSlot) : placeCopy limit c k = k := by
  rw [placeCopy, starves]

theorem placeCopy_of_tooLight (light : placingOf limit c k = .tooLight) : placeCopy limit c k = k := by
  rw [placeCopy, light]

/-- A copy starves for want of a slot where its sector is below the limit and all slots are in use (R63). -/
theorem placingOf_noSlot_iff :
    placingOf limit c k = .noSlot ↔ (copiesOf c.addr k).length < limit ∧ 96 ≤ slotsInUse k := by
  refine ⟨fun starves => ?_, fun ⟨below, full⟩ => placingOf_of_no_slot below full⟩
  rcases Nat.lt_or_ge (copiesOf c.addr k).length limit with below | reached
  · rcases Nat.lt_or_ge (slotsInUse k) 96 with room | full
    · cases (placingOf_of_room below room).symm.trans starves
    · exact ⟨below, full⟩
  · by_cases heavier : heavierThanLightest c (copiesOf c.addr k) = true
    · cases (placingOf_of_heavier reached heavier).symm.trans starves
    · cases (placingOf_of_lighter reached heavier).symm.trans starves

theorem setCopies_fresh (a : SectorAddr) (f : CopyList → CopyList) (hf : ∀ l, (f l).addr = l.addr)
    (fresh : ∀ l, (f l).fresh = true) (held : (copyListOf a k).isSome) : isFresh a (setCopies a f k) = true := by
  obtain ⟨l, list⟩ := Option.isSome_iff_exists.mp held
  simp only [copyListOf] at list
  simp only [isFresh, copyListOf, setCopies, find_change_self CopyList.addr _ _ _ hf, list, Option.map_some,
    Option.any_some, fresh]

/-- The new copy takes the place of the lightest held, at the end of the list (R64). -/
theorem replaceLightest_copies (held : copiesOf c.addr k = pre ++ x :: post) (least : Lightest pre x post) :
    copiesOf c.addr (replaceLightest c k) = pre ++ post ++ [c] ∧ isFresh c.addr (replaceLightest c k) = true ∧
    ((k.lists.map CopyList.addr).Nodup → slotsInUse (replaceLightest c k) = slotsInUse k) := by
  cases list : copyListOf c.addr k with
  | none =>
    rw [copiesOf_of_no_list list] at held
    simp at held
  | some l =>
    rw [copiesOf_of_list list] at held
    have dropped : dropLightest l.copies = pre ++ post := by rw [held, least.dropLightest]
    refine ⟨?_, setCopies_fresh (k := k) _ _ (fun _ => rfl) (fun _ => rfl) (by simp [list]), fun nodup => ?_⟩
    · refine (copiesOf_setCopies c.addr (fun l => { l with copies := dropLightest l.copies ++ [c], fresh := true }) k
        fun _ => rfl).trans ?_
      rw [list, ← dropped]
      rfl
    · have slots := slotsInUse_setCopies nodup list
        fun l => { l with copies := dropLightest l.copies ++ [c], fresh := true }
      dsimp only at slots
      rw [dropped, held] at slots
      simp only [List.length_append, List.length_cons, List.length_nil] at slots
      rw [replaceLightest]
      omega

/-! ### The bad copy delivered (R58, R63, R64, R116, R137, R141) -/

theorem deliverBad_tks (c : SealedCopy) (s : State) : (deliverBad c s).tks =
    (updFrame c.addr.track (Frame.updSector c.addr.sector (recordBad c.words c.weight)) s).tks := by
  unfold deliverBad
  dsimp only
  split
  · rfl
  · rfl
  · exact (markStarved_changes _).tks
  · rfl

/-- A copy that enters a slot brings the size of its deviation to the peak (R141). -/
theorem deliverBad_rct_of_placed
    (placed : placingOf s.vte.copyLimit c s.cps = .stored ∨ placingOf s.vte.copyLimit c s.cps = .replaced) :
    (deliverBad c s).rct = { s.rct with peakDeviation := max s.rct.peakDeviation (min 65535 c.deviation.natAbs) } := by
  unfold deliverBad
  rcases placed with stored | replaced
  · rw [stored]; rfl
  · rw [replaced]; rfl

theorem deliverBad_rct_of_tooLight (light : placingOf s.vte.copyLimit c s.cps = .tooLight) :
    (deliverBad c s).rct = s.rct := by
  unfold deliverBad
  rw [light]
  rfl

theorem deliverBad_of_noSlot (starves : placingOf s.vte.copyLimit c s.cps = .noSlot) : deliverBad c s =
    markStarved c.addr.track ((updFrame c.addr.track
      (Frame.updSector c.addr.sector (recordBad c.words c.weight)) s).updCps (placeCopy s.vte.copyLimit c)) := by
  unfold deliverBad
  rw [starves]

theorem deliverBad_jbq_of_slot (fed : placingOf s.vte.copyLimit c s.cps ≠ .noSlot) : (deliverBad c s).jbq = s.jbq := by
  unfold deliverBad
  dsimp only
  split
  · rfl
  · rfl
  · exact absurd ‹_› fed
  · rfl

/-! ### Marks of starving (R63, R137) -/

theorem markStarved_of_fetch {ft : FetchTallies} (grant : s.dsq.grant = some g) (kind : g.kind ≠ .jobPass)
    (fetch : s.jbq.fetch = some ft) :
    markStarved tr s = s.updJbq fun q => { q with fetch := some { ft with starved := true } } := by
  rw [markStarved, if_pos (by simp [fetchPass_of_grant grant, kind])]
  simp only [State.updJbq, fetch, Option.map_some]

theorem markStarved_of_job (grant : s.dsq.grant = some g) (kind : g.kind = .jobPass) :
    markStarved tr s = updEntry tr Entry.setStarved (updJob tr (fun j => { j with starved := true }) s) :=
  if_neg (by simp [fetchPass_of_grant grant, kind])

theorem markStarved_peak (tr : Track) (s : State) : (markStarved tr s).rct.peakDeviation = s.rct.peakDeviation := by
  unfold markStarved
  split <;> rfl

theorem setStarved_track (e : Entry) : e.setStarved.track = e.track := by
  unfold Entry.setStarved
  split <;> rfl

/-! ### The bad copy, counted and delivered -/

/-- The state in which a check-bad copy has been delivered, before the port's test. -/
def deliveredBad (c : SealedCopy) (s : State) : State :=
  deliverBad c (countedCopy c s)

/-- Whether a copy offered finds no free slot (R63). -/
def starvesFor (c : SealedCopy) (s : State) : Bool :=
  decide ((copiesOf c.addr s.cps).length < s.vte.copyLimit ∧ 96 ≤ slotsInUse s.cps)

theorem starvesFor_iff : starvesFor c s = true ↔ placingOf s.vte.copyLimit c s.cps = .noSlot :=
  decide_eq_true_iff.trans placingOf_noSlot_iff.symm

/-- The count of the copy leaves its place as it was. -/
theorem placingOf_counted (c : SealedCopy) (s : State) :
    placingOf (countedCopy c s).vte.copyLimit c (countedCopy c s).cps = placingOf s.vte.copyLimit c s.cps := by
  rw [(countedCopy_changes c).vte, (countedCopy_changes c).cps]

theorem deliveredBad_rdc (c : SealedCopy) (s : State) :
    (deliveredBad c s).rdc = { s.rdc with lastDeviation := c.deviation, assembly := none } := by
  rw [deliveredBad, (deliverBad_stands c _).rdc, countedCopy_rdc]

theorem deliveredBad_cps (c : SealedCopy) (s : State) :
    (deliveredBad c s).cps = placeCopy s.vte.copyLimit c s.cps := by
  rw [deliveredBad, deliverBad_cps, (countedCopy_changes c).vte, (countedCopy_changes c).cps]

theorem deliveredBad_frame {f : Frame} (frame : frameOf c.addr.track s = some f) :
    frameOf c.addr.track (deliveredBad c s) = some (f.updSector c.addr.sector (recordBad c.words c.weight)) := by
  rw [deliveredBad, frameOf_congr _ (congrArg Tks.frames (deliverBad_tks c _))]
  exact frameOf_updFrame_of_some (fun _ => rfl)
    ((frameOf_congr _ (congrArg Tks.frames (countedCopy_changes c).tks)).trans frame)

theorem deliveredBad_rct_of_placed
    (placed : placingOf s.vte.copyLimit c s.cps = .stored ∨ placingOf s.vte.copyLimit c s.cps = .replaced) :
    (deliveredBad c s).rct =
      { s.rct with peakDeviation := max s.rct.peakDeviation (min 65535 c.deviation.natAbs) } := by
  rw [← placingOf_counted] at placed
  rw [deliveredBad, deliverBad_rct_of_placed placed, (countedCopy_changes c).rct]

theorem deliveredBad_rct_of_tooLight (light : placingOf s.vte.copyLimit c s.cps = .tooLight) :
    (deliveredBad c s).rct = s.rct := by
  rw [← placingOf_counted] at light
  rw [deliveredBad, deliverBad_rct_of_tooLight light, (countedCopy_changes c).rct]

/-- A job with the copy counted, and marked where the copy starves (R58, R63, R104). -/
def Job.countBad (starves : Bool) (i : Nat) (j : Job) : Job :=
  { j.countCopy i with starved := j.starved || starves }

theorem countBad_of_fed (i : Nat) : Job.countBad false i = Job.countCopy i := by
  funext j
  simp [Job.countBad, Job.countCopy]

theorem countBad_of_starved (i : Nat) : Job.countBad true i = fun j => { j.countCopy i with starved := true } := by
  funext j
  simp [Job.countBad]

theorem deliveredBad_job (grant : s.dsq.grant = some g) (kind : g.kind = .jobPass) :
    (deliveredBad c s).jbq = (updJob c.addr.track (Job.countBad (starvesFor c s) c.addr.sector) s).jbq := by
  have grant' : (countedCopy c s).dsq.grant = some g := (congrArg Dsq.grant (countedCopy_changes c).dsq).trans grant
  by_cases starves : placingOf s.vte.copyLimit c s.cps = .noSlot
  · rw [starvesFor_iff.mpr starves, countBad_of_starved]
    rw [← placingOf_counted] at starves
    rw [deliveredBad, deliverBad_of_noSlot starves, markStarved_of_job (by exact grant') kind]
    refine (updJob_jbq_congr (fun j => { j with starved := true }) (countedCopy_of_job grant kind)).trans ?_
    exact congrArg State.jbq (updJob_updJob (Job.countCopy _) _ (fun _ => rfl) s)
  · rw [Bool.eq_false_iff.mpr (mt starvesFor_iff.mp starves), countBad_of_fed]
    rw [← placingOf_counted] at starves
    rw [deliveredBad, deliverBad_jbq_of_slot starves, countedCopy_of_job grant kind]

theorem deliveredBad_fetch {ft : FetchTallies} (grant : s.dsq.grant = some g) (kind : g.kind ≠ .jobPass)
    (fetch : s.jbq.fetch = some ft) : (deliveredBad c s).jbq = { s.jbq with
      fetch := some ⟨updTally c.addr.sector Tally.countCopy ft.tallies, ft.starved || starvesFor c s⟩ } := by
  have grant' : (countedCopy c s).dsq.grant = some g := (congrArg Dsq.grant (countedCopy_changes c).dsq).trans grant
  have counted := countedCopy_of_fetch (c := c) grant kind fetch
  by_cases starves : placingOf s.vte.copyLimit c s.cps = .noSlot
  · rw [starvesFor_iff.mpr starves, Bool.or_true]
    rw [← placingOf_counted] at starves
    rw [deliveredBad, deliverBad_of_noSlot starves,
      markStarved_of_fetch (by exact grant') kind (by exact congrArg Jbq.fetch counted)]
    exact congrArg (fun q : Jbq => { q with
      fetch := some ⟨updTally c.addr.sector Tally.countCopy ft.tallies, true⟩ }) counted
  · rw [Bool.eq_false_iff.mpr (mt starvesFor_iff.mp starves), Bool.or_false]
    rw [← placingOf_counted] at starves
    rw [deliveredBad, deliverBad_jbq_of_slot starves, counted]

/-- Below the limit a copy joins its sector's list where a slot is free (R62, R63, R141). -/
theorem deliveredBad_stored (below : (copiesOf c.addr s.cps).length < s.vte.copyLimit) (room : slotsInUse s.cps < 96) :
    copiesOf c.addr (deliveredBad c s).cps = copiesOf c.addr s.cps ++ [c] ∧
    isFresh c.addr (deliveredBad c s).cps = true ∧ (deliveredBad c s).rct =
      { s.rct with peakDeviation := max s.rct.peakDeviation (min 65535 c.deviation.natAbs) } := by
  have stored := placingOf_of_room below room
  obtain ⟨copies, fresh⟩ := copiesOf_appendCopy c s.cps
  rw [deliveredBad_cps, placeCopy_of_stored stored]
  exact ⟨copies, fresh, deliveredBad_rct_of_placed (.inl stored)⟩

/-- A copy that starves leaves the store and the peak, and marks the OPEN entry of a job (R63, R137). -/
theorem deliveredBad_starves (starves : starvesFor c s = true) : (deliveredBad c s).cps = s.cps ∧
    (deliveredBad c s).rct.peakDeviation = s.rct.peakDeviation ∧
    ∀ g, s.dsq.grant = some g → g.kind = .jobPass → ∀ e, entryOf c.addr.track s = some e → e.state = .opened →
      entryOf c.addr.track (deliveredBad c s) = some { e with starved := true } := by
  have noSlot := starvesFor_iff.mp starves
  have cps := deliveredBad_cps c s
  have same := countedCopy_changes (s := s) c
  rw [placeCopy_of_noSlot noSlot] at cps
  rw [← placingOf_counted] at noSlot
  refine ⟨cps, ?_, fun g grant kind e entry opened => ?_⟩ <;> rw [deliveredBad, deliverBad_of_noSlot noSlot]
  · rw [markStarved_peak]
    exact congrArg Rct.peakDeviation same.rct
  · rw [markStarved_of_job (by exact (congrArg Dsq.grant same.dsq).trans grant) kind]
    refine (entryOf_updEntry_of_some (e := e) setStarved_track ?_).trans (congrArg some (if_pos opened))
    exact (entryOf_congr _ (congrArg Rct.entries same.rct)).trans entry

/-- What becomes of the store and the peak at the copy limit (R64, R68, R141). -/
theorem deliveredBad_at_limit (reached : s.vte.copyLimit ≤ (copiesOf c.addr s.cps).length)
    (held : copiesOf c.addr s.cps = pre ++ x :: post) (least : Lightest pre x post) :
    (x.weight < c.weight → copiesOf c.addr (deliveredBad c s).cps = pre ++ post ++ [c] ∧
      isFresh c.addr (deliveredBad c s).cps = true ∧
      (deliveredBad c s).rct =
        { s.rct with peakDeviation := max s.rct.peakDeviation (min 65535 c.deviation.natAbs) } ∧
      ((s.cps.lists.map CopyList.addr).Nodup → slotsInUse (deliveredBad c s).cps = slotsInUse s.cps)) ∧
    (c.weight ≤ x.weight → (deliveredBad c s).cps = s.cps ∧ (deliveredBad c s).rct = s.rct) := by
  have heavier_iff := least.heavier_iff c
  rw [← held] at heavier_iff
  rw [deliveredBad_cps]
  refine ⟨fun heavier => ?_, fun lighter => ?_⟩
  · have replaced := placingOf_of_heavier reached (heavier_iff.mpr heavier)
    obtain ⟨copies, fresh, slots⟩ := replaceLightest_copies held least
    rw [placeCopy_of_replaced replaced]
    exact ⟨copies, fresh, deliveredBad_rct_of_placed (.inr replaced), slots⟩
  · have light := placingOf_of_lighter reached (mt heavier_iff.mp (by omega))
    exact ⟨placeCopy_of_tooLight light, deliveredBad_rct_of_tooLight light⟩

theorem deliverCopy_changes_bad {t : State} (bad : c.good = false) (t_eq : t = deliverCopy c s) :
    ChangesOnly [.mcp] (deliveredBad c s) t := by
  rw [t_eq, deliverCopy_of_bad bad]
  exact testHold_changes

theorem deliveredBad_changes (c : SealedCopy) : ChangesOnly [.rdc, .cps, .jbq, .tks, .rct] s (deliveredBad c s) :=
  ((countedCopy_changes c).mono (by decide)).andThen (deliverBad_stands c _) (by decide)

theorem sealCopy_bad {words : SectorWords} (bad : check16 words.data.val ≠ words.check) (m : Nat) :
    (sealCopy p a words m).good = false :=
  Bool.eq_false_iff.mpr (mt (sealCopy_good p a words m).mp bad)

/-- The copy sealed, field by field. -/
theorem sealCopy_eq {words : SectorWords} (bad : check16 words.data.val ≠ words.check) (n : Nat) :
    sealCopy p a words n = ⟨⟨p.track, a.sector⟩, p.passNo, p.step, words, min 255 (a.marginal + n), a.deviation,
      if p.slipLimit < a.deviation.natAbs then 1 else 8 - min 7 (min 255 (a.marginal + n) / 4), false⟩ := by
  have fails : words.checkGood = false := sealCopy_bad (p := p) (a := a) bad n
  rw [sealCopy, fails]
  simp only [weightOf, slipped, decide_eq_true_eq]
  rfl

end Sys2Proof.Machine

open Sys2Proof Sys2Proof.Machine

/-- Settles O50: a check-bad copy is counted, placed by its place's case, and recorded in the frame; the port's test after
it changes none of them. -/
theorem badCopyIsPlaced : Obligations.BadCopyIsPlaced := by
  intro s data check outside words m p a held w new starves g words_eq m_eq pass assembly grant fails held_eq w_eq new_eq
    starves_eq
  have act := exec_copySeal_of_assembly pass assembly data check outside
  have sealed := sealCopy_eq (p := p) (a := a) fails (dataMarginals s.rdc.shift (dataFlux data check outside))
  rw [← m_eq, ← w_eq, ← new_eq] at sealed
  rw [← words_eq, sealed] at act
  have bad : new.good = false := by rw [new_eq]
  have after := deliverCopy_changes_bad (s := s) bad rfl
  refine ⟨_, act, ((deliveredBad_changes new).mono (by decide)).andThen after (by decide), ?_⟩
  generalize deliverCopy new s = t at after
  have frames := frameOf_congr (s := deliveredBad new s) p.track (congrArg Tks.frames after.tks)
  have entries := entryOf_congr (s := deliveredBad new s) p.track (congrArg Rct.entries after.rct)
  rw [frames, entries, after.rdc, after.cps, after.jbq, after.rct]
  have counted : starves = starvesFor new s := by rw [starves_eq, held_eq, new_eq]; rfl
  rw [counted]
  have stores := deliveredBad_stored (s := s) (c := new)
  have starving := deliveredBad_starves (s := s) (c := new)
  have atLimit (pre x post) := deliveredBad_at_limit (s := s) (c := new) (pre := pre) (x := x) (post := post)
  have recorded (f) := deliveredBad_frame (s := s) (c := new) (f := f)
  subst new_eq held_eq
  refine ⟨deliveredBad_rdc _ s, stores, fun starves => ?_, deliveredBad_job grant,
    fun kind ft fetch => deliveredBad_fetch grant kind fetch,
    fun pre x post reached held before after => atLimit pre x post reached held ⟨before, after⟩,
    fun f r frame record => ⟨_, recorded f frame, rfl, ?_⟩⟩
  · obtain ⟨store, peak, marks⟩ := starving starves
    exact ⟨store, peak, marks g grant⟩
  · refine (modify_eq_set _ record).trans ?_
    cases r <;> rfl

end

section
/-! PROOF. The weighted bit vote: the weights at a position, the voted words, the sector margin (R74 to R76). -/

namespace Sys2Proof.Machine

variable {cs pre post : List SealedCopy} {c : SealedCopy} {w : SectorWords} {i b : Nat}

/-! ### The weights at a position (R74) -/

/-- The copies that hold 1 at bit `b` of word `i` weigh S1. -/
theorem weightOfOnes_votesAt (cs : List SealedCopy) (i b : Nat) : weightOfOnes (votesAt cs i b) =
    ((cs.filter fun c => (mediaWord c i).getMsbD b).map SealedCopy.weight).sum := by
  rw [weightOfOnes, votesAt, List.map_map]
  simpa [Function.comp_def] using
    List.sum_map_ite (fun c => (mediaWord c i).getMsbD b = true) SealedCopy.weight (fun _ => 0) cs

/-- The copies that hold 0 at bit `b` of word `i` weigh S0. -/
theorem weightOfZeros_votesAt (cs : List SealedCopy) (i b : Nat) : weightOfZeros (votesAt cs i b) =
    ((cs.filter fun c => !(mediaWord c i).getMsbD b).map SealedCopy.weight).sum := by
  rw [weightOfZeros, votesAt, List.map_map]
  simpa [Function.comp_def] using
    List.sum_map_ite (fun c => (mediaWord c i).getMsbD b = true) (fun _ => 0) SealedCopy.weight cs

/-- Every copy votes 1 or 0. -/
theorem ones_add_zeros (cs : List SealedCopy) (i b : Nat) :
    weightOfOnes (votesAt cs i b) + weightOfZeros (votesAt cs i b) = totalWeight cs := by
  rw [weightOfOnes_votesAt, weightOfZeros_votesAt]
  simpa [totalWeight] using
    List.sum_map_filter_add_sum_map_filter_not (fun c => (mediaWord c i).getMsbD b = true) SealedCopy.weight cs

theorem totalWeight_le {most : Nat} (each : ∀ c ∈ cs, c.weight ≤ most) : totalWeight cs ≤ cs.length * most := by
  simpa [totalWeight] using List.sum_le_card_nsmul (cs.map SealedCopy.weight) most (by simpa using each)

/-! ### The tie copy (R75) -/

/-- The heaviest copy, the earliest of equals, is the tie copy. -/
theorem tieCopy_of_heaviest (before : ∀ x ∈ pre, x.weight < c.weight) (after : ∀ x ∈ post, x.weight ≤ c.weight) :
    tieCopy (pre ++ c :: post) = some c := by
  have greatest : ((pre ++ c :: post).map SealedCopy.weight).max? = some c.weight := by
    rw [List.max?_eq_some_iff]
    refine ⟨by simp, fun w mem => ?_⟩
    obtain ⟨x, there, rfl⟩ := List.mem_map.mp mem
    rcases List.mem_append.mp there with early | late
    · exact (before x early).le
    · rcases List.mem_cons.mp late with rfl | late
      · exact Nat.le_refl _
      · exact after x late
  rw [tieCopy, greatest]
  exact List.find?_eq_some_iff_append.mpr ⟨by simp, pre, post, rfl, fun x early => by simpa using (before x early).ne⟩

theorem tieBit_of_heaviest (before : ∀ x ∈ pre, x.weight < c.weight) (after : ∀ x ∈ post, x.weight ≤ c.weight)
    (i b : Nat) : tieBit (pre ++ c :: post) i b = (mediaWord c i).getMsbD b := by
  rw [tieBit, tieCopy_of_heaviest before after]

/-! ### The voted bit (R74, R75) -/

theorem votedBit_of_ones {vs : List BitVote} {tie : Bool} (h : weightOfZeros vs < weightOfOnes vs) :
    votedBit vs tie = true :=
  if_pos h

theorem votedBit_of_zeros {vs : List BitVote} {tie : Bool} (h : weightOfOnes vs < weightOfZeros vs) :
    votedBit vs tie = false := by
  rw [votedBit, if_neg h.not_gt, if_pos h]

theorem votedBit_of_tie {vs : List BitVote} {tie : Bool} (h : weightOfOnes vs = weightOfZeros vs) :
    votedBit vs tie = tie := by
  rw [votedBit, if_neg h.not_gt, if_neg h.not_lt]

/-- The words of the voted sector are the voted words, the check word last. -/
theorem votedWords_word (inside : i < 257) :
    (if i < 256 then (votedWords cs).data.val.getD i 0 else (votedWords cs).check) = votedWord cs i := by
  split
  case isTrue data => simp [votedWords, data]
  case isFalse check => rw [show i = 256 by omega]; rfl

theorem votedWord_getMsbD (cs : List SealedCopy) (i : Nat) (inside : b < 16) :
    (votedWord cs i).getMsbD b = votedBit (votesAt cs i b) (tieBit cs i b) :=
  getMsbD_wordOfBits (fun b => votedBit (votesAt cs i b) (tieBit cs i b)) inside

/-! ### The sector margin (R76) -/

/-- The bit margins at the 4,112 positions. -/
def bitMargins (cs : List SealedCopy) : List Nat :=
  (List.range 257).flatMap fun i => (List.range 16).map fun b => bitMargin (votesAt cs i b)

theorem mem_bitMargins {m : Nat} : m ∈ bitMargins cs ↔ ∃ i b, i < 257 ∧ b < 16 ∧ m = bitMargin (votesAt cs i b) := by
  simp only [bitMargins, List.mem_flatMap, List.mem_map, List.mem_range, eq_comm (a := m)]
  exact exists_congr fun i => by simp

/-- The sector margin is the least of the bit margins and the whole weight. -/
theorem sectorMargin_eq_min (cs : List SealedCopy) :
    (totalWeight cs :: bitMargins cs).min? = some (sectorMargin cs) := by
  rw [List.min?_cons', bitMargins, List.foldl_flatMap]
  simp only [List.foldl_map]
  rfl

theorem bitMargin_le_totalWeight (cs : List SealedCopy) (i b : Nat) : bitMargin (votesAt cs i b) ≤ totalWeight cs := by
  have whole := ones_add_zeros cs i b
  rw [bitMargin]
  omega

theorem sectorMargin_le_totalWeight (cs : List SealedCopy) : sectorMargin cs ≤ totalWeight cs :=
  (List.min?_eq_some_iff.mp (sectorMargin_eq_min cs)).2 _ List.mem_cons_self

theorem sectorMargin_le_bitMargin (word : i < 257) (bit : b < 16) : sectorMargin cs ≤ bitMargin (votesAt cs i b) :=
  (List.min?_eq_some_iff.mp (sectorMargin_eq_min cs)).2 _
    (List.mem_cons_of_mem _ (mem_bitMargins.mpr ⟨i, b, word, bit, rfl⟩))

/-- Some position has the sector margin: where the whole weight is least, every position has it. -/
theorem sectorMargin_attained (cs : List SealedCopy) :
    ∃ i b, i < 257 ∧ b < 16 ∧ sectorMargin cs = bitMargin (votesAt cs i b) := by
  obtain ⟨mem, -⟩ := List.min?_eq_some_iff.mp (sectorMargin_eq_min cs)
  rcases List.mem_cons.mp mem with whole | margin
  · exact ⟨0, 0, by decide, by decide, (sectorMargin_le_bitMargin (by decide) (by decide)).antisymm
      (whole ▸ bitMargin_le_totalWeight cs 0 0)⟩
  · exact mem_bitMargins.mp margin

/-! ### Copies that agree (R74, R76) -/

/-- Where all copies hold the same bit, its side has the whole weight. -/
theorem weights_of_agree {x : Bool} (agree : ∀ c ∈ cs, (mediaWord c i).getMsbD b = x) :
    weightOfOnes (votesAt cs i b) = (if x then totalWeight cs else 0) ∧
      weightOfZeros (votesAt cs i b) = (if x then 0 else totalWeight cs) := by
  have same : votesAt cs i b = cs.map fun c => (c.weight, x) := List.map_congr_left fun c mem => by rw [agree c mem]
  rw [same, weightOfOnes, weightOfZeros, List.map_map, List.map_map]
  cases x <;> simp [totalWeight, Function.comp_def]

theorem bitMargin_of_agree {x : Bool} (agree : ∀ c ∈ cs, (mediaWord c i).getMsbD b = x) :
    bitMargin (votesAt cs i b) = totalWeight cs := by
  obtain ⟨ones, zeros⟩ := weights_of_agree agree
  rw [bitMargin, ones, zeros]
  cases x <;> simp

theorem votedBit_of_agree {x tie : Bool} (agree : ∀ c ∈ cs, (mediaWord c i).getMsbD b = x)
    (weighs : 0 < totalWeight cs) : votedBit (votesAt cs i b) tie = x := by
  obtain ⟨ones, zeros⟩ := weights_of_agree agree
  cases x
  case false => exact votedBit_of_zeros (by rw [ones, zeros]; exact weighs)
  case true => exact votedBit_of_ones (by rw [ones, zeros]; exact weighs)

/-- A word in which all copies agree is voted. -/
theorem votedWord_of_agree {v : Word} (agree : ∀ c ∈ cs, mediaWord c i = v) (weighs : 0 < totalWeight cs) :
    votedWord cs i = v :=
  BitVec.eq_of_getMsbD_eq fun b inside => by
    rw [votedWord_getMsbD cs i inside]
    exact votedBit_of_agree (fun c mem => by rw [agree c mem]) weighs

theorem votedWords_of_agree (agree : ∀ c ∈ cs, c.words = w) (weighs : 0 < totalWeight cs) : votedWords cs = w := by
  have word (i : Nat) : votedWord cs i = if i < 256 then w.data.val.getD i 0 else w.check :=
    votedWord_of_agree (fun c mem => by rw [mediaWord, agree c mem]) weighs
  rw [votedWords, SectorWords.mk.injEq]
  refine ⟨Subtype.ext (List.ext_getElem (by simp [w.data.property]) fun i inside inside' => ?_), word 256⟩
  have data : i < 256 := by simpa using inside
  simp [word, data, inside']

theorem sectorMargin_of_agree (agree : ∀ c ∈ cs, c.words = w) : sectorMargin cs = totalWeight cs := by
  obtain ⟨i, b, -, -, attained⟩ := sectorMargin_attained cs
  rw [attained]
  exact bitMargin_of_agree fun c mem => by rw [mediaWord, agree c mem]

end Sys2Proof.Machine

open Sys2Proof Sys2Proof.Machine

/-- Settles O51: the weights at a position give its voted bit and bound the margin there, and some position has the
sector margin. -/
theorem voteFollowsTheWeights : Obligations.VoteFollowsTheWeights := by
  refine ⟨fun cs i b word bit => ?_, sectorMargin_attained, fun cs five light => ?_,
    fun cs w agree weighs => ⟨votedWords_of_agree agree weighs, sectorMargin_of_agree agree⟩⟩
  · rw [votedWords_word word, votedWord_getMsbD cs i bit, ← weightOfOnes_votesAt, ← weightOfZeros_votesAt]
    have whole := ones_add_zeros cs i b
    have least := sectorMargin_le_bitMargin (cs := cs) word bit
    rw [bitMargin] at least
    refine ⟨votedBit_of_ones, votedBit_of_zeros, fun pre c post tie parts before after => ?_, least, whole,
      sectorMargin_le_totalWeight cs, fun tie => by omega, fun ones zeros => by omega⟩
    rw [votedBit_of_tie tie, parts, tieBit_of_heaviest before after]
  · calc sectorMargin cs ≤ totalWeight cs := sectorMargin_le_totalWeight cs
      _ ≤ cs.length * 8 := totalWeight_le light
      _ ≤ 40 := by omega

end

section
/-! PROOF. How members join and leave the collections: the changes by which events are queued, entries made and members
changed in place or taken away, and those by which a job or a frame joins; each keeps the collections within their limits,
the table in keeping with the queue, and the sectors in order (R92, R93, R113, R130 to R132, R163, R197). -/

namespace Sys2Proof.Machine

variable {s t u : State} {tr : Track} {j : Job}

/-! ### The limits, block by block -/

/-- The overlay's part of the limits (R163). -/
structure OverlayBounded (o : Ovl) : Prop where
  most : o.entries.length ≤ 64
  one : (o.entries.map OverlayEntry.addr).Nodup

/-- The Track Store's part (R113). -/
structure FramesBounded (k : Tks) : Prop where
  most : k.frames.length ≤ 8
  one : (k.frames.map Frame.track).Nodup

/-- A STATION-origin job that holds a frame. -/
def Job.stationOwner (j : Job) : Bool :=
  j.origin == .station && j.holdsFrame

/-- The queue's part (R93). -/
structure QueueBounded (q : Jbq) : Prop where
  most : q.jobs.length ≤ 16
  one : (q.jobs.map Job.track).Nodup
  owners : q.jobs.countP Job.stationOwner ≤ 6

/-- The table's part (R130). -/
structure EntriesBounded (r : Rct) : Prop where
  most : r.entries.length ≤ 512
  one : (r.entries.map Entry.track).Nodup

theorem collectionsBounded_iff : CollectionsBounded s ↔ s.evq.records.length ≤ 32 ∧ OverlayBounded s.ovl ∧
    FramesBounded s.tks ∧ QueueBounded s.jbq ∧ EntriesBounded s.rct := by
  constructor
  · rintro ⟨records, overlay, addrs, frames, tracks, jobs, jobTracks, owners, entries, entryTracks⟩
    exact ⟨records, ⟨overlay, addrs⟩, ⟨frames, tracks⟩, ⟨jobs, jobTracks, owners⟩, ⟨entries, entryTracks⟩⟩
  · rintro ⟨records, ⟨overlay, addrs⟩, ⟨frames, tracks⟩, ⟨jobs, jobTracks, owners⟩, ⟨entries, entryTracks⟩⟩
    exact ⟨records, overlay, addrs, frames, tracks, jobs, jobTracks, owners, entries, entryTracks⟩

theorem stationOwner_iff (j : Job) : j.stationOwner = true ↔ j.origin = .station ∧ j.holdsFrame = true := by
  simp [Job.stationOwner]

/-- The open sets of the jobs stand in ascending order (R92). -/
def JobsAscending (s : State) : Prop :=
  ∀ j ∈ s.jbq.jobs, Ascending j.openSet

/-! ### Members changed in place -/

/-- A change of the job on a track keeps its track, the six frames of STATION-origin jobs, and its open set in order. -/
structure JobChange (tr : Track) (f : Job → Job) (s : State) : Prop where
  track : ∀ j, j.track = tr → (f j).track = tr
  owners : stationFramesHeld s < 6 ∨ ((s.jbq.jobs.map Job.track).Nodup → ∀ j ∈ s.jbq.jobs, j.track = tr →
    (f j).stationOwner = true → j.stationOwner = true)
  opens : JobsAscending s → ∀ j ∈ s.jbq.jobs, j.track = tr → Ascending (f j).openSet

/-- A change of the entry of a track keeps its track and sequence, leaves it OPEN only where it was or the track has a
job, and keeps its outcomes in order. -/
structure EntryChange (tr : Track) (f : Entry → Entry) (s : State) : Prop where
  track : ∀ e, (f e).track = e.track
  seqNo : ∀ e, (f e).seqNo = e.seqNo
  opened : ∀ e, (f e).state = .opened → e.state = .opened ∨ (jobOf tr s).isSome
  outcomes : JobsAscending s → ∀ e, Ascending (e.outcomes.map OutcomeRec.sector) →
    Ascending ((f e).outcomes.map OutcomeRec.sector)

/-! ### The changes -/

/-- The blocks that hold none of the collections. -/
def plainBlocks : List Block :=
  [.clock, .pins, .geom, .ixm, .dsq, .rdc, .cps, .vte, .mcp, .stl]

/-- One change by which no job and no frame joins: an event offered, an entry made, a member changed in place or taken
away, a job only where its track has no OPEN entry. -/
inductive Ebb : State → State → Prop where
  | plain {s t : State} (h : ChangesOnly plainBlocks s t) : Ebb s t
  | offer (k : EventKind) (tr : Option Track) (n : Nat) (s : State) : Ebb s (offer k tr n s)
  | events {s : State} (f : Evq → Evq) (h : (f s.evq).records.length ≤ s.evq.records.length) : Ebb s (s.updEvq f)
  | overlay {s : State} (f : Ovl → Ovl) (h : OverlayBounded s.ovl → OverlayBounded (f s.ovl)) : Ebb s (s.updOvl f)
  | frames {s : State} (f : Tks → Tks) (h : ((f s.tks).frames.map Frame.track).Subperm (s.tks.frames.map Frame.track)) :
      Ebb s (s.updTks f)
  | queue {s : State} (f : Jbq → Jbq) (h : (f s.jbq).jobs = s.jbq.jobs) : Ebb s (s.updJbq f)
  | job {s : State} {tr : Track} {f : Job → Job} (h : JobChange tr f s) : Ebb s (updJob tr f s)
  | jobLeaves {s : State} (tr : Track) (closed : (s.rct.entries.map Entry.track).Nodup →
      ∀ e ∈ s.rct.entries, e.track = tr → e.state ≠ .opened) : Ebb s (removeJob tr s)
  | table {s : State} (f : Rct → Rct) (entries : (f s.rct).entries = s.rct.entries)
      (sequence : (f s.rct).nextSequence = s.rct.nextSequence) : Ebb s (s.updRct f)
  | entry {s : State} {tr : Track} {f : Entry → Entry} (h : EntryChange tr f s) : Ebb s (updEntry tr f s)
  | entryJoins {s : State} {tr : Track} (o : Origin) {st : EntryState} (n : Nat) (b : Bool) {os : List OutcomeRec}
      (gap : entryOf tr s = none) (owner : st = .opened → (jobOf tr s).isSome)
      (sectors : JobsAscending s → Ascending (os.map OutcomeRec.sector)) : Ebb s (createEntry tr o st n b os s)

/-- A sequence of such changes. -/
def Ebbs : State → State → Prop :=
  Relation.ReflTransGen Ebb

/-- One change by which a job or a frame joins may be a member's that follows others' leaving: it needs a slot that was
free before, or that has come free since. -/
inductive Flow : State → State → Prop where
  | ebb {s t : State} (h : Ebb s t) : Flow s t
  | jobJoins {s u : State} {j : Job} (left : Ebbs s u)
      (room : s.jbq.jobs.length < 16 ∨ ∃ tr, (jobOf tr s).isSome ∧ jobOf tr u = none) (gap : jobOf j.track u = none)
      (owner : j.stationOwner = true → stationFramesHeld u < 6) (sectors : Ascending j.openSet) : Flow s (addJob j u)
  | frameJoins {s u : State} {f : Frame} (left : Ebbs s u)
      (room : s.tks.frames.length < 8 ∨ ∃ tr, (frameOf tr s).isSome ∧ frameOf tr u = none)
      (gap : frameOf f.track u = none) : Flow s (u.updTks fun k => { k with frames := k.frames ++ [f] })

/-- A sequence of changes of either sort. -/
def Flows : State → State → Prop :=
  Relation.ReflTransGen Flow

theorem Ebbs.refl (s : State) : Ebbs s s :=
  Relation.ReflTransGen.refl

theorem Ebb.ebbs (h : Ebb s t) : Ebbs s t :=
  Relation.ReflTransGen.single h

theorem Ebbs.trans (h : Ebbs s t) (k : Ebbs t u) : Ebbs s u :=
  Relation.ReflTransGen.trans h k

theorem Ebbs.ite {p : Prop} [Decidable p] (h : Ebbs s t) (k : Ebbs s u) : Ebbs s (if p then t else u) := by
  split <;> assumption

/-- What every change keeps, every sequence of them keeps. -/
theorem Ebbs.keeps {P : State → Prop} (h : Ebbs s t) (ebb : ∀ {u v}, P u → Ebb u v → P v) (k : P s) : P t := by
  induction h with
  | refl => exact k
  | tail _ e ih => exact ebb ih e

theorem Flows.refl (s : State) : Flows s s :=
  Relation.ReflTransGen.refl

theorem Flow.flows (h : Flow s t) : Flows s t :=
  Relation.ReflTransGen.single h

theorem Flows.trans (h : Flows s t) (k : Flows t u) : Flows s u :=
  Relation.ReflTransGen.trans h k

theorem Ebbs.flows (h : Ebbs s t) : Flows s t := by
  induction h with
  | refl => exact .refl _
  | tail _ e ih => exact ih.trans (Flow.ebb e).flows

theorem Flows.ite {p : Prop} [Decidable p] (h : Flows s t) (k : Flows s u) : Flows s (if p then t else u) := by
  split <;> assumption

theorem Flows.keeps {P : State → Prop} (h : Flows s t) (flow : ∀ {u v}, P u → Flow u v → P v) (k : P s) : P t := by
  induction h with
  | refl => exact k
  | tail _ e ih => exact flow ih e

/-! ### Lists -/

theorem nodup_of_subperm {α : Type} {l m : List α} (h : l.Subperm m) (nodup : m.Nodup) : l.Nodup := by
  obtain ⟨k, perm, sub⟩ := h
  exact perm.nodup_iff.mp (nodup.sublist sub)

/-- A member joins under a key that none has. -/
theorem nodup_join {α κ : Type} (key : α → κ) {l : List α} {x : α} (nodup : (l.map key).Nodup) (gap : key x ∉ l.map key) :
    ((l ++ [x]).map key).Nodup := by
  rw [List.map_append, List.map_singleton]
  refine List.nodup_append.mpr ⟨nodup, List.nodup_singleton _, fun k mem k' here same => ?_⟩
  rw [same, List.mem_singleton.mp here] at mem
  exact gap mem

/-- A list that lacks a member of the one it is drawn from is shorter. -/
theorem length_lt_of_subperm {α : Type} {l m : List α} {x : α} (h : l.Subperm m) (mem : x ∈ m) (gone : x ∉ l) :
    l.length < m.length := by
  by_contra full
  exact gone ((h.perm_of_length_le (Nat.le_of_not_lt full)).mem_iff.mpr mem)

/-- A list drawn from one with room, or from a full one that has lost a member, has room. -/
theorem length_lt_of_room {α : Type} {l m : List α} {n : Nat} (h : l.Subperm m) (most : m.length ≤ n)
    (room : m.length < n ∨ ∃ x ∈ m, x ∉ l) : l.length < n := by
  rcases room with room | ⟨x, there, gone⟩
  · exact h.length_le.trans_lt room
  · exact (length_lt_of_subperm h there gone).trans_le most

theorem mem_jobs_of_jobOf (job : jobOf tr s = some j) : j ∈ s.jbq.jobs :=
  List.mem_of_find?_eq_some job

theorem jobOf_isSome_iff_mem : (jobOf tr s).isSome ↔ tr ∈ s.jbq.jobs.map Job.track := by
  simp [jobOf, List.find?_isSome]

theorem frameOf_isSome_iff_mem : (frameOf tr s).isSome ↔ tr ∈ s.tks.frames.map Frame.track := by
  simp [frameOf, List.find?_isSome]

theorem jobOf_none_iff : jobOf tr s = none ↔ tr ∉ s.jbq.jobs.map Job.track := by
  rw [← jobOf_isSome_iff_mem, Option.not_isSome_iff_eq_none]

theorem frameOf_none_iff : frameOf tr s = none ↔ tr ∉ s.tks.frames.map Frame.track := by
  rw [← frameOf_isSome_iff_mem, Option.not_isSome_iff_eq_none]

theorem entryOf_none_iff : entryOf tr s = none ↔ tr ∉ s.rct.entries.map Entry.track := by
  simp [entryOf, List.find?_eq_none]

theorem jobTracks_updJob {f : Job → Job} (hf : ∀ j, j.track = tr → (f j).track = tr) :
    (updJob tr f s).jbq.jobs.map Job.track = s.jbq.jobs.map Job.track := by
  unfold updJob
  rw [State.updJbq_jbq, List.map_map]
  refine List.map_congr_left fun j _ => ?_
  by_cases here : j.track = tr
  · simp [here, hf j here]
  · simp [here]

/-- The members under one key changed, at most as many more meet the condition as stand under the key. -/
theorem countP_change_le {α κ : Type} [DecidableEq κ] (key : α → κ) (k : κ) (f : α → α) (p : α → Bool) (l : List α) :
    (l.map fun x => if key x = k then f x else x).countP p ≤ l.countP p + (l.map key).count k := by
  induction l with
  | nil => exact Nat.le_refl 0
  | cons x l ih =>
    by_cases here : key x = k
    · simp only [List.map_cons, here, if_true, List.countP_cons, List.count_cons, beq_self_eq_true]
      split <;> split <;> omega
    · simp only [List.map_cons, here, if_false, List.countP_cons, List.count_cons, beq_iff_eq]
      omega

/-! ### What a change leaves of the jobs' and the frames' tracks -/

/-- The tracks of jobs and of frames are drawn from those there were. -/
structure TracksLeft (s t : State) : Prop where
  jobs : (t.jbq.jobs.map Job.track).Subperm (s.jbq.jobs.map Job.track)
  frames : (t.tks.frames.map Frame.track).Subperm (s.tks.frames.map Frame.track)

theorem TracksLeft.of_same (jbq : t.jbq.jobs = s.jbq.jobs) (tks : t.tks.frames = s.tks.frames) : TracksLeft s t :=
  ⟨by rw [jbq], by rw [tks]⟩

theorem Ebb.tracksLeft (h : Ebb s t) : TracksLeft s t := by
  cases h with
  | plain h => exact .of_same (by rw [h.2 .jbq (by decide)]) (by rw [h.2 .tks (by decide)])
  | frames f h => exact ⟨.refl _, h⟩
  | queue f h => exact .of_same h rfl
  | job h => exact ⟨by rw [jobTracks_updJob h.track], .refl _⟩
  | jobLeaves tr _ => exact ⟨(List.filter_sublist.map _).subperm, .refl _⟩
  | entryJoins o n b _ _ _ =>
    have only := createEntry_changes (s := s) ‹_› o ‹_› n b ‹_›
    exact .of_same (by rw [only.2 .jbq (by decide)]) (by rw [only.2 .tks (by decide)])
  | _ => exact .of_same rfl rfl

theorem Ebbs.tracksLeft (h : Ebbs s t) : TracksLeft s t :=
  h.keeps (P := TracksLeft s) (fun k e => ⟨e.tracksLeft.jobs.trans k.jobs, e.tracksLeft.frames.trans k.frames⟩)
    (.of_same rfl rfl)

/-- A track without a job has none after, either. -/
theorem Ebbs.jobOf_none (h : Ebbs s t) (free : jobOf tr s = none) : jobOf tr t = none :=
  jobOf_none_iff.mpr fun mem => jobOf_none_iff.mp free (h.tracksLeft.jobs.subset mem)

theorem Ebbs.frameOf_none (h : Ebbs s t) (free : frameOf tr s = none) : frameOf tr t = none :=
  frameOf_none_iff.mpr fun mem => frameOf_none_iff.mp free (h.tracksLeft.frames.subset mem)

/-! ### The limits -/

theorem entriesWithRoom_some {r : Rct} {es : List Entry} (h : entriesWithRoom r = some es) :
    r.nextSequence ≤ Config.lastSequence ∧ es.Sublist r.entries ∧ (r.entries.length ≤ 512 → es.length < 512) := by
  unfold entriesWithRoom at h
  split at h
  · cases h
  rename_i sequence
  refine ⟨Nat.le_of_not_lt sequence, ?_⟩
  split at h
  · rename_i room
    cases h
    exact ⟨.refl _, fun _ => room⟩
  · split at h
    · rename_i held
      cases h
      obtain ⟨e, mem, removable⟩ := List.any_eq_true.mp held
      refine ⟨List.eraseP_sublist, fun most => ?_⟩
      have length := List.length_eraseP_of_mem mem removable
      have positive := List.length_pos_of_mem mem
      omega
    · cases h

theorem EntriesBounded.entryJoins {o : Origin} {st : EntryState} {n : Nat} {b : Bool} {os : List OutcomeRec}
    (h : EntriesBounded s.rct) (gap : entryOf tr s = none) : EntriesBounded (createEntry tr o st n b os s).rct := by
  cases room : entriesWithRoom s.rct with
  | none => rw [createEntry_of_full room]; exact h
  | some es =>
    obtain ⟨-, sub, length⟩ := entriesWithRoom_some room
    rw [createEntry_of_entries room]
    refine ⟨by simpa using length h.most, ?_⟩
    exact nodup_join Entry.track (x := newEntry s tr o st n b os) (h.one.sublist (sub.map _)) fun mem =>
      entryOf_none_iff.mp gap ((sub.map _).subset mem)

theorem offer_records_le (k : EventKind) (at_ : Option Track) (n : Nat) (h : s.evq.records.length ≤ 32) :
    (offer k at_ n s).evq.records.length ≤ 32 := by
  rcases (offer_cases k at_ n s).2.2 with ⟨room, records, -⟩ | ⟨-, same⟩
  · rw [records, List.length_append]
    exact room
  · rw [same]
    exact h

theorem createEntry_records_le {o : Origin} {st : EntryState} {n : Nat} {b : Bool} {os : List OutcomeRec}
    (h : s.evq.records.length ≤ 32) : (createEntry tr o st n b os s).evq.records.length ≤ 32 := by
  unfold createEntry
  split
  · exact h
  · exact offer_records_le _ _ _ h

theorem QueueBounded.job {f : Job → Job} (h : QueueBounded s.jbq) (change : JobChange tr f s) :
    QueueBounded (updJob tr f s).jbq := by
  refine ⟨by simpa [updJob] using h.most, by rw [jobTracks_updJob change.track]; exact h.one, ?_⟩
  rcases change.owners with below | owners
  · have one := List.nodup_iff_count_le_one.mp h.one tr
    have most : s.jbq.jobs.countP Job.stationOwner < 6 := below
    exact (countP_change_le Job.track tr f Job.stationOwner s.jbq.jobs).trans (by omega)
  · refine Nat.le_trans ?_ h.owners
    show (s.jbq.jobs.map fun j => if j.track = tr then f j else j).countP Job.stationOwner ≤ _
    rw [List.countP_map]
    refine List.countP_mono_left fun j mem owner => ?_
    by_cases here : j.track = tr
    · exact owners h.one j mem here (by simpa [here] using owner)
    · simpa [here] using owner

theorem CollectionsBounded.ebb (h : CollectionsBounded s) (e : Ebb s t) : CollectionsBounded t := by
  rw [collectionsBounded_iff] at h ⊢
  obtain ⟨records, overlay, frames, queue, entries⟩ := h
  cases e with
  | plain k =>
    rw [k.2 .evq (by decide), k.2 .ovl (by decide), k.2 .tks (by decide), k.2 .jbq (by decide), k.2 .rct (by decide)]
    exact ⟨records, overlay, frames, queue, entries⟩
  | offer k at_ n => exact ⟨offer_records_le k at_ n records, overlay, frames, queue, entries⟩
  | events f least => exact ⟨least.trans records, overlay, frames, queue, entries⟩
  | overlay f keeps => exact ⟨records, keeps overlay, frames, queue, entries⟩
  | frames f left =>
    refine ⟨records, overlay, ⟨?_, nodup_of_subperm left frames.one⟩, queue, entries⟩
    have length := left.length_le
    rw [List.length_map, List.length_map] at length
    exact length.trans frames.most
  | queue f same =>
    refine ⟨records, overlay, frames, ⟨?_, ?_, ?_⟩, entries⟩
    all_goals rw [State.updJbq_jbq, same]
    exacts [queue.most, queue.one, queue.owners]
  | job change => exact ⟨records, overlay, frames, queue.job change, entries⟩
  | jobLeaves tr _ =>
    refine ⟨records, overlay, frames, ⟨?_, queue.one.sublist (List.filter_sublist.map _), ?_⟩, entries⟩
    · exact (List.length_filter_le _ _).trans queue.most
    · exact (List.filter_sublist.countP_le).trans queue.owners
  | table f same _ => exact ⟨records, overlay, frames, queue, by rw [State.updRct_rct, same]; exact entries.most,
      by rw [State.updRct_rct, same]; exact entries.one⟩
  | entry change =>
    refine ⟨records, overlay, frames, queue, by simpa [updEntry] using entries.most, ?_⟩
    show ((s.rct.entries.map _).map Entry.track).Nodup
    rw [keys_change Entry.track _ _ _ change.track]
    exact entries.one
  | entryJoins o n b gap _ _ =>
    have only := createEntry_changes (s := s) ‹_› o ‹_› n b ‹_›
    rw [only.2 .ovl (by decide), only.2 .tks (by decide), only.2 .jbq (by decide)]
    exact ⟨createEntry_records_le records, overlay, frames, queue, entries.entryJoins gap⟩

theorem CollectionsBounded.flow (h : CollectionsBounded s) (e : Flow s t) : CollectionsBounded t := by
  obtain ⟨-, -, ⟨framesMost, -⟩, ⟨jobsMost, -, -⟩, -⟩ := collectionsBounded_iff.mp h
  cases e with
  | ebb e => exact h.ebb e
  | @jobJoins u j left room gap owner _ =>
    obtain ⟨records, overlay, frames, queue, entries⟩ := collectionsBounded_iff.mp (left.keeps .ebb h)
    refine collectionsBounded_iff.mpr ⟨records, overlay, frames, ⟨?_, ?_, ?_⟩, entries⟩
    · have shorter := length_lt_of_room (n := 16) left.tracksLeft.jobs (by simpa using jobsMost)
        (room.imp (by simp) fun ⟨tr, there, gone⟩ => ⟨tr, jobOf_isSome_iff_mem.mp there, jobOf_none_iff.mp gone⟩)
      simpa [addJob] using shorter
    · exact nodup_join Job.track queue.one (jobOf_none_iff.mp gap)
    · show (u.jbq.jobs ++ [j]).countP Job.stationOwner ≤ 6
      rw [List.countP_append, List.countP_singleton]
      split
      · rename_i owns
        exact owner owns
      · exact queue.owners
  | @frameJoins u f left room gap =>
    obtain ⟨records, overlay, frames, queue, entries⟩ := collectionsBounded_iff.mp (left.keeps .ebb h)
    refine collectionsBounded_iff.mpr ⟨records, overlay, ⟨?_, ?_⟩, queue, entries⟩
    · have shorter := length_lt_of_room (n := 8) left.tracksLeft.frames (by simpa using framesMost)
        (room.imp (by simp) fun ⟨tr, there, gone⟩ => ⟨tr, frameOf_isSome_iff_mem.mp there, frameOf_none_iff.mp gone⟩)
      simpa using shorter
    · exact nodup_join Frame.track frames.one (frameOf_none_iff.mp gap)

/-! ### The table and the queue -/

theorem jobOf_isSome_congr (h : t.jbq.jobs.map Job.track = s.jbq.jobs.map Job.track) :
    (jobOf tr t).isSome ↔ (jobOf tr s).isSome := by
  rw [jobOf_isSome_iff_mem, jobOf_isSome_iff_mem, h]

/-- The table is kept where it stands and no job leaves. -/
theorem TableKept.of_same (h : TableKept s) (entries : t.rct.entries = s.rct.entries)
    (sequence : t.rct.nextSequence = s.rct.nextSequence)
    (jobs : ∀ tr, (jobOf tr s).isSome → (jobOf tr t).isSome) : TableKept t := by
  obtain ⟨one, order, range, least, most, opened⟩ := h
  unfold TableKept
  rw [entries, sequence]
  exact ⟨one, order, range, least, most, fun e mem open_ => jobs _ (opened e mem open_)⟩

theorem TableKept.entry {f : Entry → Entry} (h : TableKept s) (change : EntryChange tr f s) :
    TableKept (updEntry tr f s) := by
  obtain ⟨one, order, range, least, most, opened⟩ := h
  have seqNo (e : Entry) : (if e.track = tr then f e else e).seqNo = e.seqNo := by
    split
    · exact change.seqNo e
    · rfl
  refine ⟨?_, ?_, fun e mem => ?_, least, most, fun e mem open_ => ?_⟩
  · show ((s.rct.entries.map _).map Entry.track).Nodup
    rw [keys_change Entry.track _ _ _ change.track]
    exact one
  · refine List.pairwise_map.mpr (order.imp fun {a b} less => ?_)
    rw [seqNo, seqNo]
    exact less
  · obtain ⟨e, before, rfl⟩ := List.mem_map.mp mem
    rw [seqNo]
    exact range e before
  · obtain ⟨e, before, rfl⟩ := List.mem_map.mp mem
    by_cases here : e.track = tr
    · rw [if_pos here] at open_ ⊢
      rw [change.track, here]
      rcases change.opened e open_ with stood | job
      · exact here ▸ opened e before stood
      · exact job
    · rw [if_neg here] at open_ ⊢
      exact opened e before open_

theorem TableKept.entryJoins {o : Origin} {st : EntryState} {n : Nat} {b : Bool} {os : List OutcomeRec} (h : TableKept s)
    (gap : entryOf tr s = none) (owner : st = .opened → (jobOf tr s).isSome) :
    TableKept (createEntry tr o st n b os s) := by
  cases room : entriesWithRoom s.rct with
  | none => rw [createEntry_of_full room]; exact h.of_same rfl rfl fun _ => id
  | some es =>
    obtain ⟨one, order, range, least, most, opened⟩ := h
    obtain ⟨sequence, sub, -⟩ := entriesWithRoom_some room
    rw [createEntry_of_entries room]
    refine ⟨?_, ?_, fun e mem => ?_, Nat.le_succ_of_le least, Nat.succ_le_succ sequence, fun e mem open_ => ?_⟩
    · exact nodup_join Entry.track (x := newEntry s tr o st n b os) (one.sublist (sub.map _)) fun mem =>
        entryOf_none_iff.mp gap ((sub.map _).subset mem)
    · refine List.pairwise_append.mpr ⟨order.sublist sub, List.pairwise_singleton _ _, fun x mem y here => ?_⟩
      rw [List.mem_singleton.mp here]
      exact (range x (sub.subset mem)).2
    · rcases List.mem_append.mp mem with before | here
      · exact ⟨(range e (sub.subset before)).1, Nat.lt_succ_of_lt (range e (sub.subset before)).2⟩
      · rw [List.mem_singleton.mp here]
        exact ⟨least, Nat.lt_succ_self _⟩
    · rcases List.mem_append.mp mem with before | here
      · exact opened e (sub.subset before) open_
      · rw [List.mem_singleton.mp here] at open_ ⊢
        exact owner open_

theorem TableKept.ebb (h : TableKept s) (e : Ebb s t) : TableKept t := by
  cases e with
  | plain k =>
    have jobs : t.jbq = s.jbq := k.2 .jbq (by decide)
    exact h.of_same (by rw [k.2 .rct (by decide)]) (by rw [k.2 .rct (by decide)])
      fun tr => (jobOf_isSome_congr (by rw [jobs])).mpr
  | queue f same =>
    exact h.of_same rfl rfl fun tr => (jobOf_isSome_congr (by rw [State.updJbq_jbq, same])).mpr
  | job change => exact h.of_same rfl rfl fun tr => (jobOf_isSome_congr (jobTracks_updJob change.track)).mpr
  | jobLeaves tr closed =>
    obtain ⟨one, order, range, least, most, opened⟩ := h
    refine ⟨one, order, range, least, most, fun e mem open_ => ?_⟩
    have other : e.track ≠ tr := fun here => closed one e mem here open_
    rw [jobOf_removeJob_ne other]
    exact opened e mem open_
  | table f entries sequence => exact h.of_same entries sequence fun _ => id
  | entry change => exact h.entry change
  | entryJoins o n b gap owner _ => exact h.entryJoins gap owner
  | _ => exact h.of_same rfl rfl fun _ => id

theorem TableKept.flow (h : TableKept s) (e : Flow s t) : TableKept t := by
  cases e with
  | ebb e => exact h.ebb e
  | jobJoins left _ _ _ _ =>
    refine (left.keeps .ebb h).of_same rfl rfl fun tr there => ?_
    rw [jobOf_isSome_iff_mem] at there ⊢
    simp only [addJob, State.updJbq_jbq, List.map_append]
    exact List.mem_append_left _ there
  | frameJoins left _ _ => exact (left.keeps .ebb h).of_same rfl rfl fun _ => id

/-! ### Sectors in order -/

theorem SectorsAscending.of_same (h : SectorsAscending s) (entries : t.rct.entries = s.rct.entries)
    (jobs : t.jbq.jobs = s.jbq.jobs) : SectorsAscending t := by
  unfold SectorsAscending
  rwa [entries, jobs]

theorem SectorsAscending.entryJoins {o : Origin} {st : EntryState} {n : Nat} {b : Bool} {os : List OutcomeRec}
    (h : SectorsAscending s) (sectors : JobsAscending s → Ascending (os.map OutcomeRec.sector)) :
    SectorsAscending (createEntry tr o st n b os s) := by
  cases room : entriesWithRoom s.rct with
  | none => rw [createEntry_of_full room]; exact h.of_same rfl rfl
  | some es =>
    rw [createEntry_of_entries room]
    refine ⟨fun e mem => ?_, h.2⟩
    rcases List.mem_append.mp mem with before | here
    · exact h.1 e ((entriesWithRoom_some room).2.1.subset before)
    · rw [List.mem_singleton.mp here]
      exact sectors h.2

theorem SectorsAscending.ebb (h : SectorsAscending s) (e : Ebb s t) : SectorsAscending t := by
  cases e with
  | plain k => exact h.of_same (by rw [k.2 .rct (by decide)]) (by rw [k.2 .jbq (by decide)])
  | queue f same => exact h.of_same rfl same
  | job change =>
    refine ⟨h.1, fun j mem => ?_⟩
    obtain ⟨i, before, rfl⟩ := List.mem_map.mp mem
    by_cases here : i.track = ‹_›
    · rw [if_pos here]
      exact change.opens h.2 i before here
    · rw [if_neg here]
      exact h.2 i before
  | jobLeaves tr _ => exact ⟨h.1, fun j mem => h.2 j (List.mem_of_mem_filter mem)⟩
  | table f entries _ => exact h.of_same entries rfl
  | entry change =>
    refine ⟨fun e mem => ?_, h.2⟩
    obtain ⟨x, before, rfl⟩ := List.mem_map.mp mem
    split
    · exact change.outcomes h.2 x (h.1 x before)
    · exact h.1 x before
  | entryJoins o n b _ _ sectors => exact h.entryJoins sectors
  | _ => exact h.of_same rfl rfl

theorem SectorsAscending.flow (h : SectorsAscending s) (e : Flow s t) : SectorsAscending t := by
  cases e with
  | ebb e => exact h.ebb e
  | jobJoins left _ _ _ sectors =>
    obtain ⟨entries, jobs⟩ := left.keeps SectorsAscending.ebb h
    refine ⟨entries, fun i mem => ?_⟩
    rcases List.mem_append.mp mem with before | here
    · exact jobs i before
    · rw [List.mem_singleton.mp here]
      exact sectors
  | frameJoins left _ _ => exact (left.keeps SectorsAscending.ebb h).of_same rfl rfl

end Sys2Proof.Machine
end

section
/-! PROOF. Where a job goes after its pass, in one equation for each case (R105, R106). -/

namespace Sys2Proof.Machine

variable {s : State} {tr : Track} {j : Job}

/-- A job past its plain pass: no fill is pending any more (R105). -/
def Job.pastPlain (j : Job) : Job :=
  if j.step = 0 then { j with fill := false } else j

theorem pastPlain_of_plain (plain : j.step = 0) : j.pastPlain = { j with fill := false } :=
  if_pos plain

theorem pastPlain_of_step (step : 1 ≤ j.step) : j.pastPlain = j :=
  if_neg (by omega)

theorem pastPlain_track (j : Job) : j.pastPlain.track = j.track := by
  unfold Job.pastPlain
  split <;> rfl

theorem pastPlain_tallies (j : Job) : j.pastPlain.tallies = j.tallies := by
  unfold Job.pastPlain
  split <;> rfl

theorem advanceJob_of_empty (job : jobOf tr s = some j) (empty : j.tallies = []) :
    advanceJob tr s = endRecovered j s := by
  rw [advanceJob, job]
  exact if_pos (by rw [empty]; rfl)

theorem advanceJob_of_walkEnds (job : jobOf tr s = some j) (left : j.tallies ≠ [])
    (ends : progressOf s.jbq j = .walkEnds) :
    advanceJob tr s = endWalk j.pastPlain (updJob tr (fun _ => j.pastPlain) s) := by
  rw [advanceJob, job]
  refine (if_neg (by simpa using left)).trans ?_
  dsimp only
  rw [ends]
  rfl

theorem advanceJob_of_stays {step done : Nat} (job : jobOf tr s = some j) (left : j.tallies ≠ [])
    (stays : progressOf s.jbq j = .stays step done) : advanceJob tr s =
      updJob tr (fun _ => { j.pastPlain with state := .queued, step := step, done := done }) s := by
  rw [advanceJob, job]
  refine (if_neg (by simpa using left)).trans ?_
  dsimp only
  rw [stays]
  rfl

end Sys2Proof.Machine
end

section
/-! PROOF. The ends of jobs and fetches, votes and claims as changes of the collections (R58, R66, R79, R96 to R98, R108,
R114). -/

namespace Sys2Proof.Machine

variable {s t u : State} {tr : Track} {j : Job} {bs : List Block}

/-! ### Single changes -/

theorem ChangesOnly.ebbs (h : ChangesOnly bs s t) (plain : bs.all plainBlocks.contains = true) : Ebbs s t :=
  (Ebb.plain (h.mono fun b mem => by simpa using List.all_eq_true.mp plain b mem)).ebbs

theorem ChangesOnly.flows (h : ChangesOnly bs s t) (plain : bs.all plainBlocks.contains = true) : Flows s t :=
  (h.ebbs plain).flows

theorem offer_ebbs (k : EventKind) (at_ : Option Track) (n : Nat) : Ebbs s (offer k at_ n s) :=
  (Ebb.offer k at_ n s).ebbs

theorem offerLatching_ebbs (k : EventKind) (n : Nat) (x : Snapshot) : Ebbs s (offerLatching k n x s) := by
  refine (offer_ebbs k none n).trans (Ebb.events _ ?_).ebbs
  unfold latchSnapshot
  split <;> exact Nat.le_refl _

theorem updFrame_ebbs {f : Frame → Frame} (hf : ∀ x, (f x).track = x.track) : Ebbs s (updFrame tr f s) :=
  (Ebb.frames _ (by rw [keys_change Frame.track _ _ _ hf])).ebbs

theorem releaseFrame_ebbs (tr : Track) (s : State) : Ebbs s (releaseFrame tr s) :=
  (Ebb.frames _ (List.filter_sublist.map _).subperm).ebbs

/-- The use order alone changes (R123). -/
theorem refreshFrame_ebbs (tr : Track) (s : State) : Ebbs s (refreshFrame tr s) := by
  refine (Ebb.frames _ (List.Perm.subperm (List.Perm.map _ ?_))).ebbs
  have parted := List.filter_append_perm (fun f : Frame => f.track != tr) s.tks.frames
  have back : (fun f : Frame => !(f.track != tr)) = fun f => f.track == tr := funext fun f => Bool.not_not _
  rwa [back] at parted

theorem updJbq_ebbs (f : Jbq → Jbq) (jobs : (f s.jbq).jobs = s.jbq.jobs) : Ebbs s (s.updJbq f) :=
  (Ebb.queue f jobs).ebbs

/-- A job changed for the same owner, its open set thinned at most. -/
theorem updJob_ebbs {f : Job → Job} (track : ∀ j, (f j).track = j.track)
    (owner : ∀ j, (f j).stationOwner = j.stationOwner) (opens : ∀ j, (f j).openSet.Sublist j.openSet) :
    Ebbs s (updJob tr f s) :=
  (Ebb.job { track := fun j here => (track j).trans here
             owners := .inr fun _ j _ _ owns => (owner j).symm.trans owns
             opens := fun asc j mem _ => (asc j mem).sublist (opens j) }).ebbs

/-- The job on a track replaced by one of the same owner and open set. -/
theorem replaceJob_ebbs {j' : Job} (job : jobOf tr s = some j) (track : j'.track = j.track)
    (owner : j'.stationOwner = j.stationOwner) (opens : j'.openSet = j.openSet) : Ebbs s (updJob tr (fun _ => j') s) := by
  have here := jobOf_track job
  refine (Ebb.job ⟨fun _ _ => track.trans here, .inr fun one i mem at_ owns => ?_, fun asc _ _ _ => ?_⟩).ebbs
  · have only := find_key_of_mem Job.track one mem
    rw [at_] at only
    cases Option.some.inj (only.symm.trans job)
    exact owner.symm.trans owns
  · rw [opens]
    exact asc j (mem_jobs_of_jobOf job)

theorem updRct_ebbs (f : Rct → Rct) (entries : (f s.rct).entries = s.rct.entries)
    (sequence : (f s.rct).nextSequence = s.rct.nextSequence) : Ebbs s (s.updRct f) :=
  (Ebb.table f entries sequence).ebbs

/-- An entry changed that is not opened anew. -/
theorem updEntry_ebbs {f : Entry → Entry} (track : ∀ e, (f e).track = e.track) (seqNo : ∀ e, (f e).seqNo = e.seqNo)
    (state : ∀ e, (f e).state = .opened → e.state = .opened)
    (sectors : ∀ e, (f e).outcomes.map OutcomeRec.sector = e.outcomes.map OutcomeRec.sector) :
    Ebbs s (updEntry tr f s) :=
  (Ebb.entry ⟨track, seqNo, fun e opened => .inl (state e opened), fun _ e asc => by rwa [sectors]⟩).ebbs

/-- An entry changed only while it is OPEN. -/
theorem updOpenEntry_ebbs {f g : Entry → Entry} (hf : ∀ e, f e = if e.state = .opened then g e else e)
    (track : ∀ e, (g e).track = e.track) (seqNo : ∀ e, (g e).seqNo = e.seqNo)
    (sectors : ∀ e, (g e).outcomes.map OutcomeRec.sector = e.outcomes.map OutcomeRec.sector) :
    Ebbs s (updEntry tr f s) := by
  have keeps (e : Entry) : (f e).track = e.track ∧ (f e).seqNo = e.seqNo ∧ ((f e).state = .opened → e.state = .opened) ∧
      (f e).outcomes.map OutcomeRec.sector = e.outcomes.map OutcomeRec.sector := by
    rw [hf]
    by_cases opened : e.state = .opened
    · rw [if_pos opened]
      exact ⟨track e, seqNo e, fun _ => opened, sectors e⟩
    · rw [if_neg opened]
      exact ⟨rfl, rfl, id, rfl⟩
  exact updEntry_ebbs (fun e => (keeps e).1) (fun e => (keeps e).2.1) (fun e => (keeps e).2.2.1) fun e => (keeps e).2.2.2

/-! ### Outcomes (R131, R135 to R138) -/

theorem setOutcome_sectors (i : Nat) (r : OutcomeResult) (os : List OutcomeRec) :
    (setOutcome i r os).map OutcomeRec.sector = os.map OutcomeRec.sector := by
  rw [setOutcome, List.map_map]
  refine List.map_congr_left fun o _ => ?_
  by_cases here : o.sector = i <;> simp [here]

theorem failOpen_sectors (falls : OutcomeRec → Bool) (reason : Nat → FailReason) (held : Nat → Nat)
    (os : List OutcomeRec) : (failOpen falls reason held os).map OutcomeRec.sector = os.map OutcomeRec.sector := by
  rw [failOpen, List.map_map]
  refine List.map_congr_left fun o _ => ?_
  by_cases here : falls o <;> simp [here]

theorem reviveFailed_sectors (os : List OutcomeRec) :
    (reviveFailed os).map OutcomeRec.sector = os.map OutcomeRec.sector := by
  rw [reviveFailed, List.map_map]
  refine List.map_congr_left fun o _ => ?_
  by_cases failed : o.result.isFailed <;> simp [failed]

theorem refillGood_sectors (e : Entry) :
    e.refillGood.outcomes.map OutcomeRec.sector = e.outcomes.map OutcomeRec.sector := by
  rw [Entry.refillGood, List.map_map]
  refine List.map_congr_left fun o _ => ?_
  by_cases pending : o.result.isPending <;> simp [pending]

theorem pendingOutcomes_sectors (is : List Nat) : (pendingOutcomes is).map OutcomeRec.sector = is := by
  simp [pendingOutcomes, Function.comp_def]

theorem queueFullOutcomes_sectors (held : Nat → Nat) (is : List Nat) :
    (queueFullOutcomes held is).map OutcomeRec.sector = is := by
  simp [queueFullOutcomes, Function.comp_def]

/-- A PENDING outcome joins by sector order: no other moves, and its sector is there after (R135). -/
theorem insertPending_ascending (i : Nat) {os : List OutcomeRec} (h : Ascending (os.map OutcomeRec.sector)) :
    Ascending ((insertPending i os).map OutcomeRec.sector) ∧
      ∀ k, k ∈ (insertPending i os).map OutcomeRec.sector ↔ k = i ∨ k ∈ os.map OutcomeRec.sector := by
  induction os with
  | nil => exact ⟨List.pairwise_singleton _ _, fun k => by simp [insertPending]⟩
  | cons o os ih =>
    obtain ⟨above, rest⟩ := List.pairwise_cons.mp h
    unfold insertPending
    split
    · rename_i before
      refine ⟨List.pairwise_cons.mpr ⟨fun k mem => ?_, h⟩, fun k => by simp⟩
      rcases List.mem_cons.mp mem with rfl | later
      · exact before
      · exact before.trans (above k later)
    · split
      · rename_i here
        refine ⟨h, fun k => ⟨.inr, fun mem => mem.elim (fun same => ?_) id⟩⟩
        rw [same, here]
        exact List.mem_cons_self
      · obtain ⟨asc, members⟩ := ih rest
        refine ⟨List.pairwise_cons.mpr ⟨fun k mem => ?_, asc⟩, fun k => ?_⟩
        · rcases (members k).mp mem with rfl | later
          · omega
          · exact above k later
        · rw [List.map_cons, List.mem_cons, members, List.map_cons, List.mem_cons]
          tauto

theorem insertPendings_ascending (is : List Nat) {os : List OutcomeRec} (h : Ascending (os.map OutcomeRec.sector)) :
    Ascending ((is.foldl (fun os i => insertPending i os) os).map OutcomeRec.sector) := by
  induction is generalizing os with
  | nil => exact h
  | cons i is ih => exact ih (insertPending_ascending i h).1

/-! ### Sectors (R92, R113) -/

theorem ascending_range (n : Nat) : Ascending (List.range n) :=
  List.pairwise_lt_range

/-- The sectors of a frame that meet a condition stand in ascending order. -/
theorem sectorsWhere_ascending (p : SectorRec → Bool) (f : Frame) : Ascending (sectorsWhere p f) :=
  (ascending_range _).filter _

theorem fetchTally_sector (ft : FetchTallies) (i : Nat) : (fetchTally ft i).sector = i := by
  unfold fetchTally
  cases found : ft.tallies.find? fun t => t.sector == i with
  | none => rfl
  | some t => exact find_key_some Tally.sector found

theorem fetchTallies_openSet (ft : FetchTallies) (is : List Nat) : (is.map (fetchTally ft)).map Tally.sector = is := by
  rw [List.map_map]
  exact (List.map_congr_left fun i _ => fetchTally_sector ft i).trans (List.map_id is)

theorem zeroTallies_openSet (is : List Nat) : (zeroTallies is).map Tally.sector = is := by
  simp [zeroTallies, Function.comp_def]

/-! ### The ends of jobs (R108) -/

theorem endFrame_ebbs (j : Job) (s : State) : Ebbs s (endFrame j s) := by
  unfold endFrame
  exact .ite (.ite (releaseFrame_ebbs _ _) (updFrame_ebbs (failSectors_track _))) (.refl s)

theorem close_not_opened (falls : OutcomeRec → Bool) (reason : Nat → FailReason) (held : Nat → Nat) (p : Bool)
    (e : Entry) : (e.close falls reason held p).state ≠ .opened := by
  rw [close_state]
  split <;> decide

theorem closeEntry_ebbs (tr : Track) (falls : OutcomeRec → Bool) (reason : Nat → FailReason) (held : Nat → Nat)
    (p q : Bool) (s : State) : Ebbs s (closeEntry tr falls reason held p q s) := by
  have closed : Ebbs s (updEntry tr (Entry.close falls reason held p) s) :=
    updEntry_ebbs (fun _ => rfl) (fun _ => rfl) (fun e opened => absurd opened (close_not_opened _ _ _ _ e))
      fun e => failOpen_sectors falls reason held e.outcomes
  unfold closeEntry
  split
  · refine .ite (.ite closed (closed.trans ?_)) (.refl s)
    unfold closingEvent
    split <;> exact offer_ebbs _ _ _
  · exact .refl s

theorem closeEntry_tracks (tr : Track) (falls : OutcomeRec → Bool) (reason : Nat → FailReason) (held : Nat → Nat)
    (p q : Bool) (s : State) : (closeEntry tr falls reason held p q s).rct.entries.map Entry.track =
      s.rct.entries.map Entry.track := by
  have kept : (updEntry tr (Entry.close falls reason held p) s).rct.entries.map Entry.track =
      s.rct.entries.map Entry.track := keys_change Entry.track _ _ _ fun _ => rfl
  unfold closeEntry
  split
  · split
    · dsimp only
      split
      · exact kept
      · rw [closingEvent_entries]
        exact kept
    · rfl
  · rfl

/-- After a closing, the track has no OPEN entry. -/
theorem closeEntry_leaves_closed {tr : Track} {falls : OutcomeRec → Bool} {reason : Nat → FailReason}
    {held : Nat → Nat} {p q : Bool} {s : State} (one : (s.rct.entries.map Entry.track).Nodup) :
    ∀ e ∈ (closeEntry tr falls reason held p q s).rct.entries, e.track = tr → e.state ≠ .opened := by
  have only (x : Entry) (mem : x ∈ s.rct.entries) (here : x.track = tr) : entryOf tr s = some x :=
    here ▸ find_key_of_mem Entry.track one mem
  by_cases opened : ∃ e, entryOf tr s = some e ∧ e.state = .opened
  · obtain ⟨e, entry, opened⟩ := opened
    have entries : (closeEntry tr falls reason held p q s).rct.entries =
        (updEntry tr (Entry.close falls reason held p) s).rct.entries := by
      rw [closeEntry_of_opened entry opened]
      split
      · rfl
      · rw [closingEvent_entries]
    rw [entries]
    intro e mem here
    obtain ⟨x, -, rfl⟩ := List.mem_map.mp mem
    by_cases at_ : x.track = tr
    · rw [if_pos at_]
      exact close_not_opened _ _ _ _ x
    · rw [if_neg at_] at here
      exact absurd here at_
  · rw [closeEntry_of_closed fun e entry open_ => opened ⟨e, entry, open_⟩]
    exact fun e mem here open_ => opened ⟨e, only e mem here, open_⟩

theorem endJob_ebbs (k : JobEnd) (p q : Bool) (j : Job) (s : State) : Ebbs s (endJob k p q j s) := by
  have copies : Ebbs (endFrame j s) (endCopies j (endFrame j s)) := (updCps_changes _).ebbs rfl
  have closed := closeEntry_ebbs j.track (fallsWith j) (endReason k j) (copyCount s j.track) p q
    (endCopies j (endFrame j s))
  refine (((endFrame_ebbs j s).trans copies).trans closed).trans (.trans (updRct_ebbs _ rfl rfl) (Ebb.jobLeaves _ ?_).ebbs)
  intro one
  have tracks : ((endCopies j (endFrame j s)).rct.entries.map Entry.track).Nodup := by
    rwa [← closeEntry_tracks]
  exact closeEntry_leaves_closed tracks

theorem endWalk_ebbs (j : Job) (s : State) : Ebbs s (endWalk j s) := by
  have cooled (e : Expiry) : Ebbs s (updJob j.track (coolJob e) s) := by
    refine updJob_ebbs (fun i => (coolJob_waits e i).1) (fun i => ?_) fun i => ?_
    · unfold coolJob; split <;> rfl
    · rw [Job.openSet, coolJob_tallies]; exact .refl _
  exact .ite (cooled _) (endJob_ebbs _ _ _ _ _)

theorem endRecovered_ebbs (j : Job) (s : State) : Ebbs s (endRecovered j s) :=
  (Ebbs.ite (offer_ebbs _ _ _) (.refl s)).trans (endJob_ebbs _ _ _ _ _)

theorem pastPlain_owner (j : Job) : j.pastPlain.stationOwner = j.stationOwner := by
  unfold Job.pastPlain
  split <;> rfl

theorem advanceJob_ebbs (tr : Track) (s : State) : Ebbs s (advanceJob tr s) := by
  cases job : jobOf tr s with
  | none => rw [advanceJob, job]; exact .refl s
  | some j =>
    have opens : j.pastPlain.openSet = j.openSet := congrArg (List.map Tally.sector) (pastPlain_tallies j)
    by_cases empty : j.tallies = []
    · rw [advanceJob_of_empty job empty]
      exact endRecovered_ebbs j s
    · cases progress : progressOf s.jbq j with
      | walkEnds =>
        rw [advanceJob_of_walkEnds job empty progress]
        exact (replaceJob_ebbs job (pastPlain_track j) (pastPlain_owner j) opens).trans (endWalk_ebbs _ _)
      | stays step done =>
        rw [advanceJob_of_stays job empty progress]
        exact replaceJob_ebbs job (pastPlain_track j) (pastPlain_owner j) opens

theorem recordRefill_ebbs (job : jobOf j.track s = some j) : Ebbs s (recordRefill j s) := by
  unfold recordRefill
  split
  · have rebuilt : EntryChange j.track (Entry.refillOpen j.openSet) s :=
      ⟨fun _ => rfl, fun _ => rfl, fun _ => .inl, fun asc e _ => by
        rw [Entry.refillOpen, pendingOutcomes_sectors]
        exact asc j (mem_jobs_of_jobOf job)⟩
    exact .ite (updEntry_ebbs (fun _ => rfl) (fun _ => rfl) (fun _ => id) refillGood_sectors) (Ebb.entry rebuilt).ebbs
  · rename_i gap
    refine .ite (.refl s) (Ebb.entryJoins _ _ _ gap (fun _ => by rw [job]; rfl) fun asc => ?_).ebbs
    rw [pendingOutcomes_sectors]
    exact asc j (mem_jobs_of_jobOf job)

theorem finishJobPass_ebbs (tr : Track) (s : State) : Ebbs s (finishJobPass tr s) := by
  unfold finishJobPass
  split
  · rename_i j job
    rw [← jobOf_track job] at job
    exact (Ebbs.ite (recordRefill_ebbs job) (.refl s)).trans (advanceJob_ebbs _ _)
  · exact .refl s

/-! ### The ends of fetches (R96 to R98) -/

theorem fetchOrigin_ne_station (k : GrantKind) : fetchOrigin k ≠ .station := by
  cases k <;> decide

theorem served_keeps (limited : Bool) (o : Origin) (b : Bool) (e : Entry) :
    (e.served limited o b).track = e.track ∧ (e.served limited o b).seqNo = e.seqNo ∧
      (e.served limited o b).state = e.state ∧ (e.served limited o b).outcomes = e.outcomes := by
  unfold Entry.served
  split <;> exact ⟨rfl, rfl, rfl, rfl⟩

/-- A fill served takes no seventh frame for the STATION jobs (R97). -/
theorem fillServed_change (k : GrantKind) {is : List Nat} (asc : Ascending is) (tr : Track) (s : State) :
    JobChange tr (fillServed k is s) s := by
  refine ⟨fun _ here => here, ?_, fun _ _ _ _ => ?_⟩
  · by_cases limited : 6 ≤ stationFramesHeld s
    · right
      intro _ j _ _ owner
      have origin : (fillServed k is s j).origin = fetchOrigin k := if_pos (decide_eq_true limited)
      exact absurd (origin.symm.trans ((stationOwner_iff _).mp owner).1) (fetchOrigin_ne_station k)
    · exact .inl (Nat.lt_of_not_le limited)
  · rw [Job.openSet, fillServed, fetchTallies_openSet]
    exact asc

theorem serveFill_ebbs (k : GrantKind) (tr : Track) {is : List Nat} (asc : Ascending is) (s : State) :
    Ebbs s (serveFill k tr is s) := by
  have keeps := served_keeps (decide (Config.stationFrames ≤ stationFramesHeld s)) (fetchOrigin k) (fetchTallies s).starved
  rw [serveFill_served]
  refine ((Ebb.job (fillServed_change k asc tr s)).ebbs.trans ?_).trans (finishJobPass_ebbs _ _)
  exact updEntry_ebbs (fun e => (keeps e).1) (fun e => (keeps e).2.1) (fun e opened => (keeps e).2.2.1 ▸ opened)
    fun e => congrArg _ (keeps e).2.2.2

/-- The track's new job comes with its entry reopened or made (R96, R133, R135). -/
theorem createFetchedJob_flows (k : GrantKind) {is : List Nat} (left : Ebbs s u)
    (room : s.jbq.jobs.length < 16 ∨ ∃ tr', (jobOf tr' s).isSome ∧ jobOf tr' u = none) (gap : jobOf tr u = none)
    (asc : Ascending is) : Flows s (createFetchedJob k tr is u) := by
  have joins : Flows s (addJob (fetchedJob k tr is (fetchTallies u)) u) :=
    (Flow.jobJoins left room gap (fun owner => absurd ((stationOwner_iff _).mp owner).1 (fetchOrigin_ne_station k))
      (by rw [Job.openSet, fetchedJob, fetchTallies_openSet]; exact asc)).flows
  have there : (jobOf tr (addJob (fetchedJob k tr is (fetchTallies u)) u)).isSome :=
    Option.isSome_iff_exists.mpr ⟨_, jobOf_addJob (fetchedJob k tr is (fetchTallies u)) gap⟩
  have sectors : Ascending ((pendingOutcomes is).map OutcomeRec.sector) := by rwa [pendingOutcomes_sectors]
  cases entry : entryOf tr u with
  | some e =>
    rw [createFetchedJob_of_entry entry]
    have reopened : EntryChange tr (reopenFetched (fetchOrigin k) (fetchTallies u).starved (pendingOutcomes is))
        (addJob (fetchedJob k tr is (fetchTallies u)) u) :=
      ⟨fun _ => rfl, fun _ => rfl, fun _ _ => .inr there, fun _ _ _ => sectors⟩
    exact joins.trans (Ebb.entry reopened).ebbs.flows
  | none =>
    rw [createFetchedJob_of_no_entry entry]
    have gap' : entryOf tr (addJob (fetchedJob k tr is (fetchTallies u)) u) = none := entry
    exact joins.trans (Ebb.entryJoins _ _ _ gap' (fun _ => there) fun _ => sectors).ebbs.flows

theorem freeTrack_ebbs (tr : Track) (s : State) : Ebbs s (s.updCps (freeTrack tr)) :=
  (updCps_changes _).ebbs rfl

theorem failFetch_ebbs (k : GrantKind) (tr : Track) {is : List Nat} (asc : Ascending is) (s : State) :
    Ebbs s (failFetch k tr is s) := by
  have failed : Ebbs s (updFrame tr (failSectors is) s) := updFrame_ebbs (failSectors_track _)
  have sectors : Ascending ((queueFullOutcomes (copyCount s tr) is).map OutcomeRec.sector) := by
    rwa [queueFullOutcomes_sectors]
  cases entry : entryOf tr s with
  | some e =>
    rw [failFetch_of_entry entry]
    have closed : EntryChange tr (fun e => { reopenFetched (fetchOrigin k) (fetchTallies s).starved
        (queueFullOutcomes (copyCount s tr) is) e with state := .incomplete }) (updFrame tr (failSectors is) s) :=
      ⟨fun _ => rfl, fun _ => rfl, fun _ => nofun, fun _ _ _ => sectors⟩
    exact ((failed.trans (Ebb.entry closed).ebbs).trans (offer_ebbs _ _ _)).trans (freeTrack_ebbs _ _)
  | none =>
    rw [failFetch_of_no_entry entry]
    have gap : entryOf tr (updFrame tr (failSectors is) s) = none := entry
    have made := Ebb.entryJoins (fetchOrigin k) (st := .incomplete) 1 (fetchTallies s).starved gap nofun fun _ => sectors
    exact ((failed.trans made.ebbs).trans (offer_ebbs _ _ _)).trans (freeTrack_ebbs _ _)

theorem removablePrefetch_jobOf (h : removablePrefetch s = some j) : (jobOf j.track s).isSome :=
  jobOf_isSome_iff_mem.mpr (List.mem_map_of_mem (removablePrefetch_mem h))

theorem endFetch_flows (k : GrantKind) (tr : Track) (s : State) : Flows s (endFetch k tr s) := by
  unfold endFetch
  refine .trans ?_ (updJbq_ebbs _ rfl).flows
  have asc : Ascending (((frameOf tr s).map (sectorsWhere fun r => !r.isGood)).getD []) := by
    cases frameOf tr s with
    | none => exact .nil
    | some f => exact sectorsWhere_ascending _ f
  generalize ((frameOf tr s).map (sectorsWhere fun r => !r.isGood)).getD [] = is at asc
  split
  · exact (serveFill_ebbs k tr asc s).flows
  · rename_i free
    have gap : jobOf tr s = none := by simpa using free
    split
    · exact (freeTrack_ebbs tr s).flows
    · split
      · rename_i room
        exact createFetchedJob_flows k (.refl s) (.inl room) gap asc
      · split
        · rename_i j removed
          have ended := endJob_ebbs (.cause .cancelled) true false j s
          exact createFetchedJob_flows k ended
            (.inr ⟨j.track, removablePrefetch_jobOf removed, jobOf_removeJob j.track⟩) (ended.jobOf_none gap) asc
        · exact (failFetch_ebbs k tr asc s).flows

/-! ### Votes and copies (R58, R63, R79, R80) -/

theorem resolve_ebbs (i : Nat) (r : OutcomeResult) (n : Nat) : Ebbs s (updEntry tr (Entry.resolve i r n) s) :=
  updOpenEntry_ebbs (fun _ => rfl) (fun _ => rfl) (fun _ => rfl) fun e => setOutcome_sectors i r e.outcomes

theorem closeSector_ebbs (i : Nat) : Ebbs s (updJob tr (Job.close i) s) :=
  updJob_ebbs (fun _ => rfl) (fun _ => rfl) fun _ => List.filter_sublist.map _

/-- A tally changed, the open set stands. -/
theorem updTally_ebbs (i : Nat) {f : Tally → Tally} (hf : ∀ t, (f t).sector = t.sector) :
    Ebbs s (updJob tr (fun j => { j with tallies := updTally i f j.tallies }) s) :=
  updJob_ebbs (fun _ => rfl) (fun _ => rfl) fun j => by
    rw [Job.openSet, updTally_sectors f hf j.tallies]
    exact .refl _

theorem deliverMember_ebbs (b : Batch) (m : Member) (s : State) : Ebbs s (deliverMember b s m) := by
  have open_ (v : LastVote) : Ebbs s (deliverOpen b m v s) :=
    ((updCps_changes _).ebbs rfl).trans (updTally_ebbs m.sector fun _ => rfl)
  unfold deliverMember
  cases voteOutcome b.minMargin m.copies with
  | voted w n =>
    have framed : Ebbs s (updFrame b.track (recoverSector m.sector w) s) := updFrame_ebbs fun _ => rfl
    exact (((framed.trans ((updCps_changes _).ebbs rfl)).trans (resolve_ebbs _ _ _)).trans (updRct_ebbs _ rfl rfl)).trans
      (closeSector_ebbs _)
  | weak => exact open_ _
  | failedCheck => exact open_ _

theorem deliverBatch_ebbs (b : Batch) (s : State) : Ebbs s (deliverBatch b s) := by
  unfold deliverBatch
  generalize b.members = ms
  induction ms generalizing s with
  | nil => exact .refl s
  | cons m ms ih =>
    rw [List.foldl_cons]
    exact (deliverMember_ebbs b m s).trans (ih (deliverMember b s m))

theorem tallyPass_ebbs (tr : Track) (i : Nat) {f : Tally → Tally} (hf : ∀ t, (f t).sector = t.sector) (s : State) :
    Ebbs s (tallyPass tr i f s) :=
  .ite (updJbq_ebbs _ rfl) (updTally_ebbs i hf)

theorem setStarved_ebbs (tr : Track) (s : State) : Ebbs s (updEntry tr Entry.setStarved s) :=
  updOpenEntry_ebbs (fun _ => rfl) (fun _ => rfl) (fun _ => rfl) fun _ => rfl

theorem markStarved_ebbs (tr : Track) (s : State) : Ebbs s (markStarved tr s) :=
  have marked : Ebbs s (updJob tr (fun j => { j with starved := true }) s) :=
    updJob_ebbs (fun _ => rfl) (fun _ => rfl) fun _ => .refl _
  .ite (updJbq_ebbs _ rfl) (marked.trans (setStarved_ebbs _ _))

theorem deliverGood_ebbs (c : SealedCopy) (s : State) : Ebbs s (deliverGood c s) := by
  have framed : Ebbs s (updFrame c.addr.track (Frame.sealGood (plainPass s.dsq) c.addr.sector c.words) s) :=
    updFrame_ebbs fun _ => rfl
  have closed (v : State) : Ebbs v ((closeInPass c.addr.sector v).updCps (freeSector c.addr)) :=
    (((updRdc_changes _).ebbs rfl).trans ((updDsq_changes _).ebbs rfl)).trans ((updCps_changes _).ebbs rfl)
  have resolved := framed.trans (resolve_ebbs (tr := c.addr.track) c.addr.sector
    (.retryGood (copyCount s c.addr.track c.addr.sector) c.step c.passNo) c.step)
  have solved := (Ebbs.ite (p := plainPass s.dsq = true) framed resolved).trans (closed _)
  exact .ite solved (solved.trans (closeSector_ebbs _))

theorem deliverBad_ebbs (c : SealedCopy) (s : State) : Ebbs s (deliverBad c s) := by
  have framed : Ebbs s (updFrame c.addr.track (Frame.updSector c.addr.sector (recordBad c.words c.weight)) s) :=
    updFrame_ebbs fun _ => rfl
  have placed := framed.trans ((updCps_changes (placeCopy s.vte.copyLimit c)).ebbs rfl)
  unfold deliverBad
  dsimp only
  split
  · exact placed.trans (updRct_ebbs _ rfl rfl)
  · exact placed.trans (updRct_ebbs _ rfl rfl)
  · exact placed.trans (markStarved_ebbs _ _)
  · exact placed

theorem deliverCopy_ebbs (c : SealedCopy) (s : State) : Ebbs s (deliverCopy c s) := by
  have counted : Ebbs s (tallyPass c.addr.track c.addr.sector Tally.countCopy
      (s.updRdc fun r => { r with lastDeviation := c.deviation, assembly := none })) :=
    ((updRdc_changes _).ebbs rfl).trans (tallyPass_ebbs (f := Tally.countCopy) _ _ (fun _ => rfl) _)
  exact .trans (.ite (counted.trans (deliverGood_ebbs _ _)) (counted.trans (deliverBad_ebbs _ _)))
    (testHold_changes.ebbs rfl)

/-! ### Claims (R114, R124 to R126) -/

/-- The slot a source names is free, or held by a frame; a job evicted with it is not the station's. -/
def ClaimFrom.Stands (s : State) : ClaimFrom → Prop
  | .free => s.tks.frames.length < 8
  | .take tr => (frameOf tr s).isSome
  | .evict tr => (frameOf tr s).isSome ∧ ∀ j, jobOf tr s = some j → j.origin ≠ .station

theorem dropImage_ebbs (f : Frame) (s : State) : Ebbs s (dropImage f s) :=
  .ite ((offer_ebbs _ _ _).trans (updEntry_ebbs (fun _ => rfl) (fun _ => rfl) (fun _ => id) fun _ => rfl)) (.refl s)

theorem retire_ebbs (src : ClaimFrom) (s : State) : Ebbs s (retire src s) := by
  have left (tr : Track) (f : Frame) (v : State) : Ebbs v (releaseFrame tr (dropImage f v)) :=
    (dropImage_ebbs f v).trans (releaseFrame_ebbs tr _)
  have evicted (tr : Track) : Ebbs s (jobEvicted tr s) := by
    unfold jobEvicted
    split
    · exact endJob_ebbs _ _ _ _ _
    · exact .refl s
  cases src with
  | free => exact .refl s
  | take tr =>
    unfold retire
    dsimp only
    split
    · exact left _ _ _
    · exact .refl s
  | evict tr =>
    rw [retire_evict]
    split
    · exact (evicted tr).trans (left _ _ _)
    · exact evicted tr

/-- A named source's slot comes free. -/
theorem retire_frees {src : ClaimFrom} (named : src = .take tr ∨ src = .evict tr) :
    frameOf tr (retire src s) = none := by
  rw [frameOf, retire_tks named]
  exact find_remove_self Frame.track _ _

theorem claim_flows {src : ClaimFrom} (stands : src.Stands s) (gap : frameOf tr s = none) : Flows s (claim src tr s) := by
  have room : s.tks.frames.length < 8 ∨ ∃ tr', (frameOf tr' s).isSome ∧ frameOf tr' (retire src s) = none := by
    cases src with
    | free => exact .inl stands
    | take tr' => exact .inr ⟨tr', stands, retire_frees (.inl rfl)⟩
    | evict tr' => exact .inr ⟨tr', stands.1, retire_frees (.inr rfl)⟩
  exact (Flow.frameJoins (f := freshFrame s.geom.sectors tr) (retire_ebbs src s) room
    ((retire_ebbs src s).frameOf_none gap)).flows

theorem plainSource_stands {src : ClaimFrom} (source : plainSource s = some src) : src.Stands s ∧ src.plain = true := by
  unfold plainSource at source
  split at source
  · cases source
    exact ⟨‹_›, rfl⟩
  · obtain ⟨tr, lru, rfl⟩ := Option.map_eq_some_iff.mp source
    exact ⟨(lruWhere_cases lru).1, rfl⟩

theorem demandSource_stands {src : ClaimFrom} (source : demandSource s = some src) : src.Stands s := by
  have evicted {o : Origin} (other : o ≠ .station) (taken : (lruWhere (evictable s o) s).map .evict = some src) :
      src.Stands s := by
    obtain ⟨tr, lru, rfl⟩ := Option.map_eq_some_iff.mp taken
    obtain ⟨frame, f, rfl, evictable⟩ := lruWhere_cases lru
    refine ⟨frame, fun j job station => other ?_⟩
    rw [Machine.evictable, job, Option.any_some, station, Bool.and_eq_true, Bool.and_eq_true, beq_iff_eq] at evictable
    exact evictable.1.2.symm
  rcases orElse_cases source with plain | source
  · exact (plainSource_stands plain).1
  rcases orElse_cases source with exported | source
  · obtain ⟨tr, lru, rfl⟩ := Option.map_eq_some_iff.mp exported
    exact (lruWhere_cases lru).1
  · rcases orElse_cases source with prefetched | machine
    · exact evicted (by decide) prefetched
    · exact evicted (by decide) machine

/-- What a candidate needs: a fetch, a track without a frame and a slot for it; a job, its frame, or a slot within the
six frames of the STATION jobs (R25, R124 to R126). -/
def Candidate.Stands (s : State) : Candidate → Prop
  | .fetch _ tr src => frameOf tr s = none ∧ src.Stands s
  | .job j none => j ∈ s.jbq.jobs ∧ j.holdsFrame = true
  | .job j (some src) => frameOf j.track s = none ∧ src.Stands s ∧ src.plain = true ∧ stationFramesHeld s < 6

theorem firstJob_stands {p : Job → Bool} {c : Candidate} (first : firstJob s p = some c) : c.Stands s := by
  obtain ⟨j, mem, eligible⟩ := List.exists_of_findSome?_eq_some first
  unfold jobCandidate at eligible
  split at eligible
  · cases eligible
  · split at eligible
    · cases eligible
      exact ⟨List.mem_of_mem_filter mem, ‹_›⟩
    · split at eligible
      · cases eligible
      · rename_i gap
        obtain ⟨src, source, rfl⟩ := Option.map_eq_some_iff.mp eligible
        unfold stationSource at source
        split at source
        · obtain ⟨stands, plain⟩ := plainSource_stands source
          exact ⟨by simpa using gap, stands, plain, ‹_›⟩
        · cases source

theorem candidate_stands {c : Candidate} (first : candidate s = some c) : c.Stands s := by
  rcases orElse_cases first with demand | first
  · unfold demandCandidate at demand
    split at demand
    · rename_i hold
      obtain ⟨src, source, rfl⟩ := Option.map_eq_some_iff.mp demand
      exact ⟨by simpa using hold.2, demandSource_stands source⟩
    · cases demand
  rcases orElse_cases first with current | first
  · exact firstJob_stands current
  rcases orElse_cases first with station | first
  · exact firstJob_stands station
  rcases orElse_cases first with machine | first
  · exact firstJob_stands machine
  rcases orElse_cases first with prefetched | last
  · unfold prefetchCandidate at prefetched
    split at prefetched
    · obtain ⟨tr, track, source⟩ := Option.bind_eq_some_iff.mp prefetched
      obtain ⟨src, plain, rfl⟩ := Option.map_eq_some_iff.mp source
      exact ⟨(prefetchTrack_eq_some_iff.mp track).2.2.1, (plainSource_stands plain).1⟩
    · cases prefetched
  · exact firstJob_stands last

theorem prepareGrant_flows {c : Candidate} (stands : c.Stands s) : Flows s (prepareGrant c s) := by
  have active (v : State) (tr : Track) (owners : stationFramesHeld v < 6 ∨ ((v.jbq.jobs.map Job.track).Nodup →
      ∀ j ∈ v.jbq.jobs, j.track = tr → j.holdsFrame = true)) :
      Flows v (updJob tr (fun j => { j with state := .active, holdsFrame := true }) v) := by
    have change : JobChange tr (fun j => { j with state := .active, holdsFrame := true }) v :=
      ⟨fun _ here => here, owners.imp_right fun holds one j mem here owner =>
        (stationOwner_iff j).mpr ⟨((stationOwner_iff _).mp owner).1, holds one j mem here⟩, fun asc j mem _ => asc j mem⟩
    exact (Ebb.job change).ebbs.flows
  match c with
  | .fetch kind tr src =>
    obtain ⟨gap, source⟩ := stands
    have fetch : Flows (claim src tr s) ((claim src tr s).updJbq fun q =>
        { q with fetch := some ⟨zeroTallies (List.range s.geom.sectors), false⟩ }) := (updJbq_ebbs _ rfl).flows
    exact (claim_flows source gap).trans fetch
  | .job j none =>
    obtain ⟨mem, holds⟩ := stands
    refine active s j.track (.inr fun one i here same => ?_)
    have only := find_key_of_mem Job.track one here
    rw [same, find_key_of_mem Job.track one mem] at only
    cases only
    exact holds
  | .job j (some src) =>
    obtain ⟨gap, source, plain, below⟩ := stands
    refine (claim_flows source gap).trans (active _ j.track (.inl ?_))
    show (retire src s).jbq.jobs.countP _ < 6
    rw [retire_jbq_of_plain plain]
    exact below

end Sys2Proof.Machine
end

section
/-! PROOF. Every command but the power-on is a sequence of changes by which members join and leave the collections, which
keep the limits, the table and the order of the sectors (R93, R113, R130 to R132, R163, R197). -/

namespace Sys2Proof.Machine

variable {s t u : State} {tr : Track} {j : Job} {bs : List Block}

/-! ### The Drive Sequencer (R25 to R38) -/

/-- The job on a track takes another state. -/
theorem setJobState_ebbs (f : Job → JobState) : Ebbs s (updJob tr (fun j => { j with state := f j }) s) :=
  updJob_ebbs (fun _ => rfl) (fun _ => rfl) fun _ => .refl _

theorem endUnpassed_flows (g : Grant) (s : State) : Flows s (endUnpassed g s) := by
  have free : Flows s (setGrant none s) := (setGrant_changes none).flows rfl
  exact .ite (free.trans (setJobState_ebbs _).flows) (.ite (free.trans (endFetch_flows _ _ _))
    ((free.trans (releaseFrame_ebbs _ _).flows).trans (updJbq_ebbs _ rfl).flows))

theorem abortPass_flows (g : Grant) (s : State) : Flows s (abortPass g s) := by
  have free : Flows s (setGrant none (endPassContext s)) :=
    ((updRdc_changes _).flows rfl).trans ((setGrant_changes none).flows rfl)
  exact .ite (free.trans (setJobState_ebbs _).flows) (free.trans (endFetch_flows _ _ _))

theorem abandonWork_flows (s : State) : Flows s (abandonWork s) := by
  unfold abandonWork
  refine .trans ?_ (clearOperation_changes.flows rfl)
  split
  · split
    · exact endUnpassed_flows _ _
    · exact abortPass_flows _ _
    · exact .refl s
  · exact .refl s

theorem completeBatch_flows (b : Batch) (s : State) : Flows s (completeBatch b s) := by
  have freed := (((deliverBatch_ebbs b s).trans ((updVte_changes fun v => { v with batch := none }).ebbs rfl)).trans
    (finishJobPass_ebbs b.track _)).trans ((setGrant_changes none).ebbs rfl) |>.flows
  exact .ite (freed.trans (enterIdle_changes.flows rfl)) freed

theorem passTallied_ebbs (g : Grant) (s : State) : Ebbs s (passTallied g s) := by
  have counted : Ebbs s (updJob g.track (fun j => { j with counter := bump 65535 j.counter }) s) :=
    updJob_ebbs (fun _ => rfl) (fun _ => rfl) fun _ => .refl _
  exact counted.trans (updOpenEntry_ebbs (fun _ => rfl) (fun _ => rfl) (fun _ => rfl) fun _ => rfl)

theorem jobPassEnded_flows (g : Grant) (s : State) : Flows s (jobPassEnded g s) :=
  ((((passTallied_ebbs g s).trans ((setGrant_changes _).ebbs rfl)).trans ((setDsqState_changes _).ebbs rfl)).trans
    ((updVte_changes _).ebbs rfl)).flows

theorem countPass_flows (g : Grant) (s : State) : Flows s (countPass g s) := by
  by_cases kind : g.kind = .jobPass
  · have counted : countPass g s = if (formBatch g (passTallied g (endPassContext s))).members.isEmpty
        then completeBatch (formBatch g (passTallied g (endPassContext s))) (jobPassEnded g (endPassContext s))
        else jobPassEnded g (endPassContext s) := if_pos kind
    have ended : Flows s (jobPassEnded g (endPassContext s)) :=
      ((updRdc_changes _).flows rfl).trans (jobPassEnded_flows g _)
    rw [counted]
    exact .ite (ended.trans (completeBatch_flows _ _)) ended
  · rw [countPass_fetch kind]
    exact ((((updRdc_changes _).flows rfl).trans ((setGrant_changes none).flows rfl)).trans (endFetch_flows _ _ _)).trans
      (enterIdle_changes.flows rfl)

theorem endSettle_flows (s : State) : Flows s (endSettle s) := by
  have ended : Flows s (clearOperation s) := clearOperation_changes.flows rfl
  unfold endSettle
  split
  · exact .ite ((ended.trans (endUnpassed_flows _ _)).trans (enterIdle_changes.flows rfl))
      (ended.trans ((setDsqState_changes _).flows rfl))
  · exact ended.trans (enterIdle_changes.flows rfl)

theorem beginSettle_flows (g : Grant) (s : State) : Flows s (beginSettle g s) :=
  .ite (((updDsq_changes _).flows rfl).trans (endSettle_flows _)) ((updDsq_changes _).flows rfl)

theorem takeUpGrant_flows (g : Grant) (s : State) : Flows s (takeUpGrant g s) := by
  unfold takeUpGrant
  split
  · exact beginRecalibrate_changes.flows rfl
  · exact .ite ((updDsq_changes _).flows rfl) (.ite (beginSettle_flows _ _)
      ((clearOperation_changes.flows rfl).trans ((setDsqState_changes _).flows rfl)))

theorem arbitrate_flows (s : State) : Flows s (arbitrate s) := by
  rcases arbitrate_cases s with e | ⟨c, first, -, -, -, e⟩ <;> rw [e]
  · exact .refl s
  · exact ((prepareGrant_flows (candidate_stands first)).trans ((setGrant_changes _).flows rfl)).trans (takeUpGrant_flows _ _)

theorem raiseFence_flows (cause : FenceCause) (before s : State) : Flows s (raiseFence cause before s) := by
  cases fence : s.dsq.fence with
  | some x => rw [raiseFence_of_fenced (by rw [fence]; rfl)]; exact .refl s
  | none =>
    rw [raiseFence_of_free fence]
    exact ((abandonWork_flows s).trans ((updDsq_changes _).flows rfl)).trans (offerLatching_ebbs _ _ _).flows

theorem seekFault_flows (s : State) : Flows s (seekFault s) := by
  by_cases reached : s.dsq.set.fenceLimit ≤ s.dsq.faults + 1
  · rw [seekFault_of_limit reached]
    exact ((updDsq_changes _).flows rfl).trans (raiseFence_flows _ _ _)
  · rw [seekFault_of_below (Nat.lt_of_not_le reached)]
    exact (faultRetried_changes s).flows rfl

theorem followSpindle_flows (old : Spindle) (s : State) : Flows s (followSpindle old s) := by
  by_cases same : old = spindleOf s.ixm
  · rw [same, followSpindle_same rfl]
    exact .refl s
  rcases spindle_cases s.ixm with down | unstable | running
  · rw [followSpindle_of_down (Ne.symm same) down]
    rcases followDown_cases s with ⟨-, e⟩ | ⟨-, e⟩ | ⟨-, e⟩ | ⟨-, e⟩ <;> rw [e]
    · exact (setDsqState_changes _).flows rfl
    · exact ((abandonWork_flows s).trans ((updDsq_changes _).flows rfl)).trans ((setDsqState_changes _).flows rfl)
    · exact (abandonWork_flows s).trans ((setDsqState_changes _).flows rfl)
    · exact .refl s
  · rw [followSpindle_unstable (Ne.symm same) unstable]
    by_cases reading : s.dsq.state = .reading
    · rw [followUnstable_of_reading reading]
      exact (abandonWork_flows s).trans ((setDsqState_changes _).flows rfl)
    · rw [followUnstable_of_not_reading reading]
      exact .refl s
  · rw [followSpindle_of_running (Ne.symm same) running]
    rcases followRunning_cases s with e | ⟨-, e⟩ <;> rw [e]
    · exact .refl s
    · exact beginRecalibrate_changes.flows rfl

theorem beginPass_flows (g : Grant) (r : Timer) (s : State) : Flows s (beginPass g r s) := by
  unfold beginPass
  exact ((setGrant_changes _).flows rfl).trans ((updRdc_changes _).flows rfl)

theorem takeMark_flows (r : Timer) (s : State) : Flows s (takeMark r s) := by
  rcases takeMark_cases r s with e | ⟨g, -, -, ⟨-, e⟩ | ⟨-, e⟩⟩ <;> rw [e]
  · exact .refl s
  · exact countPass_flows g s
  · exact beginPass_flows g r s

theorem takeLateExpiry_flows (s : State) : Flows s (takeLateExpiry s) := by
  rcases takeLateExpiry_cases s with e | ⟨g, -, -, -, e⟩ <;> rw [e]
  · exact .refl s
  · exact countPass_flows g s

theorem completeSeek_flows (s : State) : Flows s (completeSeek s) := by
  have arrived := (seekArrived_changes s).flows rfl
  cases grant : s.dsq.grant with
  | none => rw [completeSeek_of_free grant]; exact arrived.trans (enterIdle_changes.flows rfl)
  | some g =>
    by_cases unstable : spindleOf s.ixm = .unstable
    · rw [completeSeek_of_unstable grant unstable]
      exact (arrived.trans (endUnpassed_flows g _)).trans (enterIdle_changes.flows rfl)
    · rw [completeSeek_of_steady grant unstable]
      exact arrived.trans (beginSettle_flows g _)

theorem resumeGrant_flows (g : Grant) (s : State) : Flows s (resumeGrant g s) := by
  have ended : Flows s (enterIdle (endUnpassed g s)) := (endUnpassed_flows g s).trans (enterIdle_changes.flows rfl)
  unfold resumeGrant
  split
  · exact countPass_flows g s
  · exact ended
  · exact .ite ended (takeUpGrant_flows g s)

theorem completeRecalibrate_flows (s : State) : Flows s (completeRecalibrate s) := by
  have arrived := (recalibrateArrived_changes s).flows rfl
  cases grant : s.dsq.grant with
  | none => rw [completeRecalibrate_of_free grant]; exact arrived.trans (enterIdle_changes.flows rfl)
  | some g =>
    by_cases phase : g.phase = .approach
    · rw [completeRecalibrate_of_approach grant phase]; exact arrived.trans (resumeGrant_flows g _)
    · rw [completeRecalibrate_of_past grant phase]; exact arrived.trans (enterIdle_changes.flows rfl)

/-! ### The ends of events, and answers -/

theorem afterJobs_flows (s : State) : Flows s (afterJobs s) :=
  (testHold_changes.flows rfl).trans (arbitrate_flows _)

theorem afterEvent_flows (s : State) : Flows s (afterEvent s) :=
  (followReady_changes.flows rfl).trans (afterJobs_flows _)

theorem fence_after_flows (cause : FenceCause) (before s : State) : Flows s (afterEvent (raiseFence cause before s)) :=
  (raiseFence_flows cause before s).trans (afterEvent_flows _)

theorem seekFault_after_flows (s : State) : Flows s (afterEvent (seekFault s)) :=
  (seekFault_flows s).trans (afterEvent_flows _)

theorem watchSelect_flows (s : State) : Flows s (watchSelect s) :=
  .ite (fence_after_flows _ _ _) (.refl s)

theorem answer_flows (r : ResultCode) (code : Byte) (p : List Byte) (s : State) : Flows s (answer r code p s) :=
  (answer_changes r code p).flows rfl

theorem refuse_flows (r : ResultCode) (code : Byte) (s : State) : Flows s (refuse r code s) :=
  answer_flows _ _ _ _

theorem takeRequest_flows {code : Byte} {act : List Byte → State → State} (h : ∀ p, Flows s (act p s)) :
    Flows s (takeRequest code act s) :=
  takeRequest_keeps (P := Flows s) (.refl s) (refuse_flows _ _ _) h

/-! ### Rotation and headers -/

theorem badEvent_flows (x : Ixm) (s : State) : Flows s (badEvent x s) := by
  have reported : Ebbs s (reportViolations x.violations (s.updIxm fun _ => { x with latched := x.latched || latches x })) :=
    ((updIxm_changes _).ebbs rfl).trans (updRct_ebbs _ rfl rfl)
  exact (Ebbs.ite (reported.trans (offerLatching_ebbs _ _ _)) reported).flows

theorem monitorIndex_flows (now : Timer) (s : State) : Flows s (monitorIndex now s) := by
  unfold monitorIndex
  split
  · exact (updIxm_changes _).flows rfl
  · exact (((updIxm_changes _).ebbs rfl).trans (offer_ebbs _ _ _)).flows
  · exact badEvent_flows _ s
  · have good : Ebbs s (s.updIxm (goodIndex now)) := (updIxm_changes _).ebbs rfl
    exact (Ebbs.ite (good.trans (offer_ebbs _ _ _)) good).flows
  · exact (updIxm_changes _).flows rfl

theorem qualifiedIndex_flows (s : State) : Flows s (qualifiedIndex s) := by
  have monitored : Flows s (indexMonitored s) := ((updIxm_changes _).flows rfl).trans (monitorIndex_flows _ _)
  have followed : Flows s (followSpindle (spindleOf s.ixm) (indexMonitored s)) :=
    monitored.trans (followSpindle_flows _ _)
  exact .trans (.ite (followed.trans (takeMark_flows _ _)) followed) (afterEvent_flows _)

theorem takeHeader_flows (p : PassContext) (mark : Timer) (h : HeaderRead) (s : State) :
    Flows s (takeHeader p mark h s) :=
  .ite (.refl s) (.ite (.ite (tallyPass_ebbs (f := Tally.countBadHeader) _ _ (fun _ => rfl) _).flows (.refl s))
    (.ite (seekFault_after_flows s) (.ite ((updRdc_changes _).flows rfl) (.refl s))))

/-! ### The job requests (R99 to R102, R109, R135) -/

theorem stationJob_opens (holds fill : Bool) (step first : Nat) (is : List Nat) :
    (stationJob tr holds fill step first is).openSet = is :=
  zeroTallies_openSet is

theorem stationLimit_false_iff : stationLimit s = false ↔ stationFramesHeld s < 6 := by
  rw [stationLimit, decide_eq_false_iff_not]
  exact Nat.not_le

theorem createKeptJob_flows (f : Frame) (n : Nat) (room : s.jbq.jobs.length < 16) (below : stationFramesHeld s < 6)
    (gap : jobOf tr s = none) : Flows s (createKeptJob tr f n s) := by
  have asc := sectorsWhere_ascending SectorRec.isFailed f
  unfold createKeptJob
  generalize sectorsWhere SectorRec.isFailed f = failed at asc
  have joins : Flows s (addJob (stationJob tr true false n (firstStep n) failed) s) :=
    (Flow.jobJoins (.refl s) (.inl room) gap (fun _ => below) (by rwa [stationJob_opens])).flows
  have there : (jobOf tr (addJob (stationJob tr true false n (firstStep n) failed) s)).isSome :=
    Option.isSome_iff_exists.mpr ⟨_, jobOf_addJob (stationJob tr true false n (firstStep n) failed) gap⟩
  have framed := joins.trans (updFrame_ebbs (tr := tr) (f := Frame.reopen) fun _ => rfl).flows
  dsimp only
  split
  · have reopened : EntryChange tr (reopenKept failed)
        (updFrame tr Frame.reopen (addJob (stationJob tr true false n (firstStep n) failed) s)) :=
      ⟨fun _ => rfl, fun _ => rfl, fun _ _ => .inr there, fun _ e sectors =>
        insertPendings_ascending failed (by rwa [reviveFailed_sectors])⟩
    exact framed.trans (Ebb.entry reopened).ebbs.flows
  · rename_i entry
    have gap' : entryOf tr
        (updFrame tr Frame.reopen (addJob (stationJob tr true false n (firstStep n) failed) s)) = none := entry
    exact framed.trans (Ebb.entryJoins _ _ _ gap' (fun _ => there) fun _ => by rwa [pendingOutcomes_sectors]).ebbs.flows

theorem createFramelessJob_flows (n : Nat) (room : s.jbq.jobs.length < 16) (gap : jobOf tr s = none) :
    Flows s (createFramelessJob tr n s) := by
  have joins : Flows s (addJob (stationJob tr false true 0 (firstStep n) (List.range s.geom.sectors)) s) :=
    (Flow.jobJoins (.refl s) (.inl room) gap (fun owner => absurd ((stationOwner_iff _).mp owner).2 Bool.false_ne_true)
      (by rw [stationJob_opens]; exact ascending_range _)).flows
  have there : (jobOf tr (addJob (stationJob tr false true 0 (firstStep n) (List.range s.geom.sectors)) s)).isSome :=
    Option.isSome_iff_exists.mpr
      ⟨_, jobOf_addJob (stationJob tr false true 0 (firstStep n) (List.range s.geom.sectors)) gap⟩
  have reopened : EntryChange tr reopenFrameless
      (addJob (stationJob tr false true 0 (firstStep n) (List.range s.geom.sectors)) s) :=
    ⟨fun _ => rfl, fun _ => rfl, fun _ _ => .inr there, fun _ e sectors => by
      rw [reopenFrameless, reviveFailed_sectors]; exact sectors⟩
  exact joins.trans (Ebb.entry reopened).ebbs.flows

/-- A job takes the STATION origin where the six frames allow it (R93, R101). -/
theorem setStation_ebbs (job : jobOf tr s = some j) (below : j.holdsFrame = false ∨ stationFramesHeld s < 6) :
    Ebbs s (updJob tr (fun j => { j with origin := .station }) s) := by
  have change : JobChange tr (fun j => { j with origin := .station }) s := by
    refine ⟨fun _ here => here, ?_, fun asc i mem _ => asc i mem⟩
    refine below.symm.imp_right fun frameless one i mem here owner => ?_
    have only := find_key_of_mem Job.track one mem
    rw [here] at only
    cases Option.some.inj (only.symm.trans job)
    exact absurd (((stationOwner_iff _).mp owner).2.symm.trans frameless) (by decide)
  exact (Ebb.job change).ebbs

theorem setOrigin_ebbs (o : Origin) : Ebbs s (updEntry tr (Entry.setOrigin o) s) :=
  updOpenEntry_ebbs (fun _ => rfl) (fun _ => rfl) (fun _ => rfl) fun _ => rfl

theorem mergeJob_flows (job : jobOf j.track s = some j) : Flows s (mergeJob j s) := by
  unfold mergeJob
  split
  · exact answer_flows _ _ _ s
  · split
    · exact refuse_flows _ _ s
    · rename_i free
      have below : j.holdsFrame = false ∨ stationFramesHeld s < 6 := by
        rw [← stationLimit_false_iff]
        simpa [← Bool.and_eq_false_iff] using free
      exact (((setStation_ebbs job below).trans (setOrigin_ebbs _)).flows.trans (afterJobs_flows _)).trans
        (answer_flows _ _ _ _)

theorem queueKept_flows (n : Nat) (f : Frame) (room : s.jbq.jobs.length < 16) (gap : jobOf tr s = none) :
    Flows s (queueKept tr n f s) := by
  unfold queueKept
  split
  · exact refuse_flows _ _ s
  · rename_i free
    have below := stationLimit_false_iff.mp (by simpa using free)
    exact .ite ((offer_ebbs _ _ _).flows.trans (answer_flows _ _ _ _))
      (((createKeptJob_flows f n room below gap).trans (afterJobs_flows _)).trans (answer_flows _ _ _ _))

theorem takeQueueTrack_flows (p : List Byte) (s : State) : Flows s (takeQueueTrack p s) := by
  unfold takeQueueTrack
  refine .ite ?_ (refuse_flows _ _ s)
  split
  · rename_i j job
    exact mergeJob_flows (by rwa [jobOf_track job])
  · rename_i gap
    split
    · exact refuse_flows _ _ s
    · rename_i room
      have room : s.jbq.jobs.length < 16 := Nat.lt_of_not_le room
      split
      · exact queueKept_flows _ _ room gap
      · exact ((createFramelessJob_flows _ room gap).trans (afterJobs_flows _)).trans (answer_flows _ _ _ _)

theorem takeRetryTrack_flows (p : List Byte) (s : State) : Flows s (takeRetryTrack p s) := by
  unfold takeRetryTrack
  refine .ite ?_ (refuse_flows _ _ s)
  split
  · split
    · rename_i allowed
      split
      · exact refuse_flows _ _ s
      · rename_i free
        obtain ⟨room, limit⟩ := Bool.or_eq_false_iff.mp (Bool.eq_false_of_not_eq_true free)
        have gap : jobOf (trackOf p) s = none := by
          simp only [retryAllowed, Bool.and_eq_true] at allowed
          simpa using allowed.1.2
        have created := createKeptJob_flows (tr := trackOf p) ‹Frame› 1 (Nat.lt_of_not_le (of_decide_eq_false room))
          (stationLimit_false_iff.mp limit) gap
        exact (created.trans (afterJobs_flows _)).trans (answer_flows _ _ _ _)
    · exact refuse_flows _ _ s
  · exact refuse_flows _ _ s
  · exact refuse_flows _ _ s

theorem cancelGrant_flows (tr : Track) (s : State) : Flows s (cancelGrant tr s) :=
  (cancelGrant_changes tr).flows rfl

theorem takeCancelJob_flows (p : List Byte) (s : State) : Flows s (takeCancelJob p s) := by
  unfold takeCancelJob
  refine .ite ?_ (refuse_flows _ _ s)
  split
  · exact (((cancelGrant_flows _ s).trans (endJob_ebbs _ _ _ _ _).flows).trans (afterJobs_flows _)).trans
      (answer_flows _ _ _ _)
  · exact refuse_flows _ _ s

/-! ### The requests that store settings, and the control requests -/

theorem takeSetGeometry_flows (p : List Byte) (s : State) : Flows s (takeSetGeometry p s) := by
  have stored : Flows s (storeGeometry (geometryOf p) s) :=
    ((((updGeom_changes _).flows rfl).trans ((updDsq_changes _).flows rfl)).trans
      (portNewGeometry_changes.flows rfl)).trans (arbitrate_flows _)
  exact .ite (.ite (stored.trans (answer_flows _ _ _ _)) (refuse_flows _ _ s)) (refuse_flows _ _ s)

theorem takeSetRotation_flows (p : List Byte) (s : State) : Flows s (takeSetRotation p s) :=
  .ite (((((updIxm_changes _).flows rfl).trans (followSpindle_flows _ _)).trans (afterEvent_flows _)).trans
    (answer_flows _ _ _ _)) (refuse_flows _ _ s)

theorem storePort_flows (n : Nat) (hold pulse : Bool) (s : State) : Flows s (storePort n hold pulse s) := by
  have moved : Ebbs s (s.updEvq (setAttentionMode s.mcp.attnPulse pulse)) := by
    refine (Ebb.events _ ?_).ebbs
    unfold setAttentionMode
    split
    · exact Nat.le_refl _
    · split <;> exact Nat.le_refl _
  have hold (v : State) : Ebbs v (v.updTks fun k => { k with exportHold := hold }) := (Ebb.frames _ (.refl _)).ebbs
  exact ((moved.trans ((updMcp_changes _).ebbs rfl)).trans (hold _)).flows

theorem takeMarkExported_flows (p : List Byte) (s : State) : Flows s (takeMarkExported p s) := by
  have marked : Ebbs s (updEntry (trackOf p) (fun e => { e with exported := true }) s) :=
    updEntry_ebbs (fun _ => rfl) (fun _ => rfl) (fun _ => id) fun _ => rfl
  have cleared := marked.trans (updFrame_ebbs (tr := trackOf p) (f := clearExport) fun _ => rfl)
  exact .ite ((cleared.flows.trans (arbitrate_flows _)).trans (answer_flows _ _ _ _)) (refuse_flows _ _ s)

theorem takeClearFence_flows (s : State) : Flows s (takeClearFence s) := by
  unfold takeClearFence
  refine .ite (refuse_flows _ _ s) ?_
  split
  · have cleared (c : FenceCause) : Flows s (clearedFence c s) :=
      (((updDsq_changes _).ebbs rfl).trans (offer_ebbs _ _ _)).flows
    refine .trans (.ite ?_ (cleared _)) (answer_flows _ _ _ _)
    exact (((cleared _).trans (beginRecalibrate_changes.flows rfl)).trans (afterEvent_flows _)).trans (watchSelect_flows _)
  · exact answer_flows _ _ _ s

theorem takeRestDrive_flows (p : List Byte) (s : State) : Flows s (takeRestDrive p s) := by
  have rests (n : Nat) : Flows s (begunRest n s) := (abandonWork_flows s).trans ((updDsq_changes _).flows rfl)
  exact .ite (refuse_flows _ _ s) ((Flows.ite ((rests _).trans (beginRecalibrate_changes.flows rfl)) (rests _)).trans
    (afterEvent_flows _) |>.trans (answer_flows _ _ _ _))

theorem takeBypassOn_flows (s : State) : Flows s (takeBypassOn s) := by
  have closed : Flows s (bypassOn s) :=
    ((abandonWork_flows s).trans ((updDsq_changes _).flows rfl)).trans ((updMcp_changes _).flows rfl)
  exact .trans (.ite (.refl s) closed) (answer_flows _ _ _ _)

theorem takeBypassOff_flows (s : State) : Flows s (takeBypassOff s) := by
  have opened : Flows s (relayOpened s) := (updDsq_changes _).flows rfl
  have drive : Flows s (reattachDrive s) := .ite (opened.trans ((setDsqState_changes _).flows rfl))
    (.ite (opened.trans (raiseFence_flows _ _ _)) (.ite (opened.trans (raiseFence_flows _ _ _))
      (opened.trans (beginRecalibrate_changes.flows rfl))))
  have port (v : State) : Flows v (reattachPort v) :=
    .ite (((updMcp_changes _).flows rfl).trans (beginHold_changes.flows rfl)) ((updMcp_changes _).flows rfl)
  exact .trans (.ite ((drive.trans (port _)).trans (arbitrate_flows _)) (.refl s)) (answer_flows _ _ _ _)

/-! ### SOFT_RESET (R112, R194) -/

theorem cancelAll_ebbs (js : List Job) (s : State) :
    Ebbs s (js.foldl (fun s j => endJob (.cause .cancelled) true true j s) s) := by
  induction js generalizing s with
  | nil => exact .refl s
  | cons j js ih =>
    rw [List.foldl_cons]
    exact (endJob_ebbs (.cause .cancelled) true true j s).trans (ih (endJob (.cause .cancelled) true true j s))

theorem cancelAll_frees {js : List Job} (mem : j ∈ js) (s : State) :
    jobOf j.track (js.foldl (fun s j => endJob (.cause .cancelled) true true j s) s) = none := by
  induction js generalizing s with
  | nil => cases mem
  | cons i js ih =>
    rw [List.foldl_cons]
    rcases List.mem_cons.mp mem with rfl | mem
    · have freed : jobOf j.track (endJob (.cause .cancelled) true true j s) = none := jobOf_removeJob j.track
      exact (cancelAll_ebbs js _).jobOf_none freed
    · exact ih mem _

theorem resetJobs_empties (s : State) : (resetJobs s).jbq.jobs = [] := by
  refine List.eq_nil_iff_forall_not_mem.mpr fun j mem => ?_
  have there : j.track ∈ (resetJobs s).jbq.jobs.map Job.track := List.mem_map_of_mem mem
  obtain ⟨i, before, same⟩ := List.mem_map.mp ((cancelAll_ebbs _ s).tracksLeft.jobs.subset there)
  exact jobOf_none_iff.mp (cancelAll_frees before s) (same ▸ there)

theorem softReset_flows (s : State) : Flows s (softReset s) := by
  have queue : Ebbs s ((resetJobs s).updJbq fun q => { q with jobs := [], fetch := none }) :=
    (cancelAll_ebbs _ s).trans (updJbq_ebbs _ (resetJobs_empties s).symm)
  have frames := queue.trans (Ebb.frames (fun k => { k with frames := [] }) (List.nil_subperm)).ebbs
  have restarted : Ebb (((resetJobs s).updJbq fun q => { q with jobs := [], fetch := none }).updTks
      fun k => { k with frames := [] }) (resetBlocks s) := by
    refine .plain ⟨rfl, fun b out => ?_⟩
    cases b with
    | ovl | tks | jbq | rct | evq => rfl
    | _ => exact absurd (by decide) out
  exact ((frames.trans restarted.ebbs).trans (offer_ebbs _ _ _)).flows

/-! ### The overlay and the events (R161, R163, R164, R197 to R200) -/

theorem storeWrite_ebbs (a : SectorAddr) (d : SectorData) (s : State) : Ebbs s (storeWrite a d s) := by
  unfold storeWrite
  split
  · refine (Ebb.overlay _ fun h => ⟨by simpa using h.most, ?_⟩).ebbs
    have addrs : (s.ovl.entries.map fun e => if e.addr = a then rewrite d e else e).map OverlayEntry.addr =
        s.ovl.entries.map OverlayEntry.addr := keys_change OverlayEntry.addr _ _ _ fun _ => rfl
    rw [addrs]
    exact h.one
  · rename_i gap
    split
    · rename_i room
      refine (Ebb.overlay _ fun h => ⟨by rw [List.length_append]; exact room, ?_⟩).ebbs
      refine nodup_join OverlayEntry.addr (x := ⟨a, d, 1⟩) h.one fun mem => gap ?_
      simpa [overlayOf, List.find?_isSome] using mem
    · exact ((updMcp_changes _).ebbs rfl).trans (offer_ebbs _ _ _)

theorem OverlayBounded.drop {o : Ovl} (h : OverlayBounded o) (a : SectorAddr) : OverlayBounded (dropOverlayEntry a o) :=
  ⟨(List.length_filter_le _ _).trans h.most, h.one.sublist (List.filter_sublist.map _)⟩

theorem updEvq_flows (f : Evq → Evq) (h : (f s.evq).records.length ≤ s.evq.records.length) : Flows s (s.updEvq f) :=
  (Ebb.events f h).ebbs.flows

theorem endPulse_records (now : Timer) (e : Evq) : (endPulse now e).records = e.records := by
  unfold endPulse
  split <;> rfl

theorem endGap_records (now : Timer) (e : Evq) : (endGap now e).records = e.records := by
  unfold endGap
  split <;> rfl

/-! ### Every command -/

/-- The command answers a state that a sequence of changes leads to. -/
def ExecFlows (c : Instr) (s : State) : Prop :=
  ∃ t, exec c s = .next t ∧ Flows s t

theorem CompletesWithin.execFlows {c : Instr} (h : CompletesWithin bs c s) (plain : bs.all plainBlocks.contains = true) :
    ExecFlows c s :=
  h.imp fun _ k => ⟨k.1, k.2.flows plain⟩

theorem exec_flows (c : Instr) (s : State) (h : c ≠ .powerOnReset) : ExecFlows c s := by
  cases c with
  | powerOnReset => exact absurd rfl h
  | indexQualified n => exact ⟨_, rfl, .ite (qualifiedIndex_flows s) (.refl s)⟩
  | startupWindowExpiry =>
    exact ⟨_, rfl, .ite (((badEvent_flows _ s).trans (followSpindle_flows _ _)).trans (afterEvent_flows _)) (.refl s)⟩
  | openWindowExpiry =>
    exact ⟨_, rfl, .ite ((((badEvent_flows _ s).trans (followSpindle_flows _ _)).trans (takeLateExpiry_flows _)).trans
      (afterEvent_flows _)) (.refl s)⟩
  | resyncLimitExpiry =>
    exact ⟨_, rfl, .ite (((((updIxm_changes _).flows rfl).trans (offer_ebbs _ _ _).flows).trans
      (followSpindle_flows _ _)).trans (afterEvent_flows _)) (.refl s)⟩
  | seekComplete current =>
    refine ⟨_, rfl, .ite ?_ (.refl s)⟩
    split
    · exact (completeSeek_flows s).trans (afterEvent_flows _)
    · exact (completeRecalibrate_flows s).trans (afterEvent_flows _)
    · exact .refl s
  | seekError =>
    refine ⟨_, rfl, ?_⟩
    split
    · exact seekFault_after_flows s
    · exact seekFault_after_flows s
    · exact seekFault_after_flows s
    · exact .refl s
  | seekTimeoutExpiry => exact ⟨_, rfl, .ite (seekFault_after_flows s) (.refl s)⟩
  | recalibrateTimeoutExpiry => exact ⟨_, rfl, .ite (fence_after_flows _ _ _) (.refl s)⟩
  | settleWaitEnd => exact ⟨_, rfl, .ite ((endSettle_flows s).trans (afterEvent_flows _)) (.refl s)⟩
  | restEnd => exact ⟨_, rfl, .ite ((beginRecalibrate_changes.flows rfl).trans (afterEvent_flows _)) (.refl s)⟩
  | driveFaultAsserted line =>
    exact ⟨_, rfl, .ite (((updPins_changes _).flows rfl).trans (fence_after_flows _ _ _)) ((updPins_changes _).flows rfl)⟩
  | contentionSeen held => exact ⟨_, rfl, ((updPins_changes _).flows rfl).trans (watchSelect_flows _)⟩
  | header mark cyl hd sector check outside =>
    refine ⟨_, rfl, ?_⟩
    split
    · exact takeHeader_flows _ _ _ s
    · exact .refl s
  | copySeal data check outside =>
    refine ⟨_, rfl, ?_⟩
    split
    · exact (deliverCopy_ebbs _ s).flows
    · exact .refl s
  | batchCompletion =>
    refine ⟨_, rfl, ?_⟩
    split
    · exact (completeBatch_flows _ s).trans (afterEvent_flows _)
    · exact .refl s
  | cooldownExpiry cyl hd =>
    have warmed (tr : Track) : Flows s (updJob tr warmJob s) :=
      (updJob_ebbs (f := warmJob) (fun _ => rfl) (fun _ => rfl) fun _ => .refl _).flows
    refine ⟨_, rfl, ?_⟩
    split
    · exact .ite ((warmed _).trans (arbitrate_flows _)) (.refl s)
    · exact .refl s
  | holdExpiry => exact ⟨_, rfl, .ite (((updMcp_changes _).flows rfl).trans (arbitrate_flows _)) (.refl s)⟩
  | seek cyl =>
    have moved (tr : Track) : Flows s (beginHold (setTrack tr s)) :=
      ((setTrack_changes _).flows rfl).trans (beginHold_changes.flows rfl)
    exact ⟨_, rfl, .ite (.ite ((moved _).trans (arbitrate_flows _)) ((updMcp_changes _).flows rfl)) (.refl s)⟩
  | head hd => exact ⟨_, rfl, .ite (((selectHead_changes _).flows rfl).trans (arbitrate_flows _)) (.refl s)⟩
  | recalibrate =>
    have moved : Flows s (beginHold (setTrack ⟨0, s.mcp.track.head⟩ s)) :=
      ((setTrack_changes _).flows rfl).trans (beginHold_changes.flows rfl)
    exact ⟨_, rfl, .ite (moved.trans (arbitrate_flows _)) (.refl s)⟩
  | read =>
    have driven : Ebbs s (s.updMcp fun m =>
        { m with gateTaken := true, activity := .reading (readAnswer (passingAddr s) s) }) := (updMcp_changes _).ebbs rfl
    exact ⟨_, rfl, .ite (Ebbs.ite (driven.trans (refreshFrame_ebbs _ _)) driven).flows (.refl s)⟩
  | writeDataComplete d =>
    refine ⟨_, rfl, ?_⟩
    split
    · exact .ite (((updMcp_changes _).ebbs rfl).trans (storeWrite_ebbs _ _ _)).flows (.refl s)
    · exact .refl s
  | attentionPulseEnd => exact ⟨_, rfl, .ite (updEvq_flows _ (by rw [endPulse_records])) (.refl s)⟩
  | attentionGapEnd => exact ⟨_, rfl, .ite (updEvq_flows _ (by rw [endGap_records])) (.refl s)⟩
  | getEvents =>
    exact ⟨_, rfl, takeRequest_flows fun p => (updEvq_flows _ (by simp [drainEvents])).trans (answer_flows _ _ _ _)⟩
  | getSnapshot =>
    exact ⟨_, rfl, takeRequest_flows fun p => (updEvq_flows _ (Nat.le_refl _)).trans (answer_flows _ _ _ _)⟩
  | clearStats =>
    exact ⟨_, rfl, takeRequest_flows fun p => (updRct_ebbs _ rfl rfl).flows.trans (answer_flows _ _ _ _)⟩
  | readSector =>
    refine ⟨_, rfl, takeRequest_flows fun p => .ite ?_ (refuse_flows _ _ s)⟩
    split
    · exact (refreshFrame_ebbs _ s).flows.trans (answer_flows _ _ _ _)
    · exact refuse_flows _ _ s
  | dropOverlay =>
    refine ⟨_, rfl, takeRequest_flows fun p => ?_⟩
    unfold takeDropOverlay
    split
    · exact (Ebb.overlay _ fun h => h.drop _).ebbs.flows.trans (answer_flows _ _ _ _)
    · exact refuse_flows _ _ s
  | markExported => exact ⟨_, rfl, takeRequest_flows fun p => takeMarkExported_flows p s⟩
  | queueTrack => exact ⟨_, rfl, takeRequest_flows fun p => takeQueueTrack_flows p s⟩
  | retryTrack => exact ⟨_, rfl, takeRequest_flows fun p => takeRetryTrack_flows p s⟩
  | cancelJob => exact ⟨_, rfl, takeRequest_flows fun p => takeCancelJob_flows p s⟩
  | setGeometry => exact ⟨_, rfl, takeRequest_flows fun p => takeSetGeometry_flows p s⟩
  | setRotation => exact ⟨_, rfl, takeRequest_flows fun p => takeSetRotation_flows p s⟩
  | setLadderStep =>
    exact ⟨_, rfl, takeRequest_flows fun p =>
      .ite ((updJbq_ebbs _ rfl).flows.trans (answer_flows _ _ _ _)) (refuse_flows _ _ s)⟩
  | setLadderShape =>
    exact ⟨_, rfl, takeRequest_flows fun p => (updJbq_ebbs _ rfl).flows.trans (answer_flows _ _ _ _)⟩
  | setDrive =>
    exact ⟨_, rfl, takeRequest_flows fun _ => (((updDsq_changes _).flows rfl).trans (arbitrate_flows _)).trans
      (answer_flows _ _ _ _)⟩
  | setPort =>
    exact ⟨_, rfl, takeRequest_flows fun _ => ((storePort_flows _ _ _ s).trans (arbitrate_flows _)).trans
      (answer_flows _ _ _ _)⟩
  | clearFence => exact ⟨_, rfl, takeRequest_flows fun _ => takeClearFence_flows s⟩
  | restDrive => exact ⟨_, rfl, takeRequest_flows fun p => takeRestDrive_flows p s⟩
  | bypassOn => exact ⟨_, rfl, takeRequest_flows fun _ => .ite (takeBypassOn_flows s) (.refl s)⟩
  | bypassOff => exact ⟨_, rfl, takeRequest_flows fun _ => .ite (.refl s) (takeBypassOff_flows s)⟩
  | softReset => exact ⟨_, rfl, takeRequest_flows fun _ => (softReset_flows s).trans (answer_flows _ _ _ _)⟩
  | closedWindowExpiry => exact closedWindowExpiry_within.execFlows rfl
  | quietExpiry => exact quietExpiry_within.execFlows rfl
  | emulatedIndex => exact emulatedIndex_within.execFlows rfl
  | sectorPulse => exact sectorPulse_within.execFlows rfl
  | write => exact write_within.execFlows rfl
  | faultClear => exact faultClear_within.execFlows rfl
  | unitSelect active => exact (unitSelect_within active).execFlows rfl
  | transferStart => exact transferStart_within.execFlows rfl
  | requestCodeByte code => exact (requestCodeByte_within code).execFlows rfl
  | frameComplete l p c => exact (frameComplete_within l p c).execFlows rfl
  | selectRise => exact selectRise_within.execFlows rfl
  | fetchFirstByte => exact fetchFirstByte_within.execFlows rfl
  | responseReleased => exact responseReleased_within.execFlows rfl
  | unknownRequest => exact unknownRequest_within.execFlows rfl
  | frameError => exact frameError_within.execFlows rfl
  | status => exact status_within.execFlows rfl
  | getStats => exact getStats_within.execFlows rfl
  | listEntries => exact listEntries_within.execFlows rfl
  | getEntry => exact getEntry_within.execFlows rfl
  | listFrames => exact listFrames_within.execFlows rfl
  | listJobs => exact listJobs_within.execFlows rfl
  | listOverlay => exact listOverlay_within.execFlows rfl
  | readOverlay => exact readOverlay_within.execFlows rfl
  | getSettings => exact getSettings_within.execFlows rfl
  | setRead => exact setRead_within.execFlows rfl
  | setVote => exact setVote_within.execFlows rfl

/-- What every change keeps and the power-on's state meets, every command keeps. -/
theorem exec_keeps_of_flow {P : State → Prop} (flow : ∀ {u v}, P u → Flow u v → P v) (start : ∀ s, P (powerOn s))
    {c : Instr} (h : P s) (e : exec c s = .next t) : P t := by
  by_cases power : c = .powerOnReset
  · subst power
    have raised (cause : FenceCause) : P (raiseFence cause (powerOn s) (powerOn s)) :=
      (raiseFence_flows cause _ _).keeps flow (start s)
    cases e
    split
    · exact raised _
    · split
      · exact raised _
      · exact start s
  · obtain ⟨u, reached, flows⟩ := exec_flows c s power
    cases e.symm.trans reached
    exact flows.keeps flow h

/-- What every change keeps and the power-on's state meets, every step keeps. -/
theorem step_keeps_of_flow {P : State → Prop} (flow : ∀ {u v}, P u → Flow u v → P v) (start : ∀ s, P (powerOn s))
    (dequeue : ∀ (s : State) (rest : List Instr), P s → P { s with pending := rest }) (h : P s) (e : step s = .next t) :
    P t :=
  step_keeps dequeue (fun _ _ _ => exec_keeps_of_flow flow start)
    (fun s h _ => ((passTime_changes s).flows rfl).keeps flow h) h e

end Sys2Proof.Machine

open Sys2Proof Sys2Proof.Machine

/-- Settles O6: every command but the power-on is a sequence of changes, by which a member joins only where its slot and
its key are free; the power-on's state holds no member. -/
theorem stepKeepsCollectionsBounded : Obligations.StepKeepsCollectionsBounded := fun _ _ =>
  step_keeps_of_flow .flow (fun _ => collectionsBounded_reset) fun _ _ h => h

/-- Settles O8: by the same changes, an entry opens only on a track with a job, a job leaves only where its entry has
closed, and sectors are written in order. -/
theorem stepKeepsTable : Obligations.StepKeepsTable :=
  ⟨fun _ _ => step_keeps_of_flow .flow (fun _ => tableKept_reset) fun _ _ h => h,
    fun _ _ => step_keeps_of_flow .flow (fun _ => sectorsAscending_reset) fun _ _ h => h⟩

end

section
/-! PROOF. The walk of a job through the ladder, and the end of its cooldown (R91, R105 to R107). -/

namespace Sys2Proof.Machine

variable {s : State} {tr : Track} {j : Job}

/-! ### Where the walk leads (R105) -/

/-- After the plain pass the walk begins at the first step, unless that lies above the ladder. -/
theorem progressOf_plain (q : Jbq) (plain : j.step = 0) :
    progressOf q j = if q.length < j.first then .walkEnds else .stays j.first 0 :=
  if_pos plain

theorem progressOf_of_above {q : Jbq} (least : 1 ≤ j.step) (above : q.length < j.step) : progressOf q j = .walkEnds :=
  (if_neg (by omega)).trans (if_pos above)

/-- Within the ladder a step is repeated for its passes, then gives way to the next, or the walk ends. -/
theorem progressOf_of_record {q : Jbq} {r : LadderStep} (least : 1 ≤ j.step) (most : j.step ≤ q.length)
    (record : q.ladder[j.step - 1]? = some r) : progressOf q j =
      if r.passes ≤ j.done + 1 then if j.step = q.length then .walkEnds else .stays (j.step + 1) 0
      else .stays j.step (j.done + 1) := by
  rw [progressOf, if_neg (by omega), if_neg (Nat.not_lt.mpr most), ladderStep_of_record least record]

/-! ### The end of the walk (R106) -/

theorem pastPlain_cycle (j : Job) : j.pastPlain.cycle = j.cycle := by
  unfold Job.pastPlain
  split <;> rfl

/-- A job replaced and changed again is replaced once. -/
theorem updJob_replaced {f : Job → Job} (track : j.track = tr) :
    updJob tr f (updJob tr (fun _ => j) s) = updJob tr (fun _ => f j) s := by
  have jobs : (s.jbq.jobs.map fun i => if i.track = tr then j else i).map (fun i => if i.track = tr then f i else i) =
      s.jbq.jobs.map fun i => if i.track = tr then f j else i := by
    rw [List.map_map]
    refine List.map_congr_left fun i _ => ?_
    by_cases here : i.track = tr <;> simp [here, track]
  exact congrArg (fun js => s.updJbq fun q => { q with jobs := js }) jobs

theorem coolJob_zero {e : Expiry} (zero : e.length = 0) (j : Job) :
    coolJob e j = { j with state := .queued, step := 1, done := 0, cycle := j.cycle + 1, cooldown := none } :=
  if_pos zero

theorem coolJob_pos {e : Expiry} (least : 1 ≤ e.length) (j : Job) :
    coolJob e j = { j with state := .cooling, step := 1, done := 0, cooldown := some e } :=
  if_neg (by omega)

/-- A walk that ends with cycles left leaves the job COOLING, or QUEUED again at once (R106; log entry 19). -/
theorem advanceJob_of_cools (job : jobOf tr s = some j) (left : j.tallies ≠ [])
    (ends : progressOf s.jbq j = .walkEnds) (cycles : j.cycle < s.jbq.repeats) :
    advanceJob tr s = updJob tr (fun _ => coolJob ⟨s.clock.uptime, s.jbq.cooldown⟩ j.pastPlain) s := by
  have track : j.pastPlain.track = tr := (pastPlain_track j).trans (jobOf_track job)
  rw [advanceJob_of_walkEnds job left ends, endWalk, if_pos (by rw [pastPlain_cycle]; exact cycles), track]
  exact updJob_replaced track

/-- With no cycle left it ends the job. -/
theorem advanceJob_of_unresolved (job : jobOf tr s = some j) (left : j.tallies ≠ [])
    (ends : progressOf s.jbq j = .walkEnds) (cycles : s.jbq.repeats ≤ j.cycle) :
    advanceJob tr s = endJob .walk false false j.pastPlain (updJob tr (fun _ => j.pastPlain) s) := by
  rw [advanceJob_of_walkEnds job left ends]
  exact if_neg (by rw [pastPlain_cycle]; exact Nat.not_lt.mpr cycles)

theorem jobOf_endJob (k : JobEnd) (p q : Bool) (j : Job) (s : State) : jobOf j.track (endJob k p q j s) = none :=
  jobOf_removeJob j.track

/-! ### The three ends of a walk -/

/-- The walk of a job ends here, and `j'` is the job past its pass. -/
def WalkEnds (s : State) (j j' : Job) : Prop :=
  (j.step = 0 ∧ s.jbq.length < j.first ∧ j' = { j with fill := false }) ∨
    (1 ≤ j.step ∧ s.jbq.length < j.step ∧ j' = j) ∨
    (1 ≤ j.step ∧ j.step = s.jbq.length ∧ j' = j ∧ ∃ r, s.jbq.ladder[j.step - 1]? = some r ∧ r.passes ≤ j.done + 1)

theorem WalkEnds.progress {j' : Job} (h : WalkEnds s j j') : progressOf s.jbq j = .walkEnds ∧ j' = j.pastPlain := by
  rcases h with ⟨plain, above, rfl⟩ | ⟨least, above, rfl⟩ | ⟨least, last, rfl, r, record, passes⟩
  · rw [progressOf_plain _ plain, if_pos above, pastPlain_of_plain plain]
    exact ⟨rfl, rfl⟩
  · exact ⟨progressOf_of_above least above, (pastPlain_of_step least).symm⟩
  · rw [progressOf_of_record least last.le record, if_pos passes, if_pos last]
    exact ⟨rfl, (pastPlain_of_step least).symm⟩

/-! ### COOLDOWN_EXPIRY (R106, R107) -/

theorem cooldownExpiry_of_no_job {c h : Nat} (gap : jobOf ⟨c, h⟩ s = none) : exec (.cooldownExpiry c h) s = .next s := by
  show execCooldownExpiry c h s = _
  rw [execCooldownExpiry, gap]

theorem cooldownExpiry_of_waiting {c h : Nat} (job : jobOf ⟨c, h⟩ s = some j) (waits : cooldownDue j s = false) :
    exec (.cooldownExpiry c h) s = .next s := by
  show execCooldownExpiry c h s = _
  rw [execCooldownExpiry, job]
  exact congrArg _ (if_neg (by rw [waits]; decide))

theorem cooldownExpiry_of_due {c h : Nat} (job : jobOf ⟨c, h⟩ s = some j) (due : cooldownDue j s = true) :
    exec (.cooldownExpiry c h) s = .next (arbitrate (updJob ⟨c, h⟩ warmJob s)) := by
  show execCooldownExpiry c h s = _
  rw [execCooldownExpiry, job, ← jobOf_track job]
  exact congrArg _ (if_pos due)

end Sys2Proof.Machine

open Sys2Proof Sys2Proof.Machine

/-- Settles O53: the advance by the open set, the step and the cycle, and the end of a cooldown by its time. -/
theorem jobsWalkTheLadder : Obligations.JobsWalkTheLadder := by
  refine ⟨fun s j job empty => ?_, fun s j job left => ⟨fun plain most => ?_, fun r least most record => ⟨?_, ?_⟩,
    fun j' ends => ?_⟩, fun s c h gap => ?_, fun s c h j e job cooldown => ⟨fun cooling fallen => ?_, fun waits => ?_⟩⟩
  · rw [advanceJob_of_empty job empty]
    refine ⟨jobOf_endJob _ _ _ _ _, fun fill gap => ?_, fun kept => ?_⟩
    · rw [endRecovered, fill, gap]
      rfl
    · refine congrArg (endJob .walk false false j) (if_neg fun clean => ?_)
      obtain ⟨fill, gap⟩ := Bool.and_eq_true_iff.mp clean
      rcases kept with refilled | entry
      · exact absurd (fill.symm.trans refilled) (by decide)
      · rw [Option.isNone_iff_eq_none.mp gap] at entry
        cases entry
  · rw [advanceJob_of_stays job left ((progressOf_plain _ plain).trans (if_neg (Nat.not_lt.mpr most))),
      pastPlain_of_plain plain]
  · intro again
    rw [advanceJob_of_stays job left ((progressOf_of_record least most record).trans (if_neg (Nat.not_le.mpr again))),
      pastPlain_of_step least]
  · intro done below
    rw [advanceJob_of_stays job left ((progressOf_of_record least most record).trans
      ((if_pos done).trans (if_neg below.ne))), pastPlain_of_step least]
  · obtain ⟨progress, rfl⟩ := WalkEnds.progress ends
    refine ⟨fun cycles cooldown => ?_, fun cycles zero => ?_, fun cycles => ?_⟩
    · rw [advanceJob_of_cools job left progress cycles, coolJob_pos cooldown]
    · rw [advanceJob_of_cools job left progress cycles, coolJob_zero zero, pastPlain_cycle]
    · rw [advanceJob_of_unresolved job left progress cycles]
      exact ⟨pastPlain_track j ▸ jobOf_endJob _ _ _ _ _, rfl⟩
  · exact cooldownExpiry_of_no_job gap
  · have due : cooldownDue j s = true := (cooldownDue_iff j s).mpr ⟨cooling, e, cooldown, fallen⟩
    refine ⟨updJob ⟨c, h⟩ warmJob s, cooldownExpiry_of_due job due, updJob_changes _ _, ?_, jobTracks_updJob fun _ => id⟩
    rw [jobOf_updJob _ warmJob fun _ => rfl, job]
    rfl
  · refine cooldownExpiry_of_waiting job (Bool.eq_false_of_not_eq_true fun due => ?_)
    obtain ⟨cooling, e', cooldown', fallen⟩ := (cooldownDue_iff j s).mp due
    cases cooldown.symm.trans cooldown'
    exact waits.elim (fun other => other cooling) fun early => Nat.not_le.mpr early fallen

end

section
/-! PROOF. The place in the queue that a job request reports: arbitration after it leaves the station's job there (R25,
R124, R187). -/

namespace Sys2Proof.Machine

variable {s t u : State} {tr : Track} {j : Job} {src : ClaimFrom} {c : Candidate} {p : List Byte}

/-! ### Places (R187) -/

/-- The first member that meets a condition, with its place. -/
theorem findIdx_splits {α : Type} {q : α → Bool} {l : List α} {x : α} (found : l.find? q = some x) :
    ∃ pre post, l = pre ++ x :: post ∧ q x = true ∧ (∀ y ∈ pre, q y = false) ∧ l.findIdx q = pre.length := by
  obtain ⟨here, pre, post, rfl, before⟩ := List.find?_eq_some_iff_append.mp found
  have before : ∀ y ∈ pre, q y = false := by simpa using before
  refine ⟨pre, post, rfl, here, before, ?_⟩
  rw [List.findIdx_append, List.findIdx_eq_length.mpr before, if_neg (Nat.lt_irrefl _), List.findIdx_cons, here]
  simp

theorem inQueueAt_queuePosition (there : (jobOf tr s).isSome) : InQueueAt (queuePosition tr s) tr s := by
  obtain ⟨j, job⟩ := Option.isSome_iff_exists.mp there
  obtain ⟨pre, post, jobs, here, before, place⟩ := findIdx_splits job
  exact ⟨pre, j, post, jobs, by simpa using here, by simpa using before, congrArg (· + 1) place⟩

/-! ### The station's job at arbitration (R124) -/

theorem jobOf_endJob_ne (k : JobEnd) (p q : Bool) (ne : tr ≠ j.track) :
    jobOf tr (endJob k p q j s) = jobOf tr s :=
  (jobOf_congr (s := removeJob j.track s) tr (by rw [endJob_jbq]; rfl)).trans (jobOf_removeJob_ne ne)

/-- A frame retired takes no station's job with it. -/
theorem jobOf_retire (stands : src.Stands s) (job : jobOf tr s = some j) (station : j.origin = .station) :
    jobOf tr (retire src s) = some j := by
  cases src with
  | free => exact job
  | take tr' => rw [jobOf_congr tr (congrArg Jbq.jobs (retire_jbq_of_plain rfl)), job]
  | evict tr' =>
    have evicted : jobOf tr (jobEvicted tr' s) = some j := by
      cases owner : jobOf tr' s with
      | none => rw [jobEvicted_of_none owner, job]
      | some i =>
        have ne : tr ≠ i.track := fun same => by
          rw [same, jobOf_track owner] at job
          exact stands.2 j job station
        rw [jobEvicted_of_job owner, jobOf_endJob_ne _ _ _ ne, job]
    rw [retire_evict]
    split
    · rw [← evicted]
      exact jobOf_congr tr (congrArg Jbq.jobs (dropImage_changes _).jbq)
    · exact evicted

theorem jobOf_prepareGrant (stands : c.Stands s) (job : jobOf tr s = some j) (station : j.origin = .station) :
    (jobOf tr (prepareGrant c s)).isSome := by
  have active (v : State) (i : Job) (there : jobOf tr v = some j) :
      (jobOf tr (updJob i.track (fun i => { i with state := .active, holdsFrame := true }) v)).isSome := by
    rw [jobOf_isSome_congr (jobTracks_updJob (f := fun i => { i with state := .active, holdsFrame := true }) fun _ => id),
      there]
    rfl
  match c with
  | .fetch kind tr' src =>
    have kept : jobOf tr (prepareGrant (.fetch kind tr' src) s) = some j := jobOf_retire stands.2 job station
    rw [kept]
    rfl
  | .job i none => exact active s i job
  | .job i (some src) => exact active _ i (jobOf_retire stands.2.1 job station)

theorem jobOf_arbitrate (job : jobOf tr s = some j) (station : j.origin = .station) :
    (jobOf tr (arbitrate s)).isSome := by
  rcases arbitrate_cases s with same | ⟨c, first, idle, running, batch, -⟩
  · rw [same, job]
    rfl
  · rw [jobOf_congr tr (congrArg Jbq.jobs (arbitrate_grants idle running batch first).2.jbq)]
    exact jobOf_prepareGrant (candidate_stands first) job station

/-- The port's test and arbitration leave the station's job in the queue, at the place reported. -/
theorem inQueueAt_afterJobs (job : jobOf tr s = some j) (station : j.origin = .station) :
    InQueueAt (queuePosition tr (afterJobs s)) tr (afterJobs s) := by
  have tested : jobOf tr (testHold s) = some j := by
    rw [jobOf_congr tr (congrArg Jbq.jobs (testHold_changes (s := s)).jbq), job]
  exact inQueueAt_queuePosition (jobOf_arbitrate tested station)

/-! ### QUEUE_TRACK, branch by branch (R99 to R101) -/

theorem inGeometry_iff : inGeometry s tr = true ↔ tr.cyl < s.geom.cylinders ∧ tr.head < s.geom.heads := by
  simp [inGeometry]

theorem takeQueueTrack_outside (outside : s.geom.cylinders ≤ (trackOf p).cyl ∨ s.geom.heads ≤ (trackOf p).head ∨
    s.jbq.length < byteAt p 3) : takeQueueTrack p s = refuse .range 0x20 s := by
  refine if_neg fun inside => ?_
  rw [Bool.and_eq_true, inGeometry_iff, decide_eq_true_eq] at inside
  omega

section
variable (cyl : (trackOf p).cyl < s.geom.cylinders) (head : (trackOf p).head < s.geom.heads)
  (start : byteAt p 3 ≤ s.jbq.length)
include cyl head start

theorem takeQueueTrack_inside : takeQueueTrack p s = match jobOf (trackOf p) s with
    | some j => mergeJob j s
    | none =>
      if 16 ≤ s.jbq.jobs.length then refuse .full 0x20 s
      else
        match frameOf (trackOf p) s with
        | some f => queueKept (trackOf p) (byteAt p 3) f s
        | none => queueAnswer 0 (trackOf p) (afterJobs (createFramelessJob (trackOf p) (byteAt p 3) s)) :=
  if_pos (by rw [Bool.and_eq_true, inGeometry_iff, decide_eq_true_eq]; exact ⟨⟨cyl, head⟩, start⟩)

theorem takeQueueTrack_of_job (job : jobOf (trackOf p) s = some j) : takeQueueTrack p s = mergeJob j s := by
  rw [takeQueueTrack_inside cyl head start, job]

theorem takeQueueTrack_of_full (free : jobOf (trackOf p) s = none) (full : 16 ≤ s.jbq.jobs.length) :
    takeQueueTrack p s = refuse .full 0x20 s := by
  rw [takeQueueTrack_inside cyl head start, free]
  exact if_pos full

theorem takeQueueTrack_of_frame {f : Frame} (free : jobOf (trackOf p) s = none) (room : s.jbq.jobs.length < 16)
    (frame : frameOf (trackOf p) s = some f) : takeQueueTrack p s = queueKept (trackOf p) (byteAt p 3) f s := by
  rw [takeQueueTrack_inside cyl head start, free, frame]
  exact if_neg (Nat.not_le.mpr room)

theorem takeQueueTrack_of_no_frame (free : jobOf (trackOf p) s = none) (room : s.jbq.jobs.length < 16)
    (frame : frameOf (trackOf p) s = none) : takeQueueTrack p s =
      queueAnswer 0 (trackOf p) (afterJobs (createFramelessJob (trackOf p) (byteAt p 3) s)) := by
  rw [takeQueueTrack_inside cyl head start, free, frame]
  exact if_neg (Nat.not_le.mpr room)

end

/-- The job of a track becomes the station's, with its OPEN entry (R101, R137). -/
def merged (tr : Track) (s : State) : State :=
  updEntry tr (Entry.setOrigin .station) (updJob tr (fun j => { j with origin := .station }) s)

theorem jobOf_merged (job : jobOf tr s = some j) : jobOf tr (merged tr s) = some { j with origin := .station } :=
  (jobOf_updJob tr (fun j => { j with origin := .station }) fun _ => rfl).trans (by rw [job]; rfl)

theorem mergeJob_of_station (station : j.origin = .station) : mergeJob j s = queueAnswer 1 j.track s :=
  if_pos station

theorem mergeJob_of_limit (other : j.origin ≠ .station) (holds : j.holdsFrame = true) (limit : 6 ≤ stationFramesHeld s) :
    mergeJob j s = refuse .full 0x20 s := by
  refine (if_neg other).trans (if_pos ?_)
  rw [holds]
  exact decide_eq_true limit

theorem mergeJob_of_room (other : j.origin ≠ .station) (room : j.holdsFrame = false ∨ stationFramesHeld s < 6) :
    mergeJob j s = queueAnswer 1 j.track (afterJobs (merged j.track s)) := by
  refine (if_neg other).trans (if_neg fun limited => ?_)
  obtain ⟨holds, limit⟩ := Bool.and_eq_true_iff.mp limited
  rcases room with frameless | below
  · exact absurd (holds.symm.trans frameless) (by decide)
  · exact absurd (limit.symm.trans (stationLimit_false_iff.mpr below)) (by decide)

theorem setOrigin_track (o : Origin) (e : Entry) : (e.setOrigin o).track = e.track := by
  unfold Entry.setOrigin
  split <;> rfl

/-! ### A job created without a frame (R99) -/

theorem firstStep_eq (n : Nat) : firstStep n = max 1 n := by
  unfold firstStep
  split <;> omega

theorem zeroTallies_zeros (is : List Nat) :
    ∀ x ∈ zeroTallies is, x.captured = 0 ∧ x.badHeaders = 0 ∧ x.lastVote = none := by
  intro x mem
  obtain ⟨i, -, rfl⟩ := List.mem_map.mp mem
  exact ⟨rfl, rfl, rfl⟩

/-- A change of the entry of a track without one changes nothing. -/
theorem updEntry_of_none {f : Entry → Entry} (gap : entryOf tr s = none) : (updEntry tr f s).rct = s.rct := by
  have none : ∀ e ∈ s.rct.entries, e.track ≠ tr := by simpa [entryOf] using gap
  have same : (s.rct.entries.map fun e => if e.track = tr then f e else e) = s.rct.entries :=
    (List.map_congr_left fun e mem => if_neg (none e mem)).trans (List.map_id _)
  exact congrArg (fun es => { s.rct with entries := es }) same

end Sys2Proof.Machine

open Sys2Proof Sys2Proof.Machine

/-- Settles O34: the request's checks by their order, and after them a job of the station's, which arbitration leaves in
the queue. -/
theorem queueTrackCreatesOrMerges : Obligations.QueueTrackCreatesOrMerges := by
  rintro s p tr taking rfl
  have taken := takeRequest_of_taking takeQueueTrack taking
  refine ⟨fun outside => ?_, fun cyl head start => ⟨fun j job station => ?_, fun j job other holds limit => ?_,
    fun j job other room => ?_, fun free full => ?_, fun free room frame => ?_⟩⟩
  · rw [takeQueueTrack_outside outside] at taken
    exact ⟨_, congrArg Host.Outcome.next taken, refuse_changes _ _, answer_answered _ _ _⟩
  · rw [takeQueueTrack_of_job cyl head start job, mergeJob_of_station station, jobOf_track job] at taken
    exact ⟨_, _, congrArg Host.Outcome.next taken, answer_changes _ _ _, inQueueAt_queuePosition (by rw [job]; rfl),
      answer_answered _ _ _⟩
  · rw [takeQueueTrack_of_job cyl head start job, mergeJob_of_limit other holds limit] at taken
    exact ⟨_, congrArg Host.Outcome.next taken, refuse_changes _ _, answer_answered _ _ _⟩
  · rw [takeQueueTrack_of_job cyl head start job, mergeJob_of_room other room, jobOf_track job] at taken
    refine ⟨_, merged (trackOf p) s, _, _, congrArg Host.Outcome.next taken,
      .andThen ((updJob_changes _ _).mono (by decide)) (updEntry_changes _ _) (by decide), rfl,
      inQueueAt_afterJobs (jobOf_merged job) rfl, answer_answered _ _ _, answer_changes _ _ _, rfl, fun e entry opened => ?_⟩
    exact (entryOf_updEntry_of_some (setOrigin_track .station) entry).trans (congrArg some (if_pos opened))
  · rw [takeQueueTrack_of_full cyl head start free full] at taken
    exact ⟨_, congrArg Host.Outcome.next taken, refuse_changes _ _, answer_answered _ _ _⟩
  · rw [takeQueueTrack_of_no_frame cyl head start free room frame] at taken
    have created : jobOf (trackOf p) (createFramelessJob (trackOf p) (byteAt p 3) s) = some
        (stationJob (trackOf p) false true 0 (firstStep (byteAt p 3)) (List.range s.geom.sectors)) :=
      jobOf_addJob (stationJob (trackOf p) false true 0 (firstStep (byteAt p 3)) (List.range s.geom.sectors)) free
    exact ⟨_, createFramelessJob (trackOf p) (byteAt p 3) s, _, _, _, congrArg Host.Outcome.next taken,
      createFramelessJob_changes _ _, rfl, inQueueAt_afterJobs created rfl, answer_answered _ _ _, answer_changes _ _ _, rfl,
      rfl, rfl, rfl, rfl, stationJob_opens _ _ _ _ _, zeroTallies_zeros _, rfl, firstStep_eq _, rfl, rfl, rfl, rfl, rfl,
      fun gap => updEntry_of_none (f := reopenFrameless) (tr := trackOf p) gap,
      fun e entry => entryOf_updEntry_of_some (f := reopenFrameless) (fun _ => rfl) entry⟩

end

section
/-! PROOF. A kept frame's FAILED sectors retried: the outcomes reopened by sector, and the job over the frame (R100, R102,
R120, R133, R135). -/

namespace Sys2Proof.Machine

variable {s : State} {tr : Track} {f : Frame} {p : List Byte} {o : OutcomeRec} {os : List OutcomeRec}

/-! ### FAILED sectors of a frame (R113) -/

theorem mem_sectorsWhere {q : SectorRec → Bool} {i : Nat} :
    i ∈ sectorsWhere q f ↔ ∃ r, f.sectors[i]? = some r ∧ q r = true := by
  simp only [sectorsWhere, List.mem_filter, List.mem_range, Option.any_eq_true]
  exact ⟨And.right, fun h => ⟨(List.getElem?_eq_some_iff.mp h.choose_spec.1).1, h⟩⟩

theorem sectorsWhere_empty_iff {q : SectorRec → Bool} :
    (sectorsWhere q f).isEmpty = true ↔ ∀ r ∈ f.sectors, q r = false := by
  rw [List.isEmpty_iff, List.eq_nil_iff_forall_not_mem]
  constructor
  · intro none r mem
    obtain ⟨i, here⟩ := List.mem_iff_getElem?.mp mem
    exact Bool.eq_false_of_not_eq_true fun meets => none i (mem_sectorsWhere.mpr ⟨r, here, meets⟩)
  · intro none i mem
    obtain ⟨r, here, meets⟩ := mem_sectorsWhere.mp mem
    exact absurd (meets.symm.trans (none r (List.mem_of_getElem? here))) (by decide)

theorem sectorsWhere_not_empty {q : SectorRec → Bool} (some_ : ∃ r ∈ f.sectors, q r = true) :
    (sectorsWhere q f).isEmpty = false := by
  obtain ⟨r, mem, meets⟩ := some_
  exact Bool.eq_false_of_not_eq_true fun empty =>
    absurd (meets.symm.trans (sectorsWhere_empty_iff.mp empty r mem)) (by decide)

/-! ### Outcomes reopened (R135) -/

/-- A PENDING outcome joins where its sector has none. -/
theorem mem_insertPending {i : Nat} (asc : Ascending (os.map OutcomeRec.sector)) : o ∈ insertPending i os ↔
    o ∈ os ∨ o.sector = i ∧ o.result = .pending ∧ o.sector ∉ os.map OutcomeRec.sector := by
  have made : o = ⟨i, .pending⟩ ↔ o.sector = i ∧ o.result = .pending := by
    cases o
    simp
  induction os with
  | nil => simp [insertPending, made]
  | cons x os ih =>
    obtain ⟨above, rest⟩ := List.pairwise_cons.mp asc
    have ih := ih rest
    simp only [insertPending, List.map_cons, List.mem_cons]
    by_cases before : i < x.sector
    · have apart : o.sector = i → ¬ (o.sector = x.sector ∨ o.sector ∈ os.map OutcomeRec.sector) := fun same k =>
        k.elim (fun here => by omega) fun later => by have := above _ later; omega
      rw [if_pos before, List.mem_cons, List.mem_cons, made]
      tauto
    · rw [if_neg before]
      by_cases here : i = x.sector
      · rw [if_pos here, List.mem_cons]
        exact ⟨.inl, fun h => h.elim id fun ⟨same, _, apart⟩ => absurd (.inl (same.trans here)) apart⟩
      · have apart : o.sector = i → o.sector ≠ x.sector := fun same => same ▸ here
        rw [if_neg here, List.mem_cons]
        tauto

theorem mem_insertPendings (is : List Nat) (asc : Ascending (os.map OutcomeRec.sector)) :
    o ∈ is.foldl (fun os i => insertPending i os) os ↔
      o ∈ os ∨ o.result = .pending ∧ o.sector ∈ is ∧ o.sector ∉ os.map OutcomeRec.sector := by
  induction is generalizing os with
  | nil => simp
  | cons i is ih =>
    obtain ⟨asc', sectors⟩ := insertPending_ascending i asc
    rw [List.foldl_cons, ih asc', mem_insertPending asc, sectors, List.mem_cons]
    tauto

/-- The outcomes of an entry as a job over a kept frame reopens them. -/
theorem reopenedOutcomes (f : Frame) (asc : Ascending (os.map OutcomeRec.sector)) :
    ReopenedOutcomes f os
      ((sectorsWhere SectorRec.isFailed f).foldl (fun os i => insertPending i os) (reviveFailed os)) := by
  have asc' : Ascending ((reviveFailed os).map OutcomeRec.sector) := by rwa [reviveFailed_sectors]
  refine ⟨insertPendings_ascending _ asc', fun o' => ?_⟩
  rw [mem_insertPendings _ asc', mem_sectorsWhere, reviveFailed_sectors]
  refine or_congr ?_ (and_congr_right fun _ => and_congr_right fun _ => by simp)
  rw [reviveFailed, List.mem_map]
  exact exists_congr fun o => and_congr_right fun _ => eq_comm

/-! ### The job over the frame (R100, R102, R120) -/

/-- The station's job over a kept frame, its FAILED sectors open (R100, R102). -/
def keptJob (tr : Track) (f : Frame) (n : Nat) : Job :=
  stationJob tr true false n (firstStep n) (sectorsWhere SectorRec.isFailed f)

/-- The job joins the queue and the frame reopens (R100, R120). -/
def keptAdded (tr : Track) (f : Frame) (n : Nat) (s : State) : State :=
  updFrame tr Frame.reopen (addJob (keptJob tr f n) s)

theorem createKeptJob_of_entry {e : Entry} (n : Nat) (entry : entryOf tr s = some e) : createKeptJob tr f n s =
    updEntry tr (reopenKept (sectorsWhere SectorRec.isFailed f)) (keptAdded tr f n s) := by
  rw [createKeptJob, entry]
  rfl

theorem createKeptJob_of_no_entry (n : Nat) (gap : entryOf tr s = none) : createKeptJob tr f n s =
    createEntry tr .station .opened 0 false (pendingOutcomes (sectorsWhere SectorRec.isFailed f))
      (keptAdded tr f n s) := by
  rw [createKeptJob, gap]
  rfl

/-- The queue and the frames are those that the job's joining leaves. -/
theorem createKeptJob_jbq_tks (tr : Track) (f : Frame) (n : Nat) (s : State) :
    (createKeptJob tr f n s).jbq = (addJob (keptJob tr f n) s).jbq ∧
    (createKeptJob tr f n s).tks = (updFrame tr Frame.reopen s).tks := by
  cases entry : entryOf tr s with
  | some e =>
    rw [createKeptJob_of_entry n entry]
    exact ⟨rfl, rfl⟩
  | none =>
    rw [createKeptJob_of_no_entry n entry]
    have only := createEntry_changes (s := keptAdded tr f n s) tr .station .opened 0 false
      (pendingOutcomes (sectorsWhere SectorRec.isFailed f))
    exact ⟨only.jbq, only.tks⟩

theorem jobOf_createKeptJob (n : Nat) (free : jobOf tr s = none) :
    jobOf tr (createKeptJob tr f n s) = some (keptJob tr f n) :=
  (jobOf_congr tr (congrArg Jbq.jobs (createKeptJob_jbq_tks tr f n s).1)).trans (jobOf_addJob (keptJob tr f n) free)

theorem jobOverKeptFrame (n : Nat) (frame : frameOf tr s = some f) :
    JobOverKeptFrame tr f n s (createKeptJob tr f n s) := by
  obtain ⟨jbq, tks⟩ := createKeptJob_jbq_tks tr f n s
  refine ⟨createKeptJob_changes tr f n, ⟨keptJob tr f n, jbq, rfl, rfl, rfl, rfl, stationJob_opens _ _ _ _ _, rfl,
    firstStep_eq n, rfl, rfl, rfl, rfl, rfl, zeroTallies_zeros _⟩, ⟨f.reopen, ?_, rfl, ?_⟩, fun e entry => ?_,
    fun gap room sequence => ?_⟩
  · rw [frameOf_congr tr (congrArg Tks.frames tks)]
    exact frameOf_updFrame_of_some (fun _ => rfl) frame
  · refine List.map_congr_left fun r _ => ?_
    cases r <;> rfl
  · rw [createKeptJob_of_entry n entry]
    exact ⟨rfl, _, entryOf_updEntry_of_some (f := reopenKept (sectorsWhere SectorRec.isFailed f)) (fun _ => rfl) entry,
      reopenedOutcomes f⟩
  · have fits : entriesWithRoom (keptAdded tr f n s).rct = some s.rct.entries := entriesWithRoom_of_room sequence room
    rw [createKeptJob_of_no_entry n gap, createEntry_of_entries fits]
    exact ⟨rfl, rfl, rfl⟩

/-! ### The two requests, branch by branch (R100, R102) -/

theorem queueKept_of_limit (n : Nat) (limit : 6 ≤ stationFramesHeld s) : queueKept tr n f s = refuse .full 0x20 s :=
  if_pos (decide_eq_true limit)

theorem queueKept_of_clean (n : Nat) (below : stationFramesHeld s < 6) (clean : ∀ r ∈ f.sectors, r.isFailed = false) :
    queueKept tr n f s = answer .ok 0x20 (u8 2 ++ u8 0) (offer .jobClean (some tr) 0 s) :=
  (if_neg (by rw [stationLimit_false_iff.mpr below]; decide)).trans (if_pos (sectorsWhere_empty_iff.mpr clean))

theorem queueKept_of_failed (n : Nat) (below : stationFramesHeld s < 6) (failed : ∃ r ∈ f.sectors, r.isFailed = true) :
    queueKept tr n f s = queueAnswer 0 tr (afterJobs (createKeptJob tr f n s)) :=
  (if_neg (by rw [stationLimit_false_iff.mpr below]; decide)).trans
    (if_neg (by rw [sectorsWhere_not_empty failed]; decide))

theorem takeRetryTrack_outside (outside : s.geom.cylinders ≤ (trackOf p).cyl ∨ s.geom.heads ≤ (trackOf p).head) :
    takeRetryTrack p s = refuse .range 0x21 s :=
  if_neg fun inside => by
    rw [inGeometry_iff] at inside
    omega

theorem retryAllowed_iff {e : Entry} : retryAllowed tr e s = true ↔ e.state = .incomplete ∧ jobOf tr s = none ∧
    ∃ f, frameOf tr s = some f ∧ ∃ r ∈ f.sectors, r.isFailed = true := by
  rw [retryAllowed, Bool.and_eq_true, Bool.and_eq_true, beq_iff_eq, Option.isNone_iff_eq_none, Option.any_eq_true,
    and_assoc]
  refine and_congr_right fun _ => and_congr_right fun _ => exists_congr fun f => and_congr_right fun _ => ?_
  rw [Bool.not_eq_true', ← Bool.not_eq_true, sectorsWhere_empty_iff]
  simp

section
variable (cyl : (trackOf p).cyl < s.geom.cylinders) (head : (trackOf p).head < s.geom.heads)
include cyl head

theorem takeRetryTrack_of_no_entry (gap : entryOf (trackOf p) s = none) :
    takeRetryTrack p s = refuse .notFound 0x21 s := by
  rw [takeRetryTrack]
  refine (if_pos (inGeometry_iff.mpr ⟨cyl, head⟩)).trans ?_
  rw [gap]

/-- A track whose entry is not PARTIAL, without a frame, with a job, or with no sector FAILED is not retried. -/
theorem takeRetryTrack_of_barred {e : Entry} (entry : entryOf (trackOf p) s = some e)
    (barred : e.state ≠ .incomplete ∨ frameOf (trackOf p) s = none ∨ (jobOf (trackOf p) s).isSome ∨
      ∃ f, frameOf (trackOf p) s = some f ∧ ∀ r ∈ f.sectors, r.isFailed = false) :
    takeRetryTrack p s = refuse .state 0x21 s := by
  have not_allowed : ¬ retryAllowed (trackOf p) e s = true := by
    rw [retryAllowed_iff]
    rintro ⟨state, free, f, frame, r, mem, failed⟩
    rcases barred with other | gap | job | ⟨f', frame', clean⟩
    · exact other state
    · cases frame.symm.trans gap
    · rw [free] at job
      cases job
    · cases frame.symm.trans frame'
      exact absurd (failed.symm.trans (clean r mem)) (by decide)
  rw [takeRetryTrack]
  refine (if_pos (inGeometry_iff.mpr ⟨cyl, head⟩)).trans ?_
  rw [entry]
  cases frameOf (trackOf p) s with
  | none => rfl
  | some f => exact if_neg not_allowed

/-- Otherwise it is, where a slot is free and the six frames leave room. -/
theorem takeRetryTrack_of_allowed {e : Entry} (entry : entryOf (trackOf p) s = some e) (state : e.state = .incomplete)
    (frame : frameOf (trackOf p) s = some f) (free : jobOf (trackOf p) s = none)
    (failed : ∃ r ∈ f.sectors, r.isFailed = true) : takeRetryTrack p s =
      if decide (16 ≤ s.jbq.jobs.length) || stationLimit s then refuse .full 0x21 s
      else answer .ok 0x21 (u8 (queuePosition (trackOf p) (afterJobs (createKeptJob (trackOf p) f 1 s))))
        (afterJobs (createKeptJob (trackOf p) f 1 s)) := by
  rw [takeRetryTrack]
  refine (if_pos (inGeometry_iff.mpr ⟨cyl, head⟩)).trans ?_
  rw [entry, frame]
  exact if_pos (retryAllowed_iff.mpr ⟨state, free, f, frame, failed⟩)

end

end Sys2Proof.Machine

open Sys2Proof Sys2Proof.Machine

/-- Settles O35: the checks of either request by their order, and after them the station's job over the frame. -/
theorem keptFramesAreRetried : Obligations.KeptFramesAreRetried := by
  constructor
  · rintro s p tr f taking rfl cyl head start free room frame
    have taken := takeRequest_of_taking takeQueueTrack taking
    rw [takeQueueTrack_of_frame cyl head start free room frame] at taken
    refine ⟨fun limit => ?_, fun below clean => ?_, fun below failed => ?_⟩
    · rw [queueKept_of_limit _ limit] at taken
      exact ⟨_, congrArg Host.Outcome.next taken, refuse_changes _ _, answer_answered _ _ _⟩
    · rw [queueKept_of_clean _ below clean] at taken
      exact ⟨_, congrArg Host.Outcome.next taken,
        ((offer_changes _ _ _).mono (by decide)).andThen (answer_changes _ _ _) (by decide), answer_answered _ _ _,
        firstQueued_of_offered rfl rfl⟩
    · rw [queueKept_of_failed _ below failed] at taken
      exact ⟨_, createKeptJob (trackOf p) f (byteAt p 3) s, _, _, congrArg Host.Outcome.next taken, rfl,
        inQueueAt_afterJobs (jobOf_createKeptJob _ free) rfl, answer_answered _ _ _, answer_changes _ _ _,
        jobOverKeptFrame _ frame⟩
  · rintro s p tr taking rfl
    have taken := takeRequest_of_taking takeRetryTrack taking
    refine ⟨fun outside => ?_, fun cyl head gap => ?_, fun e cyl head entry => ⟨fun barred => ?_,
      fun f state frame free failed => ⟨fun full => ?_, fun room below => ?_⟩⟩⟩
    · rw [takeRetryTrack_outside outside] at taken
      exact ⟨_, congrArg Host.Outcome.next taken, refuse_changes _ _, answer_answered _ _ _⟩
    · rw [takeRetryTrack_of_no_entry cyl head gap] at taken
      exact ⟨_, congrArg Host.Outcome.next taken, refuse_changes _ _, answer_answered _ _ _⟩
    · rw [takeRetryTrack_of_barred cyl head entry barred] at taken
      exact ⟨_, congrArg Host.Outcome.next taken, refuse_changes _ _, answer_answered _ _ _⟩
    · rw [takeRetryTrack_of_allowed cyl head entry state frame free failed] at taken
      rw [if_pos (by rw [Bool.or_eq_true, decide_eq_true_eq, stationLimit, decide_eq_true_eq]; exact full)] at taken
      exact ⟨_, congrArg Host.Outcome.next taken, refuse_changes _ _, answer_answered _ _ _⟩
    · rw [takeRetryTrack_of_allowed cyl head entry state frame free failed] at taken
      rw [stationLimit_false_iff.mpr below, if_neg (by simpa using room)] at taken
      exact ⟨_, createKeptJob (trackOf p) f 1 s, _, _, congrArg Host.Outcome.next taken, rfl,
        inQueueAt_afterJobs (jobOf_createKeptJob _ free) rfl, answer_answered _ _ _, answer_changes _ _ _,
        jobOverKeptFrame _ frame⟩

end

section
/-! PROOF. READ_SECTOR: media words in a response, the frame refreshed, and the report (R123, R185, R205, R212). -/

namespace Sys2Proof.Machine

variable {s : State} {tr : Track} {f : Frame} {p : List Byte}

/-! ### Sector data in a response (R205) -/

theorem byteAt_append_right (pre b : List Byte) (i : Nat) : byteAt (pre ++ b) (pre.length + i) = byteAt b i := by
  simp [byteAt, List.getD_eq_getElem?_getD, List.getElem?_append_right]

theorem pairAt_append_right (pre b : List Byte) (i : Nat) : pairAt (pre ++ b) (pre.length + i) = pairAt b i := by
  rw [pairAt, byteAt_append_right, Nat.add_assoc, byteAt_append_right, pairAt]

theorem pairAt_wordBytes_append (w : Word) (rest : List Byte) : pairAt (wordBytes w ++ rest) 0 = w.toNat := by
  have := w.isLt
  simp only [wordBytes, u16, pairAt, byteAt, List.cons_append, List.nil_append, List.getD_cons_zero,
    List.getD_cons_succ, BitVec.toNat_ofNat]
  omega

theorem length_flatMap_wordBytes (ws : List Word) : (ws.flatMap wordBytes).length = 2 * ws.length := by
  induction ws with
  | nil => rfl
  | cons w ws ih =>
    rw [List.flatMap_cons, List.length_append, ih, List.length_cons]
    show 2 + _ = _
    omega

/-- A word stands at twice its place among the words sent. -/
theorem pairAt_flatMap_wordBytes (rest : List Byte) {ws : List Word} {i : Nat} (bound : i < ws.length) :
    pairAt (ws.flatMap wordBytes ++ rest) (2 * i) = (ws.getD i 0).toNat := by
  induction ws generalizing i with
  | nil => exact absurd bound (Nat.not_lt_zero i)
  | cons w ws ih =>
    rw [List.flatMap_cons, List.append_assoc]
    cases i with
    | zero => exact pairAt_wordBytes_append w _
    | succ i =>
      have place : 2 * (i + 1) = (wordBytes w).length + 2 * i := by
        show _ = 2 + 2 * i
        omega
      rw [place, pairAt_append_right, List.getD_cons_succ]
      exact ih (Nat.lt_of_succ_lt_succ bound)

theorem length_dataBytes (w : SectorWords) : (dataBytes w).length = 514 := by
  rw [dataBytes, List.length_append, length_flatMap_wordBytes, w.data.property]
  rfl

/-- Sector data stands where it is sent, after whatever is sent before it (R205). -/
theorem dataAt_dataBytes (pre : List Byte) (w : SectorWords) : DataAt (pre ++ dataBytes w) pre.length w := by
  refine ⟨fun k bound => ?_, ?_⟩
  · rw [pairAt_append_right]
    exact pairAt_flatMap_wordBytes _ (by rwa [w.data.property])
  · have place : 512 = (w.data.val.flatMap wordBytes).length + 0 := by
      rw [length_flatMap_wordBytes, w.data.property]
    have check := pairAt_wordBytes_append w.check []
    rw [List.append_nil] at check
    rw [pairAt_append_right, dataBytes, place, pairAt_append_right]
    exact check

/-! ### The use order (R123) -/

/-- The one frame of a track moves to the end, and the others keep their order. -/
theorem refreshFrame_split {pre post : List Frame} (frames : s.tks.frames = pre ++ f :: post) (track : f.track = tr)
    (apart : ∀ x ∈ pre ++ post, x.track ≠ tr) :
    (refreshFrame tr s).tks = { s.tks with frames := pre ++ post ++ [f] } := by
  subst track
  have others := framesWithout_split apart
  have away (xs : List Frame) (sub : ∀ x ∈ xs, x ∈ pre ++ post) : (xs.filter fun x => x.track == f.track) = [] :=
    List.filter_eq_nil_iff.mpr fun x mem => by simpa using apart x (sub x mem)
  have own : ((pre ++ f :: post).filter fun x => x.track == f.track) = [f] := by
    rw [List.filter_append, List.filter_cons_of_pos (by simp), away pre fun x => List.mem_append_left _,
      away post fun x => List.mem_append_right _, List.nil_append]
  rw [refreshFrame, State.updTks_tks, frames, own]
  exact congrArg (fun fs => { s.tks with frames := fs ++ [f] }) others

theorem frameOf_of_split {pre post : List Frame} (frames : s.tks.frames = pre ++ f :: post) (track : f.track = tr)
    (apart : ∀ x ∈ pre ++ post, x.track ≠ tr) : frameOf tr s = some f := by
  subst track
  exact frameOf_split frames fun x mem => apart x (List.mem_append_left _ mem)

/-! ### READ_SECTOR (R185) -/

theorem takeReadSector_of_outside
    (outside : s.geom.cylinders ≤ pairAt p 0 ∨ s.geom.heads ≤ byteAt p 2 ∨ s.geom.sectors ≤ byteAt p 3) :
    takeReadSector p s = refuse .range 0x13 s := by
  refine if_neg fun inside => ?_
  rw [Bool.and_eq_true, inGeometry_iff, decide_eq_true_eq] at inside
  obtain ⟨⟨cyl, head⟩, sector⟩ := inside
  exact outside.elim (Nat.not_le.mpr cyl) fun rest => rest.elim (Nat.not_le.mpr head) (Nat.not_le.mpr sector)

section
variable (cyl : pairAt p 0 < s.geom.cylinders) (head : byteAt p 2 < s.geom.heads) (sector : byteAt p 3 < s.geom.sectors)
include cyl head sector

theorem takeReadSector_inside : takeReadSector p s = match frameOf (trackOf p) s with
    | some f => answer .ok 0x13 (sectorReport (f.sectors.getD (byteAt p 3) .empty) (overlayOf (sectorOf p) s).isSome)
        (refreshFrame (trackOf p) s)
    | none => refuse .notFound 0x13 s :=
  if_pos (by rw [Bool.and_eq_true, inGeometry_iff, decide_eq_true_eq]; exact ⟨⟨cyl, head⟩, sector⟩)

theorem takeReadSector_of_no_frame (gap : frameOf (trackOf p) s = none) :
    takeReadSector p s = refuse .notFound 0x13 s := by
  rw [takeReadSector_inside cyl head sector, gap]

theorem takeReadSector_of_frame {r : SectorRec} (frame : frameOf (trackOf p) s = some f)
    (record : f.sectors[byteAt p 3]? = some r) : takeReadSector p s =
      answer .ok 0x13 (sectorReport r (overlayOf (sectorOf p) s).isSome) (refreshFrame (trackOf p) s) := by
  rw [takeReadSector_inside cyl head sector, frame]
  simp only [List.getD_eq_getElem?_getD, record, Option.getD_some]

end

/-- The three bytes at the front of a report: the state, the weight modulo 256, the flags. -/
theorem sectorReport_head (r : SectorRec) (overlaid : Bool) :
    byteAt (sectorReport r overlaid) 0 = sectorStateByte r ∧ byteAt (sectorReport r overlaid) 1 = r.bestWeight % 256 ∧
      byteAt (sectorReport r overlaid) 2 = (if r.words.isSome then 1 else 0) + (if overlaid then 2 else 0) := by
  have state : sectorStateByte r % 256 = sectorStateByte r := by cases r <;> rfl
  have flags : ∀ held : Bool, (flagBit held 0 + flagBit overlaid 1) % 256 =
      (if held then 1 else 0) + (if overlaid then 2 else 0) := by
    cases overlaid <;> decide
  exact ⟨(BitVec.toNat_ofNat _ _).trans state, BitVec.toNat_ofNat _ _, (BitVec.toNat_ofNat _ _).trans (flags _)⟩

theorem sectorReport_of_no_words {r : SectorRec} (overlaid : Bool) (bare : r.words = none) :
    (sectorReport r overlaid).length = 3 := by
  rw [sectorReport, bare]
  rfl

/-- A record's data follows the three bytes. -/
theorem sectorReport_of_words {r : SectorRec} {w : SectorWords} (overlaid : Bool) (held : r.words = some w) :
    (sectorReport r overlaid).length = 517 ∧ DataAt (sectorReport r overlaid) 3 w := by
  rw [sectorReport, held]
  exact ⟨List.length_append.trans (congrArg (3 + ·) (length_dataBytes w)), dataAt_dataBytes _ w⟩

theorem length_sectorReport (r : SectorRec) (overlaid : Bool) :
    (sectorReport r overlaid).length = if r.words.isSome then 517 else 3 := by
  cases held : r.words with
  | none => exact sectorReport_of_no_words overlaid held
  | some w => exact (sectorReport_of_words overlaid held).1

end Sys2Proof.Machine

open Sys2Proof Sys2Proof.Machine

/-- Settles O28: the two refusals, and the report of the frame's record with the frame at the end of the use order. -/
theorem readSectorReportsAndRefreshes : Obligations.ReadSectorReportsAndRefreshes := by
  intro s p taking
  have run : exec .readSector s = .next (takeReadSector p s) :=
    congrArg Host.Outcome.next (takeRequest_of_taking takeReadSector taking)
  refine ⟨_, run, readSector_within.changes run, fun outside => ?_, fun cyl head sector => ⟨fun gap => ?_, ?_⟩⟩
  · rw [takeReadSector_of_outside outside]
    exact ⟨answer_answered _ _ _, rfl⟩
  · rw [takeReadSector_of_no_frame cyl head sector gap]
    exact ⟨answer_answered _ _ _, rfl⟩
  · intro pre f post r frames track apart record
    rw [takeReadSector_of_frame cyl head sector (frameOf_of_split frames track apart) record]
    obtain ⟨state, weight, flags⟩ := sectorReport_head r (overlayOf (sectorOf p) s).isSome
    exact ⟨refreshFrame_split frames track apart, _, answer_answered _ _ _, state, weight, flags,
      length_sectorReport r _, fun w held => (sectorReport_of_words _ held).2⟩

end

section
/-! PROOF. MARK_EXPORTED and DROP_OVERLAY: an entry and a frame marked, an overlay entry removed (R127, R140, R164, R184,
R189). -/

namespace Sys2Proof.Machine

variable {s : State} {p : List Byte}

/-! ### MARK_EXPORTED (R127, R140, R184) -/

/-- The entry and the frame of a track marked, whichever exist (R127, R140). -/
def markedExported (tr : Track) (s : State) : State :=
  updFrame tr clearExport (updEntry tr (fun e => { e with exported := true }) s)

theorem markedExported_changes (tr : Track) (s : State) : ChangesOnly [.rct, .tks] s (markedExported tr s) :=
  ((updEntry_changes _ _).mono (by decide)).andThen (updFrame_changes _ _) (by decide)

theorem takeMarkExported_of_some (known : (entryOf (trackOf p) s).isSome ∨ (frameOf (trackOf p) s).isSome) :
    takeMarkExported p s = answer .ok 0x12
      (u8 (flagBit (entryOf (trackOf p) s).isSome 0 + flagBit (frameOf (trackOf p) s).isSome 1))
      (arbitrate (markedExported (trackOf p) s)) :=
  if_pos (Bool.or_eq_true_iff.mpr known)

theorem takeMarkExported_of_none (entry : entryOf (trackOf p) s = none) (frame : frameOf (trackOf p) s = none) :
    takeMarkExported p s = refuse .notFound 0x12 s :=
  if_neg (by rw [entry, frame]; decide)

/-! ### DROP_OVERLAY (R164, R189) -/

theorem takeDropOverlay_of_none (gap : overlayOf (sectorOf p) s = none) :
    takeDropOverlay p s = refuse .notFound 0x32 s := by
  rw [takeDropOverlay, gap]

theorem takeDropOverlay_of_some {e : OverlayEntry} (held : overlayOf (sectorOf p) s = some e) :
    takeDropOverlay p s = answer .ok 0x32 (overlayBytes e) (s.updOvl (dropOverlayEntry (sectorOf p))) := by
  rw [takeDropOverlay, held]

theorem overlayOf_dropOverlayEntry (a : SectorAddr) : overlayOf a (s.updOvl (dropOverlayEntry a)) = none :=
  find_remove_self OverlayEntry.addr _ _

theorem overlayOf_dropOverlayEntry_ne {a b : SectorAddr} (other : b ≠ a) :
    overlayOf b (s.updOvl (dropOverlayEntry a)) = overlayOf b s :=
  find_remove_ne OverlayEntry.addr _ other

/-- No entry stands under the address once it is dropped, whether one was there or not, and the others stand. -/
theorem takeDropOverlay_overlay (p : List Byte) (s : State) :
    (∀ a, a ≠ sectorOf p → overlayOf a (takeDropOverlay p s) = overlayOf a s) ∧
      overlayOf (sectorOf p) (takeDropOverlay p s) = none := by
  cases held : overlayOf (sectorOf p) s with
  | none =>
    rw [takeDropOverlay_of_none held]
    exact ⟨fun _ _ => rfl, held⟩
  | some e =>
    rw [takeDropOverlay_of_some held]
    exact ⟨fun _ other => overlayOf_dropOverlayEntry_ne other, overlayOf_dropOverlayEntry _⟩

/-- An overlay record of the address that a payload carries shows that address as it is. -/
theorem overlayBytes_fields {e : OverlayEntry} (addr : e.addr = sectorOf p) :
    (overlayBytes e).length = 5 ∧ pairAt (overlayBytes e) 0 = pairAt p 0 ∧ byteAt (overlayBytes e) 2 = byteAt p 2 ∧
      byteAt (overlayBytes e) 3 = byteAt p 3 ∧ byteAt (overlayBytes e) 4 = e.writes % 256 := by
  have head := byteAt_le p 2
  have sector := byteAt_le p 3
  obtain ⟨-, cyl⟩ := u16_fields (pairAt_le p 0)
  rw [overlayBytes, addr]
  exact ⟨rfl, cyl, (BitVec.toNat_ofNat _ _).trans (Nat.mod_eq_of_lt (Nat.lt_of_le_of_lt head (by decide))),
    (BitVec.toNat_ofNat _ _).trans (Nat.mod_eq_of_lt (Nat.lt_of_le_of_lt sector (by decide))),
    BitVec.toNat_ofNat _ _⟩

end Sys2Proof.Machine

open Sys2Proof Sys2Proof.Machine

/-- Settles O29: the marks made before arbitration, and the overlay without the entry of the address. -/
theorem markExportedAndDropOverlay : Obligations.MarkExportedAndDropOverlay := by
  constructor
  · intro s p taking
    have taken := takeRequest_of_taking takeMarkExported taking
    refine ⟨fun known => ?_, fun entry frame => ?_⟩
    · rw [takeMarkExported_of_some known] at taken
      exact ⟨_, markedExported (trackOf p) s, congrArg Host.Outcome.next taken, markedExported_changes _ _, rfl, rfl,
        answer_answered _ _ _, answer_changes _ _ _⟩
    · rw [takeMarkExported_of_none entry frame] at taken
      exact ⟨_, congrArg Host.Outcome.next taken, refuse_changes _ _, answer_answered _ _ _⟩
  · intro s p taking
    have run : exec .dropOverlay s = .next (takeDropOverlay p s) :=
      congrArg Host.Outcome.next (takeRequest_of_taking takeDropOverlay taking)
    obtain ⟨others, dropped⟩ := takeDropOverlay_overlay p s
    refine ⟨_, run, dropOverlay_within.changes run, others, dropped, fun gap => ?_, fun e held => ?_⟩
    · rw [takeDropOverlay_of_none gap]
      exact ⟨answer_answered _ _ _, rfl⟩
    · rw [takeDropOverlay_of_some held]
      exact ⟨_, answer_answered _ _ _, overlayBytes_fields (overlayOf_addr held)⟩

end

section
/-! PROOF. READ and WRITE gates: when one is taken, what a READ is answered with, and where a WRITE leads (R123, R151,
R159 to R161). -/

namespace Sys2Proof.Machine

variable {s : State} {a : SectorAddr} {f : Frame} {r : SectorRec} {w : SectorWords}

/-! ### Gates taken (R145, R151) -/

theorem takesGate_iff (s : State) :
    takesGate s = true ↔ s.pins.unitSelect = true ∧ s.mcp.state = .ready ∧ s.mcp.gateTaken = false := by
  simp [takesGate, and_assoc]

theorem exec_gates_of_closed (closed : s.pins.unitSelect = false ∨ s.mcp.state ≠ .ready ∨ s.mcp.gateTaken = true) :
    exec .read s = .next s ∧ exec .write s = .next s := by
  have shut : ¬ takesGate s = true := by
    rw [takesGate_iff]
    rintro ⟨selected, ready, first⟩
    rcases closed with released | other | taken
    · exact absurd (selected.symm.trans released) (by decide)
    · exact other ready
    · exact absurd (taken.symm.trans first) (by decide)
  exact ⟨congrArg Host.Outcome.next (if_neg shut), congrArg Host.Outcome.next (if_neg shut)⟩

section
variable (selected : s.pins.unitSelect = true) (ready : s.mcp.state = .ready) (first : s.mcp.gateTaken = false)
include selected ready first

theorem exec_read_of_open : exec .read s = .next (takeRead s) :=
  congrArg Host.Outcome.next (if_pos ((takesGate_iff s).mpr ⟨selected, ready, first⟩))

theorem exec_write_of_open : exec .write s = .next (takeWrite s) :=
  congrArg Host.Outcome.next (if_pos ((takesGate_iff s).mpr ⟨selected, ready, first⟩))

end

/-! ### The words from the frame (R159) -/

theorem frameAnswer_of_none (gap : frameOf a.track s = none ∨ s.geom.heads ≤ a.track.head) :
    frameAnswer a s = none := by
  unfold frameAnswer
  split
  · rfl
  · next inside =>
    rw [sectorRecord, gap.resolve_right inside]
    rfl

theorem frameAnswer_of_record (head : a.track.head < s.geom.heads) (frame : frameOf a.track s = some f)
    (record : f.sectors[a.sector]? = some r) : frameAnswer a s = r.words := by
  rw [frameAnswer, if_neg (Nat.not_le.mpr head), sectorRecord, frame]
  simp only [Option.bind_some, record]

/-! ### The answer, and the frame refreshed (R123, R159, R160) -/

theorem readAnswer_of_overlay {e : OverlayEntry} (held : overlayOf a s = some e) :
    readAnswer a s = some ⟨a, headerCheck a, withCheck e.data⟩ := by
  rw [readAnswer, readWords, held]
  rfl

theorem readAnswer_of_no_overlay (clear : overlayOf a s = none) :
    readAnswer a s = (frameAnswer a s).map fun w => ⟨a, headerCheck a, w⟩ := by
  rw [readAnswer, readWords, clear]

theorem takeRead_mcp (s : State) : (takeRead s).mcp =
    { s.mcp with gateTaken := true, activity := .reading (readAnswer (passingAddr s) s) } := by
  unfold takeRead
  dsimp only
  split <;> rfl

/-- The frame is refreshed exactly where the words are taken from it. -/
theorem takeRead_tks (s : State) : (takeRead s).tks =
    if (overlayOf (passingAddr s) s).isNone && (frameAnswer (passingAddr s) s).isSome then
      (refreshFrame s.mcp.track s).tks
    else s.tks := by
  unfold takeRead
  dsimp only
  split <;> rfl

/-- An overlay entry answers, and the use order stands. -/
theorem takeRead_of_overlay {e : OverlayEntry} (held : overlayOf (passingAddr s) s = some e) :
    (takeRead s).tks = s.tks ∧
      readAnswer (passingAddr s) s = some ⟨passingAddr s, headerCheck (passingAddr s), withCheck e.data⟩ := by
  rw [takeRead_tks, held]
  exact ⟨rfl, readAnswer_of_overlay held⟩

/-- No overlay entry and no words in the frame: no address mark, and the use order stands. -/
theorem takeRead_of_nothing (clear : overlayOf (passingAddr s) s = none) (bare : frameAnswer (passingAddr s) s = none) :
    readAnswer (passingAddr s) s = none ∧ (takeRead s).tks = s.tks := by
  rw [readAnswer_of_no_overlay clear, takeRead_tks, clear, bare]
  exact ⟨rfl, rfl⟩

/-- No overlay entry and words in the one frame of the track: those words, and the frame at the end of the use order. -/
theorem takeRead_of_words {pre post : List Frame} (clear : overlayOf (passingAddr s) s = none)
    (held : frameAnswer (passingAddr s) s = some w) (frames : s.tks.frames = pre ++ f :: post)
    (track : f.track = s.mcp.track) (apart : ∀ x ∈ pre ++ post, x.track ≠ s.mcp.track) :
    (takeRead s).tks = { s.tks with frames := pre ++ post ++ [f] } ∧
      readAnswer (passingAddr s) s = some ⟨passingAddr s, headerCheck (passingAddr s), w⟩ := by
  rw [readAnswer_of_no_overlay clear, takeRead_tks, clear, held]
  exact ⟨refreshFrame_split frames track apart, rfl⟩

/-- A record that holds data, in any of the four states that do (R113). -/
theorem words_of_held {k : Nat} (held : r = .good w ∨ r = .recovered w ∨ r = .opened w k ∨ r = .failed (some (w, k))) :
    r.words = some w := by
  rcases held with rfl | rfl | rfl | rfl <;> rfl

theorem words_of_bare (bare : r = .empty ∨ r = .failed none) : r.words = none := by
  rcases bare with rfl | rfl <;> rfl

/-! ### WRITE (R161) -/

theorem takeWrite_mcp (s : State) : (takeWrite s).mcp = if s.geom.heads ≤ s.mcp.track.head
    then { s.mcp with gateTaken := true, state := .fault, hold := none, activity := .none }
    else { s.mcp with gateTaken := true, activity := .writing (passingAddr s) } := by
  unfold takeWrite
  split <;> rfl

end Sys2Proof.Machine

open Sys2Proof Sys2Proof.Machine

/-- Settles O57: the gates refused, the answer of a READ by overlay and frame, and the port after a WRITE. -/
theorem gatesAreTakenOncePerPassing : Obligations.GatesAreTakenOncePerPassing := by
  rintro s a rfl
  refine ⟨exec_gates_of_closed, fun selected ready first => ⟨?_, ?_⟩⟩
  · have run := exec_read_of_open selected ready first
    refine ⟨_, _, run, read_within.changes run, takeRead_mcp s, fun _ held => takeRead_of_overlay held,
      fun clear gap => takeRead_of_nothing clear (frameAnswer_of_none gap), ?_⟩
    intro pre f post r clear head frames track apart record
    have words := frameAnswer_of_record head (frameOf_of_split frames track apart) record
    exact ⟨fun bare => takeRead_of_nothing clear (words.trans (words_of_bare bare)),
      fun w k held => takeRead_of_words clear (words.trans (words_of_held held)) frames track apart⟩
  · have run := exec_write_of_open selected ready first
    exact ⟨_, run, write_within.changes run, takeWrite_mcp s⟩

end

section
/-! PROOF. What the drive's operations leave of the port: its block and the bypass relay stand under each of them, and the
end of the event makes the port follow (R42, R146 to R148, R152, R153). -/

namespace Sys2Proof.Machine

variable {s t u : State} {g : Grant} {bs : List Block}

/-! ### The port and the relay stand -/

/-- The port and the bypass relay stand. -/
structure PortStands (s t : State) : Prop where
  port : t.mcp = s.mcp
  bypass : t.dsq.bypass = s.dsq.bypass

theorem PortStands.refl (s : State) : PortStands s s :=
  ⟨rfl, rfl⟩

theorem PortStands.trans (h : PortStands s t) (k : PortStands t u) : PortStands s u :=
  ⟨k.port.trans h.port, k.bypass.trans h.bypass⟩

theorem PortStands.ite {p : Prop} [Decidable p] (h : PortStands s t) (k : PortStands s u) :
    PortStands s (if p then t else u) := by
  split <;> assumption

/-- Changes beyond the port and the sequencer. -/
theorem ChangesOnly.portStands (h : ChangesOnly bs s t) (dsq : .dsq ∉ bs := by decide) (mcp : .mcp ∉ bs := by decide) :
    PortStands s t :=
  ⟨h.mcp mcp, by rw [h.dsq dsq]⟩

/-- Changes beyond the port that leave the relay. -/
theorem ChangesOnly.portStands_of (h : ChangesOnly bs s t) (bypass : t.dsq.bypass = s.dsq.bypass)
    (mcp : .mcp ∉ bs := by decide) : PortStands s t :=
  ⟨h.mcp mcp, bypass⟩

theorem updDsq_portStands (f : Dsq → Dsq) (bypass : (f s.dsq).bypass = s.dsq.bypass) : PortStands s (s.updDsq f) :=
  ⟨rfl, bypass⟩

/-! ### Grants, batches and passes (R25 to R33) -/

theorem enterIdle_portStands : PortStands s (enterIdle s) :=
  ⟨rfl, rfl⟩

theorem abandonWork_portStands : PortStands s (abandonWork s) :=
  abandonWork_changes.portStands_of (by rw [abandonWork_dsq])

theorem endUnpassed_portStands (g : Grant) : PortStands s (endUnpassed g s) :=
  (endUnpassed_changes g).portStands_of (by rw [endUnpassed_dsq])

theorem completeBatch_portStands (b : Batch) : PortStands s (completeBatch b s) :=
  (completeBatch_changes b).portStands_of (by rw [completeBatch_dsq])

theorem countPass_portStands (g : Grant) : PortStands s (countPass g s) := by
  refine (countPass_changes g).portStands_of ?_
  obtain ⟨-, ⟨dsq, -⟩ | ⟨-, dsq, -⟩⟩ := countPass_cases g s <;> rw [dsq]

theorem beginRecalibrate_portStands : PortStands s (beginRecalibrate s) :=
  beginRecalibrate_changes.portStands_of (by rw [beginRecalibrate_dsq])

theorem endSettle_portStands : PortStands s (endSettle s) := by
  have ended : PortStands s (clearOperation s) := updDsq_portStands _ rfl
  unfold endSettle
  split
  · exact .ite ((ended.trans (endUnpassed_portStands _)).trans enterIdle_portStands)
      (ended.trans (updDsq_portStands _ rfl))
  · exact ended.trans enterIdle_portStands

theorem beginSettle_portStands (g : Grant) : PortStands s (beginSettle g s) :=
  .ite ((updDsq_portStands _ rfl).trans endSettle_portStands) (updDsq_portStands _ rfl)

theorem takeUpGrant_portStands (g : Grant) : PortStands s (takeUpGrant g s) := by
  unfold takeUpGrant
  split
  · exact beginRecalibrate_portStands
  · exact .ite (updDsq_portStands _ rfl) (.ite (beginSettle_portStands _)
      ((updDsq_portStands _ rfl).trans (updDsq_portStands _ rfl)))

/-! ### Fences and seek faults (R35 to R38) -/

theorem raiseFence_portStands (cause : FenceCause) (before : State) : PortStands s (raiseFence cause before s) := by
  refine (raiseFence_changes cause before).portStands_of ?_
  cases fence : s.dsq.fence with
  | some x => rw [raiseFence_of_fenced (by rw [fence]; rfl)]
  | none =>
    rw [raiseFence_of_free fence]
    show (fencedBy cause s).dsq.bypass = _
    rw [fencedBy_dsq]

theorem seekFault_portStands : PortStands s (seekFault s) := by
  have counted : PortStands s (faultCounted s) := updDsq_portStands _ rfl
  by_cases reached : s.dsq.set.fenceLimit ≤ s.dsq.faults + 1
  · rw [seekFault_of_limit reached]
    exact counted.trans (raiseFence_portStands _ _)
  · rw [seekFault_of_below (Nat.lt_of_not_le reached)]
    have faulted : PortStands s (setGrant (faultGrant (faultCounted s)) (faultCounted s)) :=
      counted.trans (updDsq_portStands _ rfl)
    exact ((faulted.trans (updRdc_changes _).portStands).trans (updDsq_portStands _ rfl)).trans beginRecalibrate_portStands

/-! ### The spindle, marks and the ends of operations (R22 to R30, R34) -/

theorem followSpindle_portStands (old : Spindle) : PortStands s (followSpindle old s) := by
  have left (st : DsqState) (v : State) : PortStands v (setDsqState st v) := updDsq_portStands _ rfl
  by_cases same : old = spindleOf s.ixm
  · rw [same, followSpindle_same rfl]
    exact .refl s
  rcases spindle_cases s.ixm with down | unstable | running
  · rw [followSpindle_of_down (Ne.symm same) down]
    rcases followDown_cases s with ⟨-, e⟩ | ⟨-, e⟩ | ⟨-, e⟩ | ⟨-, e⟩ <;> rw [e]
    · exact left _ _
    · exact (abandonWork_portStands.trans (updDsq_portStands _ rfl)).trans (left _ _)
    · exact abandonWork_portStands.trans (left _ _)
    · exact .refl s
  · rw [followSpindle_unstable (Ne.symm same) unstable]
    by_cases reading : s.dsq.state = .reading
    · rw [followUnstable_of_reading reading]
      exact abandonWork_portStands.trans (left _ _)
    · rw [followUnstable_of_not_reading reading]
      exact .refl s
  · rw [followSpindle_of_running (Ne.symm same) running]
    rcases followRunning_cases s with e | ⟨-, e⟩ <;> rw [e]
    · exact .refl s
    · exact beginRecalibrate_portStands

theorem takeMark_portStands (r : Timer) : PortStands s (takeMark r s) := by
  rcases takeMark_cases r s with e | ⟨g, -, -, ⟨-, e⟩ | ⟨-, e⟩⟩ <;> rw [e]
  · exact .refl s
  · exact countPass_portStands g
  · exact ⟨rfl, rfl⟩

theorem takeLateExpiry_portStands : PortStands s (takeLateExpiry s) := by
  rcases takeLateExpiry_cases s with e | ⟨g, -, -, -, e⟩ <;> rw [e]
  · exact .refl s
  · exact countPass_portStands g

theorem completeSeek_portStands : PortStands s (completeSeek s) := by
  have arrived : PortStands s (seekArrived s) := ⟨rfl, by rw [seekArrived_dsq]⟩
  cases grant : s.dsq.grant with
  | none => rw [completeSeek_of_free grant]; exact arrived.trans enterIdle_portStands
  | some g =>
    by_cases unstable : spindleOf s.ixm = .unstable
    · rw [completeSeek_of_unstable grant unstable]
      exact (arrived.trans (endUnpassed_portStands g)).trans enterIdle_portStands
    · rw [completeSeek_of_steady grant unstable]
      exact arrived.trans (beginSettle_portStands g)

theorem resumeGrant_portStands (g : Grant) : PortStands s (resumeGrant g s) := by
  have ended : PortStands s (enterIdle (endUnpassed g s)) := (endUnpassed_portStands g).trans enterIdle_portStands
  unfold resumeGrant
  split
  · exact countPass_portStands g
  · exact ended
  · exact .ite ended (takeUpGrant_portStands g)

theorem completeRecalibrate_portStands : PortStands s (completeRecalibrate s) := by
  have arrived : PortStands s (recalibrateArrived s) := ⟨rfl, rfl⟩
  cases grant : s.dsq.grant with
  | none => rw [completeRecalibrate_of_free grant]; exact arrived.trans enterIdle_portStands
  | some g =>
    by_cases phase : g.phase = .approach
    · rw [completeRecalibrate_of_approach grant phase]; exact arrived.trans (resumeGrant_portStands g)
    · rw [completeRecalibrate_of_past grant phase]; exact arrived.trans enterIdle_portStands

/-! ### What the port keeps whatever its readiness (R148, R152) -/

/-- The port is DETACHED with the relay and holds exactly in SEEKING: PortFollows but for what it says of readiness,
which the end of an event restores. -/
structure PortSound (s : State) : Prop where
  relay : s.mcp.state = .detached ↔ s.dsq.bypass = true
  holds : s.mcp.state = .seeking ↔ s.mcp.hold.isSome

theorem portFollows_iff (s : State) : PortFollows s ↔
    PortSound s ∧ (s.dsq.bypass = false → (s.mcp.state = .notReady ↔ readyToServe s = false)) :=
  ⟨fun ⟨relay, ready, holds⟩ => ⟨⟨relay, holds⟩, ready⟩, fun ⟨⟨relay, holds⟩, ready⟩ => ⟨relay, ready, holds⟩⟩

theorem PortFollows.sound (h : PortFollows s) : PortSound s :=
  ((portFollows_iff s).mp h).1

theorem PortSound.stands (h : PortSound s) (k : PortStands s t) : PortSound t :=
  ⟨by rw [k.port, k.bypass]; exact h.relay, by rw [k.port]; exact h.holds⟩

/-- The port in service: none of its own states is NOT_READY or DETACHED. -/
def PortState.inService : PortState → Bool
  | .notReady | .detached => false
  | _ => true

theorem PortState.inService_iff (x : PortState) : x.inService = true ↔ x ≠ .notReady ∧ x ≠ .detached := by
  cases x <;> decide

/-- The port serves: it holds, or it is READY without a hold. -/
def Mcp.Serves (m : Mcp) : Prop :=
  m.state = .seeking ∧ m.hold.isSome ∨ m.state = .ready ∧ m.hold = none

theorem Mcp.Serves.inService {m : Mcp} (h : m.Serves) : m.state.inService = true := by
  rcases h with ⟨state, -⟩ | ⟨state, -⟩ <;> rw [state] <;> rfl

theorem Mcp.Serves.holds {m : Mcp} (h : m.Serves) : m.state = .seeking ↔ m.hold.isSome := by
  rcases h with ⟨state, hold⟩ | ⟨state, hold⟩ <;> simp [state, hold]

theorem enterReady_serves (m : Mcp) : (enterReady m).Serves :=
  .inr ⟨rfl, rfl⟩

theorem testHold_serves (h : s.mcp.Serves) : (testHold s).mcp.Serves := by
  rcases testHold_cases s with e | ⟨-, e⟩ <;> rw [e]
  exacts [h, enterReady_serves _]

theorem beginHold_serves (s : State) : (beginHold s).mcp.Serves := by
  unfold beginHold
  split
  · exact testHold_serves (.inl ⟨rfl, rfl⟩)
  · exact enterReady_serves _

/-! ### PortFollows under changes (R146 to R148) -/

/-- A port in service is attached and has the drive to serve it. -/
theorem PortFollows.served (h : PortFollows s) (service : s.mcp.state.inService = true) :
    s.dsq.bypass = false ∧ readyToServe s = true := by
  obtain ⟨sound, ready⟩ := (portFollows_iff s).mp h
  obtain ⟨opened, attached⟩ := (PortState.inService_iff _).mp service
  have bypass : s.dsq.bypass = false := Bool.eq_false_iff.mpr fun k => attached (sound.relay.mpr k)
  exact ⟨bypass, Bool.of_not_eq_false fun k => opened ((ready bypass).mpr k)⟩

/-- A port in service follows where the drive serves it. -/
theorem PortFollows.of_service (bypass : s.dsq.bypass = false) (ready : readyToServe s = true)
    (service : s.mcp.state.inService = true) (holds : s.mcp.state = .seeking ↔ s.mcp.hold.isSome) : PortFollows s := by
  obtain ⟨opened, attached⟩ := (PortState.inService_iff _).mp service
  exact ⟨by simp [attached, bypass], fun _ => by simp [opened, ready], holds⟩

/-- A NOT_READY port without a hold follows where the drive does not serve it. -/
theorem PortFollows.of_closed (bypass : s.dsq.bypass = false) (unready : readyToServe s = false)
    (closed : s.mcp.state = .notReady) (hold : s.mcp.hold = none) : PortFollows s :=
  ⟨by simp [closed, bypass], fun _ => by simp [closed, unready], by simp [closed, hold]⟩

theorem readyToServe_congr (ixm : spindleDown t.ixm = spindleDown s.ixm)
    (fenced : t.dsq.state = .fenced ↔ s.dsq.state = .fenced) : readyToServe t = readyToServe s := by
  have same : (t.dsq.state != .fenced) = (s.dsq.state != .fenced) := by
    rw [Bool.eq_iff_iff, bne_iff_ne, bne_iff_ne]
    exact not_congr fenced
  rw [readyToServe, readyToServe, ixm, same]

/-- PortFollows reads of the port its state and its hold, and of the drive the relay and the readiness. -/
theorem PortFollows.congr (h : PortFollows s) (state : t.mcp.state = s.mcp.state) (hold : t.mcp.hold = s.mcp.hold)
    (bypass : t.dsq.bypass = s.dsq.bypass) (ready : readyToServe t = readyToServe s) : PortFollows t := by
  unfold PortFollows
  rwa [state, hold, bypass, ready]

/-- Changes beyond the three blocks that PortFollows reads. -/
theorem PortFollows.beyond (h : PortFollows s) (k : ChangesOnly bs s t) (dsq : .dsq ∉ bs := by decide)
    (ixm : .ixm ∉ bs := by decide) (mcp : .mcp ∉ bs := by decide) : PortFollows t :=
  h.congr (by rw [k.mcp mcp]) (by rw [k.mcp mcp]) (by rw [k.dsq dsq]) (by rw [readyToServe, readyToServe, k.dsq dsq, k.ixm ixm])

/-- The port goes from one state in service to another, the drive standing. -/
theorem PortFollows.moved (h : PortFollows s) (k : ChangesOnly bs s t) (before : s.mcp.state.inService = true)
    (after : t.mcp.state.inService = true) (holds : t.mcp.state = .seeking ↔ t.mcp.hold.isSome)
    (dsq : .dsq ∉ bs := by decide) (ixm : .ixm ∉ bs := by decide) : PortFollows t := by
  obtain ⟨bypass, ready⟩ := h.served before
  exact .of_service (by rw [k.dsq dsq]; exact bypass)
    (by rw [readyToServe, k.dsq dsq, k.ixm ixm]; exact ready) after holds

theorem PortFollows.serves (h : PortFollows s) (k : ChangesOnly bs s t) (before : s.mcp.state.inService = true)
    (after : t.mcp.Serves) (dsq : .dsq ∉ bs := by decide) (ixm : .ixm ∉ bs := by decide) : PortFollows t :=
  h.moved k before after.inService after.holds dsq ixm

theorem PortFollows.testHold (h : PortFollows s) : PortFollows (testHold s) := by
  rcases testHold_cases s with e | ⟨seeking, e⟩ <;> rw [e]
  · exact h
  · exact h.serves (updMcp_changes _) (by rw [seeking]; rfl) (enterReady_serves _)

/-- A grant fences nothing and leaves the port (R25 to R27). -/
theorem PortFollows.arbitrate (h : PortFollows s) : PortFollows (arbitrate s) := by
  rcases arbitrate_cases s with e | ⟨c, -, idle, running, -, given⟩
  · rwa [e]
  · have only := grantGiven_changes c s
    have dsq := grantGiven_dsq c s
    obtain ⟨same, -, -, attached⟩ := takeUpGrant_running (s := grantGiven c s) (g := grantFor c s) (by rw [dsq])
      (by rw [only.ixm]; exact running)
    have all : ChangesOnly grantBlocks s (Machine.arbitrate s) := arbitrate_changes
    rw [← given] at same attached
    refine h.congr (by rw [all.mcp]) (by rw [all.mcp]) (by rw [same.bypass, dsq])
      (readyToServe_congr (by rw [all.ixm]) ?_)
    rw [idle]
    exact ⟨fun fenced => (by rw [fenced] at attached; cases attached), nofun⟩

/-! ### The end of an event (R146, R147, R153) -/

/-- Whatever the event has made of the drive, the port then follows it. -/
theorem PortSound.followReady (h : PortSound s) : PortFollows (followReady s) := by
  have attached (other : s.mcp.state ≠ .detached) : s.dsq.bypass = false :=
    Bool.eq_false_iff.mpr fun k => other (h.relay.mpr k)
  have only : ChangesOnly [.mcp] s (Machine.followReady s) := followReady_changes
  have bypass : (Machine.followReady s).dsq.bypass = s.dsq.bypass := by rw [only.dsq]
  have ready : readyToServe (Machine.followReady s) = readyToServe s := by
    rw [readyToServe, readyToServe, only.dsq, only.ixm]
  by_cases relay : s.mcp.state = .detached
  · rw [followReady_detached relay]
    exact (portFollows_iff s).mpr ⟨h, fun free => absurd (h.relay.mp relay) (by rw [free]; decide)⟩
  rw [attached relay] at bypass
  by_cases follows : s.mcp.state = .notReady ↔ readyToServe s = false
  · rw [followReady_eq_self follows]
    exact (portFollows_iff s).mpr ⟨h, fun _ => follows⟩
  by_cases closed : s.mcp.state = .notReady
  · have opens : readyToServe s = true := Bool.of_not_eq_false fun k => follows (iff_of_true closed k)
    have started : Machine.followReady s = startPort s := by
      unfold Machine.followReady
      rw [closed]
      exact if_pos opens
    have serves : (Machine.followReady s).mcp.Serves := by rw [started]; exact beginHold_serves _
    exact .of_service bypass (ready.trans opens) serves.inService serves.holds
  · have closes : readyToServe s = false :=
      Bool.eq_false_iff.mpr fun k => follows (iff_of_false closed (by rw [k]; decide))
    have left : Machine.followReady s = s.updMcp (leaveFor .notReady) := by
      unfold Machine.followReady
      split
      · exact absurd ‹_› relay
      · exact absurd ‹_› closed
      · exact if_neg (by rw [closes]; decide)
    exact .of_closed bypass (ready.trans closes) (by rw [left]; rfl) (by rw [left]; rfl)

theorem PortSound.afterEvent (h : PortSound s) : PortFollows (afterEvent s) :=
  h.followReady.testHold.arbitrate

/-- An event of the drive that leaves the port, and the event's end. -/
theorem PortStands.afterEvent (k : PortStands s t) (h : PortFollows s) : PortFollows (Machine.afterEvent t) :=
  (h.sound.stands k).afterEvent

theorem PortFollows.afterJobs (h : PortFollows s) : PortFollows (afterJobs s) :=
  h.testHold.arbitrate

end Sys2Proof.Machine
end

section
/-! PROOF. Every command leaves the port following its readiness (R42, R43, R146 to R149, R152 to R158, R161, R162). -/

namespace Sys2Proof.Machine

variable {s t u : State} {bs : List Block}

/-! ### The drive's events, each with its end -/

theorem raiseFence_follows (h : PortFollows s) (cause : FenceCause) (before : State) :
    PortFollows (afterEvent (raiseFence cause before s)) :=
  (raiseFence_portStands cause before).afterEvent h

theorem seekFault_follows (h : PortFollows s) : PortFollows (afterEvent (seekFault s)) :=
  seekFault_portStands.afterEvent h

theorem watchSelect_follows (h : PortFollows s) : PortFollows (watchSelect s) := by
  unfold watchSelect
  split
  · exact raiseFence_follows h _ _
  · exact h

theorem qualifiedIndex_follows (h : PortFollows s) : PortFollows (qualifiedIndex s) := by
  have followed : PortStands s
      (followSpindle (spindleOf s.ixm) (monitorIndex s.clock.rotationTimer (s.updIxm markTaken))) :=
    (indexMonitored_changes s).portStands.trans (followSpindle_portStands _)
  exact (PortStands.ite (followed.trans (takeMark_portStands _)) followed).afterEvent h

theorem badEvent_portStands (x : Ixm) : PortStands s (followSpindle (spindleOf s.ixm) (badEvent x s)) :=
  (badEvent_changes x).portStands.trans (followSpindle_portStands _)

/-- CLOSED goes to OPEN under a spindle that is up. -/
theorem enterOpen_follows (h : PortFollows s) (window : s.ixm.window = .closed) : PortFollows (s.updIxm enterOpen) :=
  h.congr rfl rfl rfl (readyToServe_congr
    ((spindleDown_of_turning (.inr (.inl rfl))).trans (spindleDown_of_turning (.inl window)).symm) .rfl)

theorem takeHeader_follows (h : PortFollows s) (p : PassContext) (mark : Timer) (x : HeaderRead) :
    PortFollows (takeHeader p mark x s) := by
  unfold takeHeader
  dsimp only
  split
  · exact h
  · split
    · have tallied : ChangesOnly [.jbq] s (badHeader p (elapsed mark p.reference) s) :=
        .ite (tallyPass_changes _ _ _) (.refl _ _)
      exact h.beyond tallied
    · split
      · exact seekFault_follows h
      · split
        · exact h.beyond (updRdc_changes _)
        · exact h

/-- Of the drive a good copy changes open sets alone. -/
theorem deliverGood_follows (h : PortFollows s) (c : SealedCopy) : PortFollows (deliverGood c s) := by
  obtain ⟨dsq, -⟩ := deliverGood_drive c s
  have port : (deliverGood c s).mcp = s.mcp := by
    unfold deliverGood
    dsimp only
    split <;> split <;> rfl
  exact h.congr (by rw [port]) (by rw [port]) (by rw [dsq])
    (readyToServe_congr (by rw [(deliverGood_changes c).ixm]) (by rw [dsq]))

theorem deliverCopy_follows (h : PortFollows s) (c : SealedCopy) : PortFollows (deliverCopy c s) := by
  have counted : ChangesOnly [.rdc, .jbq] s (tallyPass c.addr.track c.addr.sector Tally.countCopy
      (s.updRdc fun r => { r with lastDeviation := c.deviation, assembly := none })) :=
    ((updRdc_changes _).mono (by decide)).andThen (tallyPass_changes _ _ _) (by decide)
  have kept := h.beyond counted
  refine PortFollows.testHold ?_
  split
  · exact deliverGood_follows kept c
  · exact kept.beyond (deliverBad_stands c _)

/-! ### The machine's requests (R156 to R162) -/

theorem takesMotion_iff (s : State) :
    takesMotion s = true ↔ s.pins.unitSelect = true ∧ (s.mcp.state = .ready ∨ s.mcp.state = .seeking) := by
  simp [takesMotion]

theorem inService_of_motion (h : s.mcp.state = .ready ∨ s.mcp.state = .seeking) : s.mcp.state.inService = true := by
  rcases h with h | h <;> rw [h] <;> rfl

theorem beginHold_follows (h : PortFollows s) (service : s.mcp.state.inService = true) (tr : Track) :
    PortFollows (beginHold (setTrack tr s)) :=
  h.serves ((setTrack_changes tr).trans beginHold_changes) service (beginHold_serves _)

theorem setTrack_follows (h : PortFollows s) (tr : Track) : PortFollows (setTrack tr s) :=
  h.congr rfl rfl rfl rfl

theorem selectHead_follows (h : PortFollows s) (motion : s.mcp.state = .ready ∨ s.mcp.state = .seeking) (hd : Nat) :
    PortFollows (selectHead hd s) := by
  have service := inService_of_motion motion
  have track := setTrack_follows h ⟨s.mcp.track.cyl, hd⟩
  unfold selectHead
  dsimp only
  split
  · exact track.serves (updMcp_changes _) service (enterReady_serves _)
  · split
    · split
      · exact track
      · exact beginHold_follows h service _
    · exact track.testHold

theorem takeWrite_follows (h : PortFollows s) (ready : s.mcp.state = .ready) : PortFollows (takeWrite s) := by
  unfold takeWrite
  split
  · exact h.moved (updMcp_changes _) (by rw [ready]; rfl) rfl (by simp [leaveFor])
  · exact h.congr rfl rfl rfl rfl

theorem storeWrite_follows (h : PortFollows s) (ready : s.mcp.state = .ready) (a : SectorAddr) (d : SectorData) :
    PortFollows (storeWrite a d s) := by
  unfold storeWrite
  split
  · exact h.beyond (updOvl_changes _)
  · split
    · exact h.beyond (updOvl_changes _)
    · have left : PortFollows (s.updMcp (leaveFor .fault)) :=
        h.moved (updMcp_changes _) (by rw [ready]; rfl) rfl (by simp [leaveFor])
      exact left.beyond (offer_changes _ _ _)

/-! ### The station's requests (R42, R43, R149, R167) -/

theorem answer_follows (h : PortFollows s) (r : ResultCode) (code : Byte) (p : List Byte) :
    PortFollows (answer r code p s) :=
  h.beyond (answer_changes _ _ _)

theorem refuse_follows (h : PortFollows s) (r : ResultCode) (code : Byte) : PortFollows (refuse r code s) :=
  answer_follows h _ _ _

theorem takeRequest_follows {code : Byte} {act : List Byte → State → State} (h : PortFollows s)
    (acts : ∀ p, PortFollows (act p s)) : PortFollows (takeRequest code act s) :=
  takeRequest_keeps (P := PortFollows) h (refuse_follows h _ _) acts

theorem takeMarkExported_follows (h : PortFollows s) (p : List Byte) : PortFollows (takeMarkExported p s) := by
  have marked := h.beyond (markedExported_changes (trackOf p) s)
  unfold takeMarkExported
  dsimp only
  split
  · exact answer_follows marked.arbitrate _ _ _
  · exact refuse_follows h _ _

/-- A job request answered after the end of the event that changed the jobs. -/
theorem jobRequest_follows (h : PortFollows s) (k : ChangesOnly bs s t) (answered : ChangesOnly [.stl] (afterJobs t) u)
    (dsq : .dsq ∉ bs := by decide) (ixm : .ixm ∉ bs := by decide) (mcp : .mcp ∉ bs := by decide) : PortFollows u :=
  (h.beyond k dsq ixm mcp).afterJobs.beyond answered

theorem mergeJob_follows (h : PortFollows s) (j : Job) : PortFollows (mergeJob j s) := by
  have merged : ChangesOnly [.jbq, .rct] s (updEntry j.track (Entry.setOrigin .station)
      (updJob j.track (fun j => { j with origin := .station }) s)) :=
    ((updJob_changes _ _).mono (by decide)).andThen (updEntry_changes _ _) (by decide)
  unfold mergeJob
  split
  · exact answer_follows h _ _ _
  · split
    · exact refuse_follows h _ _
    · exact jobRequest_follows h merged (queueAnswer_changes _ _)

theorem queueKept_follows (h : PortFollows s) (tr : Track) (start : Nat) (f : Frame) :
    PortFollows (queueKept tr start f s) := by
  unfold queueKept
  split
  · exact refuse_follows h _ _
  · split
    · exact answer_follows (h.beyond (offer_changes _ _ _)) _ _ _
    · exact jobRequest_follows h (createKeptJob_changes _ _ _) (queueAnswer_changes _ _)

theorem takeQueueTrack_follows (h : PortFollows s) (p : List Byte) : PortFollows (takeQueueTrack p s) := by
  unfold takeQueueTrack
  dsimp only
  split
  · split
    · exact mergeJob_follows h _
    · split
      · exact refuse_follows h _ _
      · split
        · exact queueKept_follows h _ _ _
        · exact jobRequest_follows h (createFramelessJob_changes _ _) (queueAnswer_changes _ _)
  · exact refuse_follows h _ _

theorem takeRetryTrack_follows (h : PortFollows s) (p : List Byte) : PortFollows (takeRetryTrack p s) := by
  unfold takeRetryTrack
  dsimp only
  split
  · split
    · split
      · split
        · exact refuse_follows h _ _
        · exact jobRequest_follows h (createKeptJob_changes _ _ _) (answer_changes _ _ _)
      · exact refuse_follows h _ _
    · exact refuse_follows h _ _
    · exact refuse_follows h _ _
  · exact refuse_follows h _ _

/-- A cancelled job's grant ends in IDLE where it was reading or voting, and fences nothing (R109). -/
theorem cancelGrant_follows (h : PortFollows s) (tr : Track) : PortFollows (cancelGrant tr s) := by
  by_cases held : ∃ g, s.dsq.grant = some g ∧ g.kind = .jobPass ∧ g.track = tr
  · obtain ⟨g, grant, kind, track⟩ := held
    obtain ⟨dsq, -⟩ := cancelGrant_of_held grant kind track
    have only : ChangesOnly [.dsq, .rdc, .vte] s (cancelGrant tr s) := cancelGrant_changes tr
    refine h.congr (by rw [only.mcp]) (by rw [only.mcp]) (by rw [dsq])
      (readyToServe_congr (by rw [only.ixm]) ?_)
    rw [dsq]
    dsimp only
    split
    · rename_i busy
      rcases busy with k | k <;> rw [k] <;> decide
    · exact .rfl
  · rw [cancelGrant_of_other fun g grant k => held ⟨g, grant, k⟩]
    exact h

theorem takeCancelJob_follows (h : PortFollows s) (p : List Byte) : PortFollows (takeCancelJob p s) := by
  unfold takeCancelJob
  dsimp only
  split
  · split
    · exact jobRequest_follows (cancelGrant_follows h _) (endJob_changes _ _ _ _) (answer_changes _ _ _)
    · exact refuse_follows h _ _
  · exact refuse_follows h _ _

theorem portNewGeometry_follows (h : PortFollows s) : PortFollows (portNewGeometry s) := by
  by_cases service : s.mcp.state.inService = true
  · obtain ⟨opened, attached⟩ := (PortState.inService_iff _).mp service
    rw [portNewGeometry_of_open opened attached]
    exact beginHold_follows h service _
  · have closed : s.mcp.state = .notReady ∨ s.mcp.state = .detached := by
      rw [PortState.inService_iff] at service
      tauto
    rw [portNewGeometry_of_closed closed]
    exact setTrack_follows h _

theorem takeSetGeometry_follows (h : PortFollows s) (p : List Byte) : PortFollows (takeSetGeometry p s) := by
  unfold takeSetGeometry
  dsimp only
  split
  · split
    · have stored : PortFollows ((s.updGeom fun _ => geometryOf p).updDsq fun d =>
          { d with position := keepPosition (geometryOf p) d.position }) := h.congr rfl rfl rfl rfl
      exact answer_follows (portNewGeometry_follows stored).arbitrate _ _ _
    · exact refuse_follows h _ _
  · exact refuse_follows h _ _

theorem takeSetRotation_follows (h : PortFollows s) (p : List Byte) : PortFollows (takeSetRotation p s) := by
  unfold takeSetRotation
  split
  · have followed : PortStands s (followSpindle (spindleOf s.ixm) (s.updIxm (restartMonitor (rotationOf p)))) :=
      (updIxm_changes _).portStands.trans (followSpindle_portStands _)
    exact answer_follows (followed.afterEvent h) _ _ _
  · exact refuse_follows h _ _

theorem takeSetDrive_follows (h : PortFollows s) (p : List Byte) : PortFollows (takeSetDrive p s) := by
  have stored : PortFollows (s.updDsq fun d => { d with set := driveSettingsOf p }) := h.congr rfl rfl rfl rfl
  exact answer_follows stored.arbitrate _ _ _

theorem takeSetPort_follows (h : PortFollows s) (p : List Byte) : PortFollows (takeSetPort p s) := by
  have stored : PortFollows (storePort (holdLimitOf p) (flagAt p 2) (flagAt p 3) s) := h.congr rfl rfl rfl rfl
  exact answer_follows stored.arbitrate _ _ _

theorem takeClearFence_follows (h : PortFollows s) : PortFollows (takeClearFence s) := by
  unfold takeClearFence
  split
  · exact refuse_follows h _ _
  · split
    · rename_i c fence
      have cleared : PortStands s (clearedFence c s) := ⟨rfl, rfl⟩
      refine answer_follows ?_ _ _ _
      unfold clearFence
      dsimp only
      split
      · exact watchSelect_follows ((cleared.trans beginRecalibrate_portStands).afterEvent h)
      · exact h.congr rfl rfl rfl rfl
    · exact answer_follows h _ _ _

theorem takeRestDrive_follows (h : PortFollows s) (p : List Byte) : PortFollows (takeRestDrive p s) := by
  have rests : PortStands s (begunRest (restOf p) s) := abandonWork_portStands.trans (updDsq_portStands _ rfl)
  unfold takeRestDrive
  split
  · exact refuse_follows h _ _
  · exact answer_follows
      ((PortStands.ite (rests.trans beginRecalibrate_portStands) rests).afterEvent h) _ _ _

/-- DETACHED with the relay closed (R42, R148). -/
theorem bypassOn_follows (s : State) : PortFollows (bypassOn s) := by
  have port := bypassOn_mcp s
  have relay : (bypassOn s).dsq.bypass = true := by rw [bypassOn_dsq]
  exact ⟨by simp [port, relay, leaveFor], by simp [relay], by simp [port, leaveFor]⟩

theorem takeBypassOn_follows (h : PortFollows s) : PortFollows (takeBypassOn s) := by
  refine answer_follows ?_ _ _ _
  split
  · exact h
  · exact bypassOn_follows s

/-- Out of bypass the port comes back in service, or NOT_READY, as the drive serves it (R148). -/
theorem reattachPort_follows (relay : s.dsq.bypass = false) : PortFollows (reattachPort s) := by
  have only : ChangesOnly [.mcp] s (reattachPort s) :=
    .ite ((updMcp_changes _).trans beginHold_changes) (updMcp_changes _)
  have bypass : (reattachPort s).dsq.bypass = false := by rw [only.dsq]; exact relay
  have ready : readyToServe (reattachPort s) = readyToServe s := by rw [readyToServe, readyToServe, only.dsq, only.ixm]
  cases serves : readyToServe s with
  | true =>
    have started : (reattachPort s).mcp.Serves := by
      rw [reattachPort, if_pos serves]
      exact beginHold_serves _
    exact .of_service bypass (ready.trans serves) started.inService started.holds
  | false =>
    have left : reattachPort s = s.updMcp (leaveFor .notReady) := if_neg (by rw [serves]; decide)
    exact .of_closed bypass (ready.trans serves) (by rw [left]; rfl) (by rw [left]; rfl)

theorem reattachDrive_bypass (s : State) : (reattachDrive s).dsq.bypass = false := by
  have drive : PortStands (relayOpened s) (reattachDrive s) :=
    .ite (updDsq_portStands _ rfl)
      (.ite (raiseFence_portStands _ _) (.ite (raiseFence_portStands _ _) beginRecalibrate_portStands))
  rw [drive.bypass]
  rfl

theorem takeBypassOff_follows (h : PortFollows s) : PortFollows (takeBypassOff s) := by
  refine answer_follows ?_ _ _ _
  split
  · exact (reattachPort_follows (reattachDrive_bypass s)).arbitrate
  · exact h

/-! ### Resets (R46, R47, R167) -/

/-- The monitor restarts in IDLE, so the port starts NOT_READY unless the relay is closed. -/
theorem resetBlocks_follows (s : State) : PortFollows (resetBlocks s) := by
  cases bypass : s.dsq.bypass with
  | false =>
    exact .of_closed bypass rfl (if_neg (by rw [bypass]; decide)) rfl
  | true =>
    have relay : (resetBlocks s).dsq.bypass = true := bypass
    have detached : (resetBlocks s).mcp.state = .detached := if_pos bypass
    exact ⟨iff_of_true detached relay, fun free => (nomatch relay.symm.trans free), by rw [detached]; exact ⟨nofun, nofun⟩⟩

theorem softReset_follows (s : State) : PortFollows (softReset s) :=
  (resetBlocks_follows s).beyond (offer_changes _ _ _)

theorem powerOn_follows (s : State) : PortFollows (powerOn s) :=
  .of_closed rfl rfl rfl rfl

/-- A fence raised at power-on finds the port NOT_READY already. -/
theorem powerOn_fence_follows (cause : FenceCause) (s : State) :
    PortFollows (raiseFence cause (powerOn s) (powerOn s)) := by
  have stands : PortStands (powerOn s) (raiseFence cause (powerOn s) (powerOn s)) := raiseFence_portStands _ _
  have down : spindleDown (raiseFence cause (powerOn s) (powerOn s)).ixm = true := by
    rw [(raiseFence_changes cause _).ixm]
    rfl
  exact .of_closed (stands.bypass.trans rfl) (by simp [readyToServe, down]) (by rw [stands.port]; rfl)
    (by rw [stands.port]; rfl)

/-! ### Every command and every step -/

/-- The command answers a state whose port follows. -/
def ExecFollows (c : Instr) (s : State) : Prop :=
  ∃ t, exec c s = .next t ∧ PortFollows t

theorem CompletesWithin.execFollows {c : Instr} (h : CompletesWithin bs c s) (k : PortFollows s)
    (dsq : .dsq ∉ bs := by decide) (ixm : .ixm ∉ bs := by decide) (mcp : .mcp ∉ bs := by decide) : ExecFollows c s :=
  h.imp fun _ within => ⟨within.1, k.beyond within.2 dsq ixm mcp⟩

theorem ite_follows {p : Prop} [Decidable p] (h : PortFollows s) (k : p → PortFollows t) :
    PortFollows (if p then t else s) := by
  split
  · exact k ‹_›
  · exact h

theorem exec_follows (c : Instr) (h : PortFollows s) : ExecFollows c s := by
  cases c with
  | powerOnReset =>
    refine ⟨_, rfl, ?_⟩
    split
    · exact powerOn_fence_follows _ s
    · split
      · exact powerOn_fence_follows _ s
      · exact powerOn_follows s
  | indexQualified n => exact ⟨_, rfl, ite_follows h fun _ => qualifiedIndex_follows h⟩
  | startupWindowExpiry => exact ⟨_, rfl, ite_follows h fun _ => (badEvent_portStands _).afterEvent h⟩
  | closedWindowExpiry =>
    exact ⟨_, rfl, ite_follows h fun due => enterOpen_follows h ((windowDue_iff .closed s).mp due).1⟩
  | openWindowExpiry =>
    exact ⟨_, rfl, ite_follows h fun _ => ((badEvent_portStands _).trans takeLateExpiry_portStands).afterEvent h⟩
  | resyncLimitExpiry =>
    have stopped : PortStands s (s.updIxm enterIdleWindow) := (updIxm_changes _).portStands
    exact ⟨_, rfl, ite_follows h fun _ =>
      ((stopped.trans (offer_changes _ _ _).portStands).trans (followSpindle_portStands _)).afterEvent h⟩
  | seekComplete current =>
    refine ⟨_, rfl, ite_follows h fun _ => ?_⟩
    split
    · exact completeSeek_portStands.afterEvent h
    · exact completeRecalibrate_portStands.afterEvent h
    · exact h
  | seekError =>
    refine ⟨_, rfl, ?_⟩
    split
    · exact seekFault_follows h
    · exact seekFault_follows h
    · exact seekFault_follows h
    · exact h
  | seekTimeoutExpiry => exact ⟨_, rfl, ite_follows h fun _ => seekFault_follows h⟩
  | recalibrateTimeoutExpiry => exact ⟨_, rfl, ite_follows h fun _ => raiseFence_follows h _ _⟩
  | settleWaitEnd => exact ⟨_, rfl, ite_follows h fun _ => endSettle_portStands.afterEvent h⟩
  | restEnd => exact ⟨_, rfl, ite_follows h fun _ => beginRecalibrate_portStands.afterEvent h⟩
  | quietExpiry => exact ⟨_, rfl, ite_follows h fun _ => h.congr rfl rfl rfl rfl⟩
  | driveFaultAsserted line =>
    have taken : PortFollows (s.updPins fun p => { p with driveFault := line }) := h.beyond (updPins_changes _)
    exact ⟨_, rfl, ite_follows taken fun _ => raiseFence_follows taken _ _⟩
  | contentionSeen held => exact ⟨_, rfl, watchSelect_follows (h.beyond (updPins_changes _))⟩
  | header mark cyl hd sector check outside =>
    refine ⟨_, rfl, ?_⟩
    split
    · exact takeHeader_follows h _ _ _
    · exact h
  | copySeal data check outside =>
    refine ⟨_, rfl, ?_⟩
    split
    · exact deliverCopy_follows h _
    · exact h
  | batchCompletion =>
    refine ⟨_, rfl, ?_⟩
    split
    · exact (completeBatch_portStands _).afterEvent h
    · exact h
  | cooldownExpiry cyl hd =>
    refine ⟨_, rfl, ?_⟩
    split
    · exact ite_follows h fun _ => (h.beyond (updJob_changes _ _)).arbitrate
    · exact h
  | holdExpiry =>
    refine ⟨_, rfl, ite_follows h fun ended => PortFollows.arbitrate ?_⟩
    exact h.serves (updMcp_changes _) (by rw [ended.1]; rfl) (enterReady_serves _)
  | seek cyl =>
    refine ⟨_, rfl, ite_follows h fun taken => ?_⟩
    have service := inService_of_motion ((takesMotion_iff s).mp taken).2
    split
    · exact (beginHold_follows h service _).arbitrate
    · exact h.moved (updMcp_changes _) service rfl (by simp [leaveFor])
  | head hd =>
    refine ⟨_, rfl, ite_follows h fun taken => ?_⟩
    have motion := (takesMotion_iff s).mp (Bool.and_eq_true_iff.mp taken).1
    exact (selectHead_follows h motion.2 _).arbitrate
  | recalibrate =>
    refine ⟨_, rfl, ite_follows h fun taken => (beginHold_follows h ?_ _).arbitrate⟩
    rcases Bool.or_eq_true_iff.mp taken with motion | error
    · exact inService_of_motion ((takesMotion_iff s).mp motion).2
    · rw [eq_of_beq (Bool.and_eq_true_iff.mp error).2]
      rfl
  | read => exact ⟨_, rfl, ite_follows h fun _ => ite_follows (h.congr rfl rfl rfl rfl) fun _ => h.congr rfl rfl rfl rfl⟩
  | write => exact ⟨_, rfl, ite_follows h fun taken => takeWrite_follows h ((takesGate_iff s).mp taken).2.1⟩
  | writeDataComplete d =>
    refine ⟨_, rfl, ?_⟩
    split
    · have cut : PortFollows (s.updMcp cutActivity) := h.congr rfl rfl rfl rfl
      exact ite_follows h fun taken => storeWrite_follows cut (eq_of_beq (Bool.and_eq_true_iff.mp taken).2) _ _
    · exact h
  | faultClear =>
    refine ⟨_, rfl, ite_follows h fun taken => h.serves (updMcp_changes _) ?_ (enterReady_serves _)⟩
    rw [eq_of_beq (Bool.and_eq_true_iff.mp taken).2]
    rfl
  | unitSelect active => exact ⟨_, rfl, by dsimp only; split <;> exact h.congr rfl rfl rfl rfl⟩
  | emulatedIndex => exact ⟨_, rfl, ite_follows h fun _ => h.congr rfl rfl rfl rfl⟩
  | sectorPulse => exact ⟨_, rfl, ite_follows h fun _ => h.congr rfl rfl rfl rfl⟩
  | markExported => exact ⟨_, rfl, takeRequest_follows h (takeMarkExported_follows h)⟩
  | queueTrack => exact ⟨_, rfl, takeRequest_follows h (takeQueueTrack_follows h)⟩
  | retryTrack => exact ⟨_, rfl, takeRequest_follows h (takeRetryTrack_follows h)⟩
  | cancelJob => exact ⟨_, rfl, takeRequest_follows h (takeCancelJob_follows h)⟩
  | setGeometry => exact ⟨_, rfl, takeRequest_follows h (takeSetGeometry_follows h)⟩
  | setRotation => exact ⟨_, rfl, takeRequest_follows h (takeSetRotation_follows h)⟩
  | setDrive => exact ⟨_, rfl, takeRequest_follows h (takeSetDrive_follows h)⟩
  | setPort => exact ⟨_, rfl, takeRequest_follows h (takeSetPort_follows h)⟩
  | clearFence => exact ⟨_, rfl, takeRequest_follows h fun _ => takeClearFence_follows h⟩
  | restDrive => exact ⟨_, rfl, takeRequest_follows h (takeRestDrive_follows h)⟩
  | bypassOn => exact ⟨_, rfl, takeRequest_follows h fun _ => ite_follows h fun _ => takeBypassOn_follows h⟩
  | bypassOff =>
    refine ⟨_, rfl, takeRequest_follows h fun _ => ?_⟩
    split
    · exact h
    · exact takeBypassOff_follows h
  | softReset => exact ⟨_, rfl, takeRequest_follows h fun _ => answer_follows (softReset_follows s) _ _ _⟩
  | transferStart => exact transferStart_within.execFollows h
  | requestCodeByte code => exact (requestCodeByte_within code).execFollows h
  | frameComplete l p c => exact (frameComplete_within l p c).execFollows h
  | selectRise => exact selectRise_within.execFollows h
  | fetchFirstByte => exact fetchFirstByte_within.execFollows h
  | responseReleased => exact responseReleased_within.execFollows h
  | unknownRequest => exact unknownRequest_within.execFollows h
  | frameError => exact frameError_within.execFollows h
  | attentionPulseEnd => exact attentionPulseEnd_within.execFollows h
  | attentionGapEnd => exact attentionGapEnd_within.execFollows h
  | status => exact status_within.execFollows h
  | getEvents => exact getEvents_within.execFollows h
  | getSnapshot => exact getSnapshot_within.execFollows h
  | getStats => exact getStats_within.execFollows h
  | clearStats => exact clearStats_within.execFollows h
  | listEntries => exact listEntries_within.execFollows h
  | getEntry => exact getEntry_within.execFollows h
  | readSector => exact readSector_within.execFollows h
  | listFrames => exact listFrames_within.execFollows h
  | listJobs => exact listJobs_within.execFollows h
  | listOverlay => exact listOverlay_within.execFollows h
  | readOverlay => exact readOverlay_within.execFollows h
  | dropOverlay => exact dropOverlay_within.execFollows h
  | getSettings => exact getSettings_within.execFollows h
  | setRead => exact setRead_within.execFollows h
  | setVote => exact setVote_within.execFollows h
  | setLadderStep => exact setLadderStep_within.execFollows h
  | setLadderShape => exact setLadderShape_within.execFollows h

end Sys2Proof.Machine

open Sys2Proof Sys2Proof.Machine

/-- Settles O12: under each command the drive leaves the port and the relay, and the end of the event, a request or a
reset then has the port follow. -/
theorem stepKeepsPortFollowing : Obligations.StepKeepsPortFollowing := by
  intro s t _ _ follows run
  refine step_keeps (fun _ _ h => h.congr rfl rfl rfl rfl) (fun c u v h reached => ?_)
    (fun _ h _ => h.congr rfl rfl rfl rfl) follows run
  obtain ⟨w, answered, kept⟩ := exec_follows c h
  cases reached.symm.trans answered
  exact kept

end

section
/-! PROOF. The machine's motions: when they are taken, the hold each begins, and the current track it moves (R145, R149, R152,
R153, R156 to R158). -/

namespace Sys2Proof.Machine

variable {s : State}

/-! ### Holds begun (R152, R153) -/

theorem currentResolved_iff (s : State) :
    currentResolved s = true ↔ ∃ f, frameOf s.mcp.track s = some f ∧ f.fullyResolved = true :=
  Option.any_eq_true _ _

theorem currentResolved_eq_false (fresh : ∀ f, frameOf s.mcp.track s = some f → f.fullyResolved = false) :
    currentResolved s = false := by
  rw [Bool.eq_false_iff, ne_eq, currentResolved_iff]
  rintro ⟨f, frame, resolved⟩
  exact absurd (resolved.symm.trans (fresh f frame)) (by decide)

/-- A hold tested on a resolved track ends (R153). -/
theorem testHold_of_resolved (seeking : s.mcp.state = .seeking) (resolved : currentResolved s = true) :
    testHold s = s.updMcp enterReady :=
  if_pos ⟨seeking, resolved⟩

theorem testHold_of_unresolved (unresolved : currentResolved s = false) : testHold s = s :=
  if_neg fun k => Bool.false_ne_true (unresolved.symm.trans k.2)

theorem beginHold_of_outside (outside : ¬ inGeometry s s.mcp.track = true) : beginHold s = s.updMcp enterReady :=
  if_neg outside

theorem beginHold_of_resolved (resolved : currentResolved s = true) :
    (beginHold s).mcp.state = .ready ∧ (beginHold s).mcp.hold = none := by
  unfold beginHold
  split
  · have tested := testHold_of_resolved (s := s.updMcp fun m =>
      { m with state := .seeking, hold := some (uptimeExpiry s m.holdLimit), activity := .none }) rfl resolved
    rw [tested]
    exact ⟨rfl, rfl⟩
  · exact ⟨rfl, rfl⟩

theorem beginHold_of_unresolved (inside : inGeometry s s.mcp.track = true) (unresolved : currentResolved s = false) :
    beginHold s = s.updMcp fun m =>
      { m with state := .seeking, hold := some (uptimeExpiry s m.holdLimit), activity := .none } :=
  (if_pos inside).trans (testHold_of_unresolved unresolved)

/-- The hold that SEEK and RECALIBRATE begin. -/
theorem beginHold_holdOn (tr : Track) (s : State) : HoldOn tr s (beginHold (setTrack tr s)) := by
  refine ⟨(setTrack_changes tr).trans beginHold_changes, (beginHold_port _).1, fun ended => ?_, fun cyl head fresh => ?_⟩
  · by_cases inside : inGeometry (setTrack tr s) tr = true
    · obtain ⟨cyl, head⟩ := inGeometry_iff.mp inside
      have resolved := (ended.resolve_left (Nat.not_le.mpr cyl)).resolve_left (Nat.not_le.mpr head)
      exact beginHold_of_resolved ((currentResolved_iff (setTrack tr s)).mpr resolved)
    · rw [beginHold_of_outside inside]
      exact ⟨rfl, rfl⟩
  · rw [beginHold_of_unresolved (inGeometry_iff.mpr ⟨cyl, head⟩) (currentResolved_eq_false fresh)]
    exact ⟨rfl, rfl, rfl⟩

/-! ### SEEK (R156) -/

theorem exec_motions_of_deaf (deaf : ¬ takesMotion s = true) :
    (∀ c, exec (.seek c) s = .next s) ∧ ∀ h, exec (.head h) s = .next s :=
  ⟨fun _ => congrArg Host.Outcome.next (if_neg deaf),
    fun _ => congrArg Host.Outcome.next (if_neg fun taken => deaf (Bool.and_eq_true_iff.mp taken).1)⟩

theorem exec_seek_outside {c : BitVec 10} (taken : takesMotion s = true) (outside : s.geom.cylinders ≤ c.toNat) :
    exec (.seek c) s = .next (s.updMcp (leaveFor .seekError)) :=
  congrArg Host.Outcome.next ((if_pos taken).trans (if_neg (Nat.not_lt.mpr outside)))

theorem exec_seek_inside {c : BitVec 10} (taken : takesMotion s = true) (inside : c.toNat < s.geom.cylinders) :
    exec (.seek c) s = .next (arbitrate (beginHold (setTrack ⟨c.toNat, s.mcp.track.head⟩ s))) :=
  congrArg Host.Outcome.next ((if_pos taken).trans (if_pos inside))

/-! ### HEAD (R157) -/

theorem exec_head_same {h : BitVec 4} (same : h.toNat = s.mcp.track.head) : exec (.head h) s = .next s :=
  congrArg Host.Outcome.next (if_neg (by simp [same]))

theorem exec_head_other {h : BitVec 4} (taken : takesMotion s = true) (other : h.toNat ≠ s.mcp.track.head) :
    exec (.head h) s = .next (arbitrate (selectHead h.toNat s)) :=
  congrArg Host.Outcome.next (if_pos (by simp [taken, other]))

theorem selectHead_of_outside {h : Nat} (outside : s.geom.heads ≤ h) :
    selectHead h s = (setTrack ⟨s.mcp.track.cyl, h⟩ s).updMcp enterReady :=
  if_pos outside

theorem selectHead_of_ready {h : Nat} (inside : h < s.geom.heads) (ready : s.mcp.state = .ready) :
    selectHead h s = if currentResolved (setTrack ⟨s.mcp.track.cyl, h⟩ s) then setTrack ⟨s.mcp.track.cyl, h⟩ s
      else beginHold (setTrack ⟨s.mcp.track.cyl, h⟩ s) :=
  (if_neg (Nat.not_le.mpr inside)).trans (if_pos ready)

theorem selectHead_of_seeking {h : Nat} (inside : h < s.geom.heads) (seeking : s.mcp.state = .seeking) :
    selectHead h s = testHold (setTrack ⟨s.mcp.track.cyl, h⟩ s) :=
  (if_neg (Nat.not_le.mpr inside)).trans (if_neg (by rw [seeking]; decide))

theorem selectHead_track (h : Nat) (s : State) : (selectHead h s).mcp.track = ⟨s.mcp.track.cyl, h⟩ := by
  unfold selectHead
  dsimp only
  split
  · rfl
  · split
    · split
      · rfl
      · exact (beginHold_port _).1
    · rcases testHold_cases (setTrack ⟨s.mcp.track.cyl, h⟩ s) with e | ⟨-, e⟩ <;> rw [e] <;> rfl

section
variable {h : Nat} (motion : s.mcp.state = .ready ∨ s.mcp.state = .seeking)
include motion

/-- A track without data yet to come, and one outside the geometry, is READY. -/
theorem selectHead_readies (ended : s.geom.heads ≤ h ∨
    ∃ f, frameOf ⟨s.mcp.track.cyl, h⟩ s = some f ∧ f.fullyResolved = true) : (selectHead h s).mcp.state = .ready := by
  by_cases inside : h < s.geom.heads
  · have resolved := (currentResolved_iff (setTrack ⟨s.mcp.track.cyl, h⟩ s)).mpr
      (ended.resolve_left (Nat.not_le.mpr inside))
    rcases motion with ready | seeking
    · rw [selectHead_of_ready inside ready, if_pos resolved]
      exact ready
    · rw [selectHead_of_seeking inside seeking,
        testHold_of_resolved (s := setTrack ⟨s.mcp.track.cyl, h⟩ s) seeking resolved]
      rfl
  · rw [selectHead_of_outside (Nat.not_lt.mp inside)]
    rfl

/-- A hold begins from READY, and one in progress goes on to its time. -/
theorem selectHead_holds (cyl : s.mcp.track.cyl < s.geom.cylinders) (inside : h < s.geom.heads)
    (fresh : ∀ f, frameOf ⟨s.mcp.track.cyl, h⟩ s = some f → f.fullyResolved = false) :
    (selectHead h s).mcp.state = .seeking ∧
      (selectHead h s).mcp.hold = if s.mcp.state = .ready then some ⟨s.clock.uptime, s.mcp.holdLimit⟩ else s.mcp.hold := by
  have unresolved : currentResolved (setTrack ⟨s.mcp.track.cyl, h⟩ s) = false := currentResolved_eq_false fresh
  rcases motion with ready | seeking
  · have begun := beginHold_of_unresolved (s := setTrack ⟨s.mcp.track.cyl, h⟩ s) (inGeometry_iff.mpr ⟨cyl, inside⟩)
      unresolved
    rw [selectHead_of_ready inside ready, if_neg (by rw [unresolved]; decide), begun, if_pos ready]
    exact ⟨rfl, rfl⟩
  · rw [selectHead_of_seeking inside seeking, testHold_of_unresolved unresolved, if_neg (by rw [seeking]; decide)]
    exact ⟨seeking, rfl⟩

end

/-! ### RECALIBRATE (R158) -/

theorem exec_recalibrate_taken (selected : s.pins.unitSelect = true)
    (state : s.mcp.state = .ready ∨ s.mcp.state = .seeking ∨ s.mcp.state = .seekError) :
    exec .recalibrate s = .next (arbitrate (beginHold (setTrack ⟨0, s.mcp.track.head⟩ s))) := by
  refine congrArg Host.Outcome.next (if_pos ?_)
  rcases state with k | k | k <;> simp [takesMotion, selected, k]

theorem exec_recalibrate_ignored (deaf : ¬ takesMotion s = true)
    (other : s.pins.unitSelect = false ∨ s.mcp.state ≠ .seekError) : exec .recalibrate s = .next s := by
  refine congrArg Host.Outcome.next (if_neg fun taken => ?_)
  obtain ⟨selected, error⟩ := Bool.and_eq_true_iff.mp ((Bool.or_eq_true_iff.mp taken).resolve_left deaf)
  exact other.elim (fun k => Bool.false_ne_true (k.symm.trans selected)) fun k => k (eq_of_beq error)

end Sys2Proof.Machine

open Sys2Proof Sys2Proof.Machine

/-- Settles O55: when each motion is taken, and the hold it begins. -/
theorem motionsBeginHolds : Obligations.MotionsBeginHolds := by
  intro s
  refine ⟨fun deaf => ?_, fun selected motion => ?_, fun selected state =>
    ⟨_, exec_recalibrate_taken selected state, beginHold_holdOn _ s⟩⟩
  · have deaf : ¬ takesMotion s = true := by
      rw [takesMotion_iff]
      rintro ⟨selected, motion⟩
      rcases deaf with released | ⟨ready, seeking⟩
      · exact Bool.false_ne_true (released.symm.trans selected)
      · exact motion.elim ready seeking
    exact ⟨(exec_motions_of_deaf deaf).1, (exec_motions_of_deaf deaf).2, exec_recalibrate_ignored deaf⟩
  · have taken := (takesMotion_iff s).mpr ⟨selected, motion⟩
    exact ⟨fun c outside => ⟨_, exec_seek_outside taken outside, updMcp_changes _, rfl⟩,
      fun c inside => ⟨_, exec_seek_inside taken inside, beginHold_holdOn _ s⟩, fun h => exec_head_same,
      fun h other => ⟨_, exec_head_other taken other, selectHead_changes _, selectHead_track _ s,
        selectHead_readies motion, selectHead_holds motion⟩⟩

end

section
/-! PROOF. The ends of holds and faults, and the unit select line (R145, R154, R162). -/

namespace Sys2Proof.Machine

variable {s : State}

theorem holdEnds_of_fallen (fallen : Fallen .holdExpiry s) : holdEnds s = arbitrate (s.updMcp enterReady) :=
  if_pos (by simpa using (holdDue_iff s).mpr fallen)

theorem holdEnds_of_not_fallen (standing : ¬ Fallen .holdExpiry s) : holdEnds s = s :=
  if_neg fun due => standing ((holdDue_iff s).mp (by simpa using due))

theorem exec_faultClear_taken (selected : s.pins.unitSelect = true) (fault : s.mcp.state = .fault) :
    exec .faultClear s = .next (s.updMcp enterReady) :=
  congrArg Host.Outcome.next (if_pos (by simp [selected, fault]))

theorem exec_faultClear_ignored (deaf : s.pins.unitSelect = false ∨ s.mcp.state ≠ .fault) :
    exec .faultClear s = .next s := by
  refine congrArg Host.Outcome.next (if_neg ?_)
  rcases deaf with released | other
  · simp [released]
  · simp [other]

/-- The line going inactive cuts off what was under way, and going active changes nothing but the line. -/
theorem exec_unitSelect (b : Bool) (s : State) : exec (.unitSelect b) s =
    .next { s with
      pins := { s.pins with unitSelect := b }, mcp := { s.mcp with activity := if b then s.mcp.activity else .none } } := by
  cases b <;> rfl

end Sys2Proof.Machine

open Sys2Proof Sys2Proof.Machine

/-- Settles O56: the hold whose time has fallen and the one whose time has not, FAULT_CLEAR by the state and the line, and
the line itself. -/
theorem holdsAndFaultsEnd : Obligations.HoldsAndFaultsEnd := by
  refine ⟨fun s e seeking hold => ⟨fun passed => ?_, fun early => ?_⟩, fun s standing =>
    congrArg Host.Outcome.next (holdEnds_of_not_fallen standing), fun s => ⟨fun selected fault => ?_,
    exec_faultClear_ignored⟩, fun s b => ?_⟩
  · exact ⟨_, congrArg Host.Outcome.next (holdEnds_of_fallen ⟨seeking, e, hold, passed⟩), updMcp_changes _, rfl⟩
  · refine congrArg Host.Outcome.next (holdEnds_of_not_fallen ?_)
    rintro ⟨-, e', held, passed⟩
    cases hold.symm.trans held
    exact Nat.not_le.mpr early passed
  · exact ⟨_, exec_faultClear_taken selected fault, updMcp_changes _, rfl⟩
  · have run := exec_unitSelect b s
    exact ⟨_, run, (unitSelect_within b).changes run, rfl, rfl⟩

end

section
/-! PROOF. Writes stored in the overlay (R151, R161, R163). -/

namespace Sys2Proof.Machine

variable {s : State} {a : SectorAddr} {d : SectorData}

theorem exec_writeDataComplete_of_none (idle : s.mcp.activity = .none) : exec (.writeDataComplete d) s = .next s := by
  show Host.Outcome.next _ = _
  rw [idle]

theorem exec_writeDataComplete_of_writing (writing : s.mcp.activity = .writing a) (ready : s.mcp.state = .ready)
    (selected : s.pins.unitSelect = true) :
    exec (.writeDataComplete d) s = .next (storeWrite a d (s.updMcp cutActivity)) := by
  show Host.Outcome.next _ = _
  rw [writing]
  exact congrArg Host.Outcome.next (if_pos (by simp [selected, ready]))

/-- The entry of the address takes the data and one more write. -/
theorem storeWrite_of_held {e : OverlayEntry} (held : overlayOf a s = some e) : storeWrite a d s =
    s.updOvl fun o => { o with entries := o.entries.map fun e => if e.addr = a then rewrite d e else e } :=
  if_pos (by rw [held]; rfl)

theorem storeWrite_of_room (new : overlayOf a s = none) (room : s.ovl.entries.length < 64) : storeWrite a d s =
    s.updOvl fun o => { o with entries := o.entries ++ [⟨a, d, 1⟩] } :=
  (if_neg (by rw [new]; decide)).trans (if_pos room)

theorem storeWrite_of_full (new : overlayOf a s = none) (full : 64 ≤ s.ovl.entries.length) : storeWrite a d s =
    offer .overlayFull (some a.track) a.sector (s.updMcp (leaveFor .fault)) :=
  (if_neg (by rw [new]; decide)).trans (if_neg (Nat.not_lt.mpr full))

/-- A WRITE reaches no other address. -/
theorem overlayOf_storeWrite_ne {x : SectorAddr} (other : x ≠ a) : overlayOf x (storeWrite a d s) = overlayOf x s := by
  unfold storeWrite
  split
  · exact find_change_ne OverlayEntry.addr _ (rewrite d) (fun _ => rfl) other
  · split
    · exact find_join_ne OverlayEntry.addr s.ovl.entries ⟨a, d, 1⟩ other
    · rfl

theorem overlayOf_rewritten {e : OverlayEntry} (held : overlayOf a s = some e) :
    overlayOf a (storeWrite a d s) = some ⟨a, d, min 255 (e.writes + 1)⟩ := by
  have addr := overlayOf_addr held
  rw [storeWrite_of_held held]
  refine (find_change_self OverlayEntry.addr s.ovl.entries a (rewrite d) fun _ => rfl).trans ?_
  rw [show s.ovl.entries.find? (fun y => y.addr == a) = some e from held, ← addr]
  rfl

theorem storeWrite_addresses {e : OverlayEntry} (held : overlayOf a s = some e) :
    (storeWrite a d s).ovl.entries.map OverlayEntry.addr = s.ovl.entries.map OverlayEntry.addr := by
  rw [storeWrite_of_held held]
  exact keys_change OverlayEntry.addr s.ovl.entries a (rewrite d) fun _ => rfl

end Sys2Proof.Machine

open Sys2Proof Sys2Proof.Machine

/-- Settles O58: the WRITE that faults at once, and a WRITE's data by what the overlay holds. -/
theorem writesAreStored : Obligations.WritesAreStored := by
  refine ⟨fun s selected ready first head => ?_, fun s d => ⟨exec_writeDataComplete_of_none,
    fun a writing ready selected => ?_⟩⟩
  · have run := exec_write_of_open selected ready first
    exact ⟨_, run, write_within.changes run, (takeWrite_mcp s).trans (if_pos head)⟩
  · have run := exec_writeDataComplete_of_writing (d := d) writing ready selected
    refine ⟨_, run, (writeDataComplete_within d).changes run, fun x other => overlayOf_storeWrite_ne other,
      fun e held => ?_, fun new room => ?_, fun new full => ?_⟩
    · exact ⟨overlayOf_rewritten (s := s.updMcp cutActivity) held, storeWrite_addresses (s := s.updMcp cutActivity) held,
        by rw [storeWrite_of_held (s := s.updMcp cutActivity) held]; exact ⟨rfl, rfl⟩⟩
    · rw [storeWrite_of_room (s := s.updMcp cutActivity) new room]
      exact ⟨rfl, rfl, rfl⟩
    · rw [storeWrite_of_full (s := s.updMcp cutActivity) new full]
      exact ⟨rfl, rfl, firstQueued_of_offer (s := s) (u := (s.updMcp cutActivity).updMcp (leaveFor .fault)) rfl (.refl _)⟩

end

section
/-! PROOF. The emulated rotation and the lines of the machine cable (R145, R150, R151). -/

namespace Sys2Proof.Machine

variable {s : State}

theorem exec_emulatedIndex_of_fallen (fallen : Fallen .emulatedIndex s) : exec .emulatedIndex s =
    .next (s.updMcp (nextPassing
      ⟨s.mcp.emu.indexAt + BitVec.ofNat 32 s.mcp.emu.period, s.ixm.rot.pNom, s.geom.sectors, 0⟩)) :=
  congrArg Host.Outcome.next (if_pos ((emulatedIndexDue_iff s).mpr fallen))

theorem exec_emulatedIndex_of_not_fallen (standing : ¬ Fallen .emulatedIndex s) : exec .emulatedIndex s = .next s :=
  congrArg Host.Outcome.next (if_neg fun due => standing ((emulatedIndexDue_iff s).mp due))

theorem exec_sectorPulse_of_fallen (fallen : Fallen .sectorPulse s) : exec .sectorPulse s =
    .next (s.updMcp (nextPassing { s.mcp.emu with passing := s.mcp.emu.passing + 1 })) :=
  congrArg Host.Outcome.next (if_pos ((sectorPulseDue_iff s).mpr fallen))

theorem exec_sectorPulse_of_not_fallen (standing : ¬ Fallen .sectorPulse s) : exec .sectorPulse s = .next s :=
  congrArg Host.Outcome.next (if_neg fun due => standing ((sectorPulseDue_iff s).mp due))

/-! ### The lines (R145) -/

theorem portOutputs_of_detached (detached : s.mcp.state = .detached) :
    portOutputs s = ⟨.released, .released, .released, .released, .released, .released⟩ := by
  rw [portOutputs, detached]

theorem portOutputs_of_quiet (attached : s.mcp.state ≠ .detached)
    (quiet : s.pins.unitSelect = false ∨ s.mcp.state = .notReady) :
    portOutputs s = ⟨.inactive, .inactive, .inactive, .inactive, .none, .none⟩ := by
  unfold portOutputs
  split
  · exact absurd ‹_› attached
  · rcases quiet with released | closed
    · exact if_neg (by rw [released]; decide)
    · rw [closed, ite_self]

theorem portOutputs_of_selected (selected : s.pins.unitSelect = true) :
    (s.mcp.state = .seeking → portOutputs s = ⟨.active, .inactive, .inactive, .inactive, .none, .none⟩) ∧
    (s.mcp.state = .seekError → portOutputs s = ⟨.active, .inactive, .active, .inactive, .none, .none⟩) ∧
    (s.mcp.state = .fault → portOutputs s = ⟨.active, .active, .inactive, .active, .none, .none⟩) ∧
    (s.mcp.state = .ready → portOutputs s =
      ⟨.active, .active, .inactive, .inactive, .emulated, sentAnswer s.mcp.activity⟩) := by
  unfold portOutputs
  refine ⟨fun state => ?_, fun state => ?_, fun state => ?_, fun state => ?_⟩ <;>
    (rw [state]; exact if_pos selected)

/-- Nothing is sent but the answer of a READ that has one (R151, R160). -/
theorem sentAnswer_of_silent {x : Activity} (silent : ∀ a, x ≠ .reading (some a)) : sentAnswer x = .none := by
  unfold sentAnswer
  split
  · exact absurd rfl (silent _)
  · rfl

end Sys2Proof.Machine

open Sys2Proof Sys2Proof.Machine

/-- Settles O59: the index and the pulse, fallen and not, and the lines state by state. -/
theorem emulatedRotationTurns : Obligations.EmulatedRotationTurns := by
  intro s
  refine ⟨fun passed => ⟨_, exec_emulatedIndex_of_fallen passed, updMcp_changes _, rfl⟩,
    fun early => exec_emulatedIndex_of_not_fallen (Nat.not_le.mpr early),
    fun more passed => ⟨_, exec_sectorPulse_of_fallen ⟨more, passed⟩, updMcp_changes _, rfl⟩,
    fun early => exec_sectorPulse_of_not_fallen ?_, portOutputs_of_detached, portOutputs_of_quiet, fun selected => ?_⟩
  · rintro ⟨more, passed⟩
    exact early.elim (Nat.not_le.mpr more) fun k => Nat.not_le.mpr k passed
  · obtain ⟨seeking, error, fault, ready⟩ := portOutputs_of_selected selected
    exact ⟨seeking, error, fault, fun state => ⟨_, ready state, fun a answered => by rw [answered]; rfl,
      sentAnswer_of_silent⟩⟩

end

section
/-! PROOF. STATUS and GET_SETTINGS: the hold reasons bit by bit, and each item at its place in the report (R155, R177, R179,
R192, R205, R208, R210, R211). -/

namespace Sys2Proof.Machine

variable {s : State}

/-! ### Fields of a report (R205) -/

/-- The two bytes of a field hold its value. -/
theorem pair_joined (n : Nat) : 256 * (n / 256 % 256) + n % 256 = n % 65536 := by
  omega

theorem flagBit_mod_ne_zero (b : Bool) : flagBit b 0 % 256 ≠ 0 ↔ b = true := by
  rw [ne_eq, flagBit_mod_eq_zero, Bool.not_eq_false]

/-! ### The hold reasons (R155, R208) -/

/-- Four flags, a bit each. -/
theorem flagBits_shown (a b c d : Bool) : flagBit a 0 + flagBit b 1 + flagBit c 2 + flagBit d 3 < 16 ∧
    (flagBit a 0 + flagBit b 1 + flagBit c 2 + flagBit d 3).testBit 0 = a ∧
    (flagBit a 0 + flagBit b 1 + flagBit c 2 + flagBit d 3).testBit 1 = b ∧
    (flagBit a 0 + flagBit b 1 + flagBit c 2 + flagBit d 3).testBit 2 = c ∧
    (flagBit a 0 + flagBit b 1 + flagBit c 2 + flagBit d 3).testBit 3 = d := by
  revert a b c d
  decide

theorem fetchInFlight_iff (s : State) (tr : Track) : fetchInFlight s tr = true ↔
    ∃ g, s.dsq.grant = some g ∧ g.track = tr ∧ g.kind ≠ .jobPass := by
  simp [fetchInFlight, Option.any_eq_true]

theorem fillInFlight_iff (s : State) (tr : Track) : fillInFlight s tr = true ↔
    ∃ g, s.dsq.grant = some g ∧ g.track = tr ∧ g.kind = .jobPass ∧ g.fill = true := by
  simp [fillInFlight, Option.any_eq_true, and_assoc]

theorem holdFetch_iff (s : State) : holdFetch s = true ↔ frameOf s.mcp.track s = none ∨
    ∃ g, s.dsq.grant = some g ∧ g.track = s.mcp.track ∧ (g.kind ≠ .jobPass ∨ g.fill = true) := by
  rw [holdFetch, Bool.or_eq_true, Bool.or_eq_true, Option.isNone_iff_eq_none, fetchInFlight_iff, fillInFlight_iff, or_assoc]
  refine or_congr_right ⟨?_, ?_⟩
  · rintro (⟨g, grant, track, fetch⟩ | ⟨g, grant, track, -, fill⟩)
    exacts [⟨g, grant, track, .inl fetch⟩, ⟨g, grant, track, .inr fill⟩]
  · rintro ⟨g, grant, track, reads⟩
    by_cases job : g.kind = .jobPass
    · exact .inr ⟨g, grant, track, job, reads.resolve_left (not_not_intro job)⟩
    · exact .inl ⟨g, grant, track, job⟩

theorem holdRecovery_iff (s : State) : holdRecovery s = true ↔
    (∃ j, jobOf s.mcp.track s = some j ∧ j.tallies ≠ []) ∧
      ¬ ∃ g, s.dsq.grant = some g ∧ g.track = s.mcp.track ∧ g.kind = .jobPass ∧ g.fill = true := by
  rw [holdRecovery, Bool.and_eq_true, Option.any_eq_true, Bool.not_eq_true', Bool.eq_false_iff, ne_eq, fillInFlight_iff]
  simp

theorem holdReasons_of_holding (seeking : s.mcp.state = .seeking) : holdReasons s =
    flagBit (holdFetch s) 0 + flagBit (holdRecovery s) 1 + flagBit (decide (spindleOf s.ixm = .unstable)) 2 +
      flagBit (decide (s.dsq.state = .resting)) 3 := by
  rw [holdReasons, seeking]

theorem holdReasons_of_other (other : s.mcp.state ≠ .seeking) : holdReasons s = 0 := by
  unfold holdReasons
  split
  · exact absurd ‹_› other
  · rfl

theorem showsHoldReasons (s : State) : ShowsHoldReasons (holdReasons s) s := by
  refine ⟨holdReasons_of_other, fun seeking => ?_⟩
  obtain ⟨bound, fetch, recovery, spindle, resting⟩ := flagBits_shown (holdFetch s) (holdRecovery s)
    (decide (spindleOf s.ixm = .unstable)) (decide (s.dsq.state = .resting))
  rw [holdReasons_of_holding seeking, fetch, recovery, spindle, resting]
  exact ⟨bound, holdFetch_iff s, holdRecovery_iff s, decide_eq_true_iff, decide_eq_true_iff⟩

theorem holdReasons_lt (s : State) : holdReasons s < 256 := by
  by_cases seeking : s.mcp.state = .seeking
  · exact Nat.lt_trans ((showsHoldReasons s).2 seeking).1 (by decide)
  · rw [holdReasons_of_other seeking]
    decide

/-! ### STATUS (R179, R211) -/

theorem spindleByte_mod (x : Spindle) : spindleByte x % 256 = spindleByte x := by
  cases x <;> rfl

theorem dsqByte_mod (x : DsqState) : dsqByte x % 256 = dsqByte x := by
  cases x <;> rfl

theorem portByte_mod (x : PortState) : portByte x % 256 = portByte x := by
  cases x <;> rfl

theorem optCauseByte_mod (x : Option FenceCause) : optCauseByte x % 256 = optCauseByte x := by
  rcases x with _ | x
  · rfl
  · cases x <;> rfl

/-- The position stands in bytes 5 to 8, or its absence does. -/
theorem statusReport_position (s : State) : (s.dsq.position = none → (statusReport s).extract 5 9 = [0xFF, 0xFF, 0, 0]) ∧
    ∀ x, s.dsq.position = some x → pairAt (statusReport s) 5 = x.cyl % 65536 ∧ byteAt (statusReport s) 7 = x.head % 256 ∧
      (statusReport s).getD 8 0 = BitVec.ofInt 8 x.offset := by
  refine ⟨fun unknown => ?_, fun x known => ?_⟩
  · simp only [statusReport, unknown, positionBytes, trackBytes, u8, u16, i8, List.cons_append, List.nil_append,
      List.extract_eq_take_drop, List.drop_succ_cons, List.drop_zero, List.take_succ_cons, List.take_zero, Nat.reduceSub]
    rfl
  · simp only [statusReport, known, positionBytes, trackBytes, u8, u16, i8, List.cons_append, List.nil_append, pairAt, byteAt,
      List.getD_cons_zero, List.getD_cons_succ, BitVec.toNat_ofNat, Nat.reducePow, pair_joined, and_self]

/-- Every other item stands at its place, however the position is reported. -/
theorem statusReport_fields (s : State) : (statusReport s).length = 22 ∧
    byteAt (statusReport s) 0 = spindleByte (spindleOf s.ixm) ∧
    pairAt (statusReport s) 1 = s.ixm.average.toNat % 65536 ∧ byteAt (statusReport s) 3 = s.ixm.violations % 256 ∧
    byteAt (statusReport s) 4 = dsqByte s.dsq.state ∧ byteAt (statusReport s) 9 = s.dsq.faults % 256 ∧
    byteAt (statusReport s) 10 = optCauseByte s.dsq.fence ∧ byteAt (statusReport s) 11 = portByte s.mcp.state ∧
    pairAt (statusReport s) 12 = s.mcp.track.cyl % 65536 ∧ byteAt (statusReport s) 14 = s.mcp.track.head % 256 ∧
    byteAt (statusReport s) 15 = holdReasons s ∧ byteAt (statusReport s) 16 = s.jbq.jobs.length % 256 ∧
    byteAt (statusReport s) 17 = s.tks.frames.length % 256 ∧ pairAt (statusReport s) 18 = s.rct.entries.length % 65536 ∧
    byteAt (statusReport s) 20 = s.ovl.entries.length % 256 ∧ byteAt (statusReport s) 21 = s.evq.records.length % 256 := by
  have reasons := Nat.mod_eq_of_lt (holdReasons_lt s)
  cases position : s.dsq.position <;>
    simp only [statusReport, position, positionBytes, trackBytes, u8, u16, i8, List.cons_append, List.nil_append, pairAt,
      byteAt, List.getD_cons_zero, List.getD_cons_succ, BitVec.toNat_ofNat, Nat.reducePow, pair_joined, spindleByte_mod,
      dsqByte_mod, portByte_mod, optCauseByte_mod, reasons, List.length_cons, List.length_nil, and_self]

/-! ### GET_SETTINGS (R192, R210, R211) -/

/-- The settings before the ladder's records: geometry, rotation, read and vote. -/
def settingsFront (s : State) : List Byte :=
  geometryBytes s.geom ++ rotationBytes s.ixm.rot ++ readBytes s.rdc.headerOffset s.rdc.slipLimit ++
    voteBytes s.vte.copyLimit s.vte.minMargin

/-- The settings after the ladder's records: shape, drive and port. -/
def settingsBack (s : State) : List Byte :=
  shapeBytes s.jbq.length s.jbq.repeats s.jbq.cooldown ++ driveBytes s.dsq.set ++
    portBytes s.mcp.holdLimit s.tks.exportHold s.mcp.attnPulse

theorem settingsReport_eq (s : State) :
    settingsReport s = settingsFront s ++ (s.jbq.ladder.flatMap ladderBytes ++ settingsBack s) := by
  simp only [settingsReport, settingsFront, settingsBack, List.append_assoc]

theorem settingsFront_fields (s : State) (rest : List Byte) :
    pairAt (settingsFront s ++ rest) 0 = s.geom.cylinders % 65536 ∧
    byteAt (settingsFront s ++ rest) 2 = s.geom.heads % 256 ∧ byteAt (settingsFront s ++ rest) 3 = s.geom.sectors % 256 ∧
    pairAt (settingsFront s ++ rest) 4 = s.ixm.rot.pNom % 65536 ∧ byteAt (settingsFront s ++ rest) 6 = s.ixm.rot.tol % 256 ∧
    byteAt (settingsFront s ++ rest) 7 = s.ixm.rot.startup % 256 ∧
    byteAt (settingsFront s ++ rest) 8 = s.ixm.rot.limit % 256 ∧ byteAt (settingsFront s ++ rest) 9 = s.ixm.rot.shift % 256 ∧
    byteAt (settingsFront s ++ rest) 10 = s.ixm.rot.width % 256 ∧
    pairAt (settingsFront s ++ rest) 11 = s.rdc.headerOffset % 65536 ∧
    pairAt (settingsFront s ++ rest) 13 = s.rdc.slipLimit % 65536 ∧
    byteAt (settingsFront s ++ rest) 15 = s.vte.copyLimit % 256 ∧
    byteAt (settingsFront s ++ rest) 16 = s.vte.minMargin % 256 := by
  simp only [settingsFront, geometryBytes, rotationBytes, readBytes, voteBytes, u8, u16, List.cons_append, List.nil_append,
    pairAt, byteAt, List.getD_cons_zero, List.getD_cons_succ, BitVec.toNat_ofNat, Nat.reducePow, pair_joined, and_self]

theorem settingsBack_fields (s : State) :
    byteAt (settingsBack s) 0 = s.jbq.length % 256 ∧ byteAt (settingsBack s) 1 = s.jbq.repeats % 256 ∧
    pairAt (settingsBack s) 2 = s.jbq.cooldown % 65536 ∧ pairAt (settingsBack s) 4 = s.dsq.set.seekTimeout % 65536 ∧
    byteAt (settingsBack s) 6 = s.dsq.set.settle % 256 ∧ byteAt (settingsBack s) 7 = s.dsq.set.retries % 256 ∧
    byteAt (settingsBack s) 8 = s.dsq.set.fenceLimit % 256 ∧ pairAt (settingsBack s) 9 = s.dsq.set.quietPeriod % 65536 ∧
    (byteAt (settingsBack s) 11 ≠ 0 ↔ s.dsq.set.prefetch = true) ∧
    pairAt (settingsBack s) 12 = s.mcp.holdLimit % 65536 ∧ (byteAt (settingsBack s) 14 ≠ 0 ↔ s.tks.exportHold = true) ∧
    (byteAt (settingsBack s) 15 ≠ 0 ↔ s.mcp.attnPulse = true) := by
  simp only [settingsBack, shapeBytes, driveBytes, portBytes, u8, u16, List.cons_append, List.nil_append, pairAt, byteAt,
    List.getD_cons_zero, List.getD_cons_succ, BitVec.toNat_ofNat, Nat.reducePow, pair_joined, flagBit_mod_ne_zero, and_self]

theorem length_flatMap_ladderBytes (rs : List LadderStep) : (rs.flatMap ladderBytes).length = 3 * rs.length := by
  induction rs with
  | nil => rfl
  | cons r rs ih =>
    rw [List.flatMap_cons, List.length_append, ih, List.length_cons]
    show 3 + _ = _
    omega

theorem getD_append_right (pre b : List Byte) (i : Nat) : (pre ++ b).getD (pre.length + i) 0 = b.getD i 0 := by
  rw [List.getD_append_right _ _ _ _ (Nat.le_add_right _ _), Nat.add_sub_cancel_left]

/-- A step record stands at three times its place among the records sent. -/
theorem ladderRecord_at (rest : List Byte) {rs : List LadderStep} {k : Nat} {r : LadderStep} (record : rs[k]? = some r) :
    (rs.flatMap ladderBytes ++ rest).getD (3 * k) 0 = BitVec.ofInt 8 r.offset ∧
      (rs.flatMap ladderBytes ++ rest).getD (3 * k + 1) 0 = BitVec.ofInt 8 r.shift ∧
      byteAt (rs.flatMap ladderBytes ++ rest) (3 * k + 2) = r.passes % 256 := by
  induction rs generalizing k with
  | nil => cases record
  | cons x rs ih =>
    rw [List.flatMap_cons, List.append_assoc]
    cases k with
    | zero =>
      cases record
      exact ⟨rfl, rfl, BitVec.toNat_ofNat _ _⟩
    | succ k =>
      have place (i : Nat) : 3 * (k + 1) + i = (ladderBytes x).length + (3 * k + i) := by
        show _ = 3 + _
        omega
      obtain ⟨offset, shift, passes⟩ := ih record
      refine ⟨?_, ?_, ?_⟩
      · exact (congrArg (List.getD _ · 0) (place 0)).trans ((getD_append_right _ _ _).trans offset)
      · rw [place 1, getD_append_right, shift]
      · rw [place 2, byteAt_append_right, passes]

end Sys2Proof.Machine

open Sys2Proof Sys2Proof.Machine

/-- Settles O24: the fields of the two reports, the hold reasons among them, and the ladder's records in their order. -/
theorem statusAndSettingsAreReported : Obligations.StatusAndSettingsAreReported := by
  refine ⟨fun s p taking => ?_, fun s p taking twelve => ?_⟩
  · obtain ⟨length, spindle, average, violations, drive, faults, fence, port, cyl, head, reasons, counts⟩ :=
      statusReport_fields s
    obtain ⟨unknown, known⟩ := statusReport_position s
    exact ⟨_, statusReport s, congrArg Host.Outcome.next (takeRequest_of_taking _ taking), answer_changes _ _ _,
      answer_answered _ _ _, length, spindle, average, violations, drive, unknown, known, faults, fence, port, cyl, head,
      reasons.symm ▸ showsHoldReasons s, counts⟩
  · have ladder : (settingsFront s ++ s.jbq.ladder.flatMap ladderBytes).length = 53 := by
      rw [List.length_append, length_flatMap_ladderBytes, twelve]
      rfl
    have byte (i : Nat) : byteAt (settingsReport s) (53 + i) = byteAt (settingsBack s) i := by
      rw [settingsReport_eq, ← List.append_assoc, ← ladder, byteAt_append_right]
    have pair (i : Nat) : pairAt (settingsReport s) (53 + i) = pairAt (settingsBack s) i := by
      rw [settingsReport_eq, ← List.append_assoc, ← ladder, pairAt_append_right]
    have front := settingsFront_fields s (s.jbq.ladder.flatMap ladderBytes ++ settingsBack s)
    rw [← settingsReport_eq] at front
    obtain ⟨cylinders, heads, sectors, pNom, tol, startup, limit, shift, width, offset, slip, copies, margin⟩ := front
    have back := settingsBack_fields s
    simp only [← byte, ← pair] at back
    refine ⟨_, settingsReport s, congrArg Host.Outcome.next (takeRequest_of_taking _ taking), answer_changes _ _ _,
      answer_answered _ _ _, ?_, cylinders, heads, sectors, pNom, tol, startup, limit, shift, width, offset, slip, copies,
      margin, fun k r record => ?_, back⟩
    · rw [settingsReport_eq, ← List.append_assoc, List.length_append, ladder]
      rfl
    · obtain ⟨offset, shift, passes⟩ := ladderRecord_at (settingsBack s) record
      have first : 17 + 3 * k = (settingsFront s).length + 3 * k := rfl
      have place (i : Nat) : 17 + i + 3 * k = (settingsFront s).length + (3 * k + i) := by
        show _ = 17 + _
        omega
      rw [settingsReport_eq]
      refine ⟨?_, ?_, ?_⟩
      · rw [first, getD_append_right, offset]
      · rw [place 1, getD_append_right, shift]
      · rw [place 2, byteAt_append_right, passes]

end
